-- ==== Sys2Proof/Word.lean ====
section
/-! DEFINITION. The words of the OZ40 (00_scope.md R7, R8, R10): bytes, 32-bit and 64-bit registers, and the names of
the things that are numbered: cores, dies, ports, spools, requesters. Plain types only. -/

namespace Sys2Proof

/-- One byte (R8). -/
abbrev Byte := BitVec 8
/-- A 32-bit register or word (R10). -/
abbrev Word := BitVec 32
/-- A 64-bit register (R10). -/
abbrev Dword := BitVec 64
/-- A loom core number g = 8 × die + local (R2). -/
abbrev CoreId := BitVec 8
/-- A Treadle die: 0 is TD0, 1 is TD1 (Table 1.1). -/
abbrev Td := Fin 2
/-- A PCIe function of a Treadle die: 0 is function a, 1 is function b (R337). -/
abbrev Fn := Fin 2
/-- A command spool of a Treadle die (§11.3). -/
abbrev SpoolId := Fin 64
/-- A VXF port p = 6 × n + k (R374). -/
abbrev PortId := Fin 24
/-- A Selvedge die SDn. -/
abbrev Sd := Fin 4
/-- A Loom die LDnn. -/
abbrev Die := Fin 32
/-- A Tally channel number of a die (R462). -/
abbrev TallyNo := Fin 16
/-- A tracker entry of a core (R311). -/
abbrev Entry := Fin 64
/-- A die that keeps an event log (R455): 0–31 the Loom dies, 32–35 SD0–SD3, 36 TD0, 37 TD1, 38 the Heddle die,
39 the Temple die. -/
abbrev LogDie := Fin 40

/-- A requester of register accesses (R11, R505), in the order of R505. -/
inductive Requester where
  | td0a | td0b | td1a | td1b | smbus
deriving DecidableEq, Repr

/-- The snapshot groups of Table 16.2, by their first register. -/
inductive SnapGroup where
  | weft | fellLast | dropInfo | ledgerFail | hist
deriving DecidableEq, Repr

/-- The classes of mesh slots (§1.4). -/
inductive SlotClass where
  | read | write | remote | service
deriving DecidableEq, Repr

/-- The boundary-scan instructions of R500; `other` is any further opcode. -/
inductive JtagOp where
  | bypass | idcode | samplePreload | extest | clamp | highz | other
deriving DecidableEq, Repr

/-- Who reports a power island fault (R502): one core or a whole Loom die. -/
inductive Island where
  | core (g : CoreId)
  | die (d : Die)
deriving DecidableEq, Repr

/-- What a configuration request does (R338, R342, R345): a read, or a write of a setting the OZ40 uses: Bus Master Enable,
the BAR0 size (0 1 GiB, 1 2 GiB, 2 4 GiB), Device Control's Max_Payload_Size, Max_Read_Request_Size (as powers of two times
128 B) and Enable Relaxed Ordering, Device Control 2's completion timeout range and disable, ECRC generation and checking, the mask
and severity of AER's uncorrectable errors, and Message Control's MSI-X Enable and Function Mask. -/
inductive ConfigOp where
  | read
  | busMaster
  | barSize (log : Fin 3)
  | deviceControl (mps : Fin 3) (mrrs : Fin 6) (relaxed : Bool)
  | completionTimeout (range : BitVec 4) (off : Bool)
  | ecrc (generate check : Bool)
  | aer (mask severity : Word)
  | msixControl (enable mask : Bool)
deriving DecidableEq, Repr

end Sys2Proof
end

