-- ==== Sys2Proof/Syntax.lean ====
section
/-! DEFINITION. The commands and events of the block: one constructor per row of spec/opcode_table.json. The table gives
no operand fields and no bits; the operands are the model's own (log entry 1): which unit the event falls on, and the data
that comes from outside the package (a written value, payload bytes, a flit, a temperature). -/

namespace Sys2Proof

/-- One command of the block. -/
inductive Instr where
  /-- REGISTER_WRITE (R10). A host or SMBus write to a register with no row of its own: discarded if illegal in size, alignment, reserved or RWL-busy, else sets the field. -/
  | registerWrite (req : Requester) (addr : Word) (size : Nat) (val : Dword)
  /-- LOW_HALF_WRITE (R11). A 32-bit write of the low half of a 64-bit register stores the requester's pending low half and changes nothing else. -/
  | lowHalfWrite (req : Requester) (addr : Word) (val : Word)
  /-- HIGH_HALF_WRITE (R11). A 32-bit write of the high half of a 64-bit register writes all 64 bits, using and clearing the requester's pending low half if one is held. -/
  | highHalfWrite (req : Requester) (addr : Word) (val : Word)
  /-- SNAPSHOT_LATCH (R506). A write of bit 0 = 1 to the first register of a die snapshot group latches the group for that requester. -/
  | snapshotLatch (req : Requester) (grp : SnapGroup)
  /-- SNAPSHOT_RELEASE (R506). A write of bit 0 = 0 to the first register of a die snapshot group releases that requester's latch. -/
  | snapshotRelease (req : Requester) (grp : SnapGroup)
  /-- CORE_SNAPSHOT_LATCH (R523). A write of CORE_STEP with bit 0 = 1 latches the core's snapshot group and CORE_SNAP_PICK for that requester. -/
  | coreSnapshotLatch (req : Requester) (g : CoreId)
  /-- CORE_SNAPSHOT_RELEASE (R523). A write of CORE_STEP with bit 0 = 0 releases the requester's core snapshot latch. -/
  | coreSnapshotRelease (req : Requester) (g : CoreId)
  /-- BAR0_MEMORY_WRITE (R29). A host BAR0 write to a beam, card store or take-up is discarded and counted while the core runs a deck or it hits a system reserve, and otherwise takes effect. -/
  | bar0MemoryWrite (td : Td) (fn : Fn) (addr : Word) (bytes : List Byte)
  /-- BAR0_MEMORY_READ (R30). A host BAR0 read of beam, card store or take-up returns committed or live contents, is poisoned on parity error, or is held while a drain runs. -/
  | bar0MemoryRead (td : Td) (fn : Fn) (addr : Word) (len : Nat)
  /-- BAR0_READ_RELEASE (R30). A BAR0 read of a carry region held behind a fell buffer drain returns the newly committed contents when the drain ends. -/
  | bar0ReadRelease (g : CoreId)
  /-- SERVICE_SLOT_ACCESS (R27). In a core's service slot the mesh port serves one waiting service beat in the order Overseer, bolt and outbound copy, then host BAR0 access. -/
  | serviceSlotAccess (g : CoreId)
  /-- CONFIG_REQUEST (R340). A PCIe configuration request is answered with Retry Status until firmware verification and copy selection end, and normally afterwards. -/
  | configRequest (td : Td) (fn : Fn) (op : ConfigOp)
  /-- SPOOL_TAIL_DOORBELL (R347). A write to a spool's TAIL doorbell advances TAIL if the spool runs and the ring has room, else it is discarded and counted in DBERR. -/
  | spoolTailDoorbell (td : Td) (fn : Fn) (sp : SpoolId) (val : Word)
  /-- SPOOL_THEAD_DOORBELL (R347). A write to a spool's THEAD doorbell frees ticket slots if within DONE, else it is discarded and counted. -/
  | spoolTheadDoorbell (td : Td) (fn : Fn) (sp : SpoolId) (val : Word)
  /-- SPOOL_ENABLE (R350). A write of EN = 1 makes a stopped spool RUNNING with THEAD := DONE, or sets RESTART on a stopping spool. -/
  | spoolEnable (td : Td) (sp : SpoolId)
  /-- SPOOL_DISABLE (R350). A write of EN = 0 makes a running or halted spool STOPPING and ends its unstarted bolts with ABORTED tickets, or clears RESTART. -/
  | spoolDisable (td : Td) (sp : SpoolId)
  /-- SPOOL_HEAD_WRITE (R369). A write to TRD_SPOOL_HEAD of a stopped spool sets HEAD, TAIL and RELEASE together. -/
  | spoolHeadWrite (td : Td) (sp : SpoolId) (val : Word)
  /-- SPOOL_CFG_WRITE (R351). A write to TRD_SPOOL_CFG is discarded if SIZE or TSIZE is out of range or REPORT is set outside TD0, and otherwise configures the spool. -/
  | spoolCfgWrite (td : Td) (sp : SpoolId) (val : Word)
  /-- SPOOL_STOPPED (R350). When every fetched bolt of a stopping spool has its ticket, the spool becomes STOPPED, or RUNNING if RESTART is set. -/
  | spoolStopped (td : Td) (sp : SpoolId)
  /-- BOLT_FETCH (R348). While a spool runs and TAIL differs from HEAD, the Treadle die reads the header at HEAD. -/
  | boltFetch (td : Td) (sp : SpoolId)
  /-- BOLT_HEADER_ARRIVE (R352). A bolt header read completes: a bad SLOTS or failed read halts the spool, a short doorbell waits, else the bolt is fetched, duplicate-checked against HWM and checked. -/
  | boltHeaderArrive (td : Td) (sp : SpoolId) (hdr : Option (List Byte))
  /-- BOLT_START (R356). At its action pick, or on acceptance for FENCE, a bolt starts in spool order, completing PAST or OVERSIZE where its rules say. -/
  | boltStart (td : Td) (sp : SpoolId)
  /-- LAND_PAYLOAD_ARRIVE (R357). A payload read completion of a LAND bolt delivers bytes into the target core's fell buffer through the service slot, or ends the bolt HOST_ERROR on failure. -/
  | landPayloadArrive (td : Td) (sp : SpoolId) (payload : Option (List Byte))
  /-- OUT_COPY_BEAT (R358). An OUT bolt reads a beat of its carry range through the service slot and writes it to host memory, stopping with OUT_PARITY on a parity error. -/
  | outCopyBeat (td : Td) (sp : SpoolId)
  /-- FENCE_COMPLETE (R359). A FENCE completes OK once every earlier bolt of its spool has its ticket. -/
  | fenceComplete (td : Td) (sp : SpoolId)
  /-- TICKET_WRITE (R361). The Treadle die writes a completed bolt's ticket at index DONE with its PHASE once its data and tag are issued and the ring has room, and advances DONE. -/
  | ticketWrite (td : Td) (sp : SpoolId)
  /-- POISONED_WRITE (R367). A poisoned host write is discarded, reported under AER and logged. -/
  | poisonedWrite (td : Td) (fn : Fn)
  /-- PCIE_LINK_DOWN (R371). A PCIe link going down detaches its function. -/
  | pcieLinkDown (td : Td) (fn : Fn)
  /-- PCIE_FUNDAMENTAL_RESET (R341). PERSTn_N resets the port's functions, configuration and spool settings and detaches them, leaving cores, picks and indices unchanged. -/
  | pcieFundamentalReset (td : Td)
  /-- HOT_RESET (R341). A hot reset resets and detaches the functions of the port. -/
  | hotReset (td : Td) (fn : Fn)
  /-- LINK_DISABLE (R341). A link disable resets and detaches the functions of the port. -/
  | linkDisable (td : Td) (fn : Fn)
  /-- FUNCTION_LEVEL_RESET (R341). A Function Level Reset resets and detaches that function. -/
  | functionLevelReset (td : Td) (fn : Fn)
  /-- BUS_MASTER_CLEAR (R371). A write clearing Bus Master Enable while a spool of the function is not STOPPED detaches the function. -/
  | busMasterClear (td : Td) (fn : Fn)
  /-- TALLY_ARM (R465). A GO write to a Treadle Tally channel arms it, comparing at once if COUNT already equals UPTO. -/
  | tallyArm (td : Td) (n : TallyNo)
  /-- TALLY_STREAM_RESET (R465). A RESET write to a Treadle Tally channel restarts its CRC stream and bolt count. -/
  | tallyStreamReset (td : Td) (n : TallyNo)
  /-- WEFT_TICK (R45). Each 1 ns of the weft PLL advances the weft counter by 1. -/
  | weftTick
  /-- WEFT_REF_LOST (R48). After 200 ns without a WEFT_REF edge the Heddle die sets REF_LOST, logs and runs the counter in holdover. -/
  | weftRefLost
  /-- WEFT_REF_RETURN (R48). When WEFT_REF returns the weft PLL relocks without stepping the counter and slews away the error. -/
  | weftRefReturn (err : Int)
  /-- WEFT_SET_WRITE (R47). A high-half write of HDL_WEFT_SET loads the weft counter if not smaller, else is discarded with SET_BACK. -/
  | weftSetWrite (req : Requester) (hi : Word)
  /-- PICK_RUN (R509). A write of RUN = 1 is tested against every condition of Table 16.5, setting each matching flag and discarding, or starts pick generation. -/
  | pickRun
  /-- PICK_STOP (R54). A write of RUN = 0 lets the current pick end with its fell or drop and starts no further pick. -/
  | pickStop
  /-- PICK_PERIOD_WRITE (R50). A write of HDL_PICK_PERIOD sets P unless 0 or 1, and the budget is recomputed. -/
  | pickPeriodWrite (val : Word)
  /-- PICK_RESERVE_WRITE (R57). A write of HDL_PICK_RESERVE is discarded below the minimum reserve or if B would fall below 1, else sets the reserve and recomputes the budget. -/
  | pickReserveWrite (val : Word)
  /-- CLK_CFG_WRITE (R492). A write of HDL_CLK_CFG is discarded for an undefined frequency, deferred in DOZE, or applied by voltage change then PLL relock. -/
  | clkCfgWrite (val : Word)
  /-- CLOCK_CHANGE_DONE (R492). When every core PLL has relocked the clock change completes and RUN is no longer refused with NO_LOCK. -/
  | clockChangeDone
  /-- PICK_START (R51). At each pick start instant the Heddle die starts the pick in every core, increments the pick number and epoch, and the profile restarts. -/
  | pickStart
  /-- PICK_START_ACK_TIMEOUT (R448). A core that has not acknowledged a pick start within 256 clk is halted by the Overseer with code 0x83. -/
  | pickStartAckTimeout (g : CoreId)
  /-- FELL_WINDOW_OPEN (R528). At W ns before the pick's end card issue stops, and late voters, late bolts and unfinished copies and Tally passes are judged. -/
  | fellWindowOpen
  /-- LEDGER_CHECK_DONE (R307). When every voter is done the Overseer checks the ledgers within 32 clk and sends READY with X, or LATE with LEDGER_MISMATCH. -/
  | ledgerCheckDone
  /-- DECISION_DEADLINE (R80). At D after the fell window opens the root decides DROP for a missing vote, and a package that sent READY without a decision becomes unresolved. -/
  | decisionDeadline
  /-- READY_RECORD (R412). A READY control record from a child is combined and forwarded upward, or counted by the root, which decides COMMIT once every package is present. -/
  | readyRecord (p : PortId)
  /-- LATE_RECORD (R413). A LATE record is forwarded upward, or makes the root decide DROP with the lowest cause. -/
  | lateRecord (p : PortId)
  /-- DECISION_RECORD (R414). A DECISION record is forwarded to children and applied as commit or drop unless the package already dropped. -/
  | decisionRecord (p : PortId)
  /-- DRAIN_END (R83). A core's fell buffer drain ends after n + 16 clk, releasing held carry reads and reaching its selection point. -/
  | drainEnd (g : CoreId)
  /-- SQUASH_END (R86). A core's squash ends and the core reaches its selection point. -/
  | squashEnd (g : CoreId)
  /-- FELL_RESOLVE (R96). A write of HDL_FELL_RESOLVE with matching identity and outcome COMMIT or DROP applies that outcome to an unresolved fell, else is discarded. -/
  | fellResolve (val : Dword)
  /-- STAGED_WRITE_ARRIVE (R72). A staged write line reaches the fell buffer and is staged, or discarded with a drop for carry conflict or a full slice. -/
  | stagedWriteArrive (g : CoreId)
  /-- CARD_FETCH (R99). The front end fetches one card per clk, halting with 0x12 on parity error or 0x07 past the variant. -/
  | cardFetch (g : CoreId)
  /-- CARD_DECODE (R122). A fetched card finishes decode and address generation, pushing its slot entries into the engine queues or halting on the first illegal instance. -/
  | cardDecode (g : CoreId)
  /-- ISSUE (R110). An ISSUE card issues all its occupied slots in one clk at max of its scheduled distance and the release of every interlock. -/
  | issue (g : CoreId)
  /-- LOOP (R114). A LOOP card is consumed at decode and makes the front end repeat its body COUNT times. -/
  | loop (g : CoreId)
  /-- ENDPICK (R112). An ENDPICK retires when every earlier instance of the pick has retired, making the core done. -/
  | endpick (g : CoreId)
  /-- CARD_RETIRE (R112). A card instance retires when every command it issued has written or staged its last byte or been performed. -/
  | cardRetire (g : CoreId)
  /-- SHED_SELECT (R123). At its selection point the card sequencer reads the selector word to choose the next variant, halting 0x10 on a shed selector or invalid entry. -/
  | shedSelect (g : CoreId)
  /-- SELECTOR_READ_DONE (R129). The 4-clk selector read completes and the selected variant is compared with the prediction. -/
  | selectorReadDone (g : CoreId)
  /-- UNDO_CANCEL_ACK (R130). A source core's cancel acknowledgement arrives; when the last has arrived the undo ends and the selected variant's prologue starts. -/
  | undoCancelAck (g : CoreId) (src : CoreId)
  /-- PROLOGUE_START (R127). In the clk after READY, or at the fell window if READY came earlier, the speculative prologue of the predicted variant starts. -/
  | prologueStart (g : CoreId)
  /-- CAPTURE_HIT (R277). After the captured step's instance and all issued commands retire and the store buffer drains, HIT sets and the core stays captured. -/
  | captureHit (g : CoreId)
  /-- BEAM_READ (R145). A granted or forwarded beam read delivers its line to the port and checks parity on the words it uses. -/
  | beamRead (g : CoreId) (port : Fin 15) (off : BitVec 23) (mask : Dword)
  /-- STORE_BUFFER_DRAIN (R154). A store buffer entry granted its bank is written, or merge-read then written for a partial word, keeping inverted parity on a corrupt word. -/
  | storeBufferDrain (g : CoreId) (bank : Fin 32)
  /-- PAR_INJECT_ARM (R166). A CORE_PAR_INJECT write with ARM = 1 arms a parity fault on a beam word, replacing any armed offset. -/
  | parInjectArm (g : CoreId) (off : BitVec 23)
  /-- PAR_INJECT_DISARM (R525). A CORE_PAR_INJECT write with ARM = 0 disarms the fault. -/
  | parInjectDisarm (g : CoreId)
  /-- CARRY_MAP_WRITE (R314). A write of CORE_CARRY_MAPn of an idle core sets the map and refreshes the copies of every core of the package that runs no deck. -/
  | carryMapWrite (g : CoreId) (m : Fin 4) (val : Word)
  /-- WV_PASS (R187). A weave pass is accepted when no pass is pending, wakes the array if gated, loads its set behind the weight front and accumulates M vectors into take-up. -/
  | wvPass (g : CoreId)
  /-- WV_DRAIN (R193). A weave drain converts take-up rows to the destination format and writes them through TU_OUT, optionally zeroing them. -/
  | wvDrain (g : CoreId)
  /-- ARRAY_GATE_GROUP (R194). After GATE idle clk, and every S clk thereafter, the weave array gates its next row group from 15 down to 0. -/
  | arrayGateGroup (g : CoreId)
  /-- ARRAY_UNGATE_GROUP (R195). Every S clk during a wake the weave array ungates its next gated row group in ascending order. -/
  | arrayUngateGroup (g : CoreId)
  /-- BT_ADD (R214). Batten elementwise A + B. -/
  | btAdd (g : CoreId)
  /-- BT_SUB (R214). Batten elementwise A − B. -/
  | btSub (g : CoreId)
  /-- BT_MUL (R214). Batten elementwise A × B. -/
  | btMul (g : CoreId)
  /-- BT_FMA (R214). Batten elementwise A × B + K with one rounding. -/
  | btFma (g : CoreId)
  /-- BT_AXPY (R214). Batten elementwise A × K + B with one rounding. -/
  | btAxpy (g : CoreId)
  /-- BT_MAX (R214). Batten elementwise larger of A and B. -/
  | btMax (g : CoreId)
  /-- BT_MIN (R214). Batten elementwise smaller of A and B. -/
  | btMin (g : CoreId)
  /-- BT_ABS (R215). Batten elementwise absolute value of A. -/
  | btAbs (g : CoreId)
  /-- BT_NEG (R215). Batten elementwise negation of A. -/
  | btNeg (g : CoreId)
  /-- BT_RELU (R214). Batten elementwise maximum of A and +0. -/
  | btRelu (g : CoreId)
  /-- BT_CVT (R216). Batten conversion of A to the destination format. -/
  | btCvt (g : CoreId)
  /-- BT_CLAMP (R214). Batten clamp of A between constants KSEL and KSEL + 1. -/
  | btClamp (g : CoreId)
  /-- BT_CMPGT (R216). Batten elementwise 1 if A > B, else 0. -/
  | btCmpgt (g : CoreId)
  /-- BT_AND (R215). Batten bitwise and. -/
  | btAnd (g : CoreId)
  /-- BT_OR (R215). Batten bitwise or. -/
  | btOr (g : CoreId)
  /-- BT_XOR (R215). Batten bitwise xor. -/
  | btXor (g : CoreId)
  /-- BT_SHL (R215). Batten shift left of A by B mod 32. -/
  | btShl (g : CoreId)
  /-- BT_SHRA (R215). Batten arithmetic shift right of A by B mod 32. -/
  | btShra (g : CoreId)
  /-- RD_SUM (R217). Reed fixed-tree sum of each row. -/
  | rdSum (g : CoreId)
  /-- RD_SUMSQ (R217). Reed fixed-tree sum of squares of each row. -/
  | rdSumsq (g : CoreId)
  /-- RD_MAX (R217). Reed largest element of each row. -/
  | rdMax (g : CoreId)
  /-- RD_MIN (R217). Reed smallest element of each row. -/
  | rdMin (g : CoreId)
  /-- RD_MEAN (R217). Reed row sum divided by n, correctly rounded. -/
  | rdMean (g : CoreId)
  /-- RD_ARGMAX (R217). Reed index of the first NaN or first maximum of each row. -/
  | rdArgmax (g : CoreId)
  /-- RD_LNORM (R221). Reed layer normalisation of each row. -/
  | rdLnorm (g : CoreId)
  /-- RD_RMSNORM (R221). Reed root-mean-square normalisation of each row. -/
  | rdRmsnorm (g : CoreId)
  /-- RD_SOFTMAX (R221). Reed softmax along dimension 0 of each row. -/
  | rdSoftmax (g : CoreId)
  /-- RD_MXQ (R223). Reed MX quantisation of each 32-element block into elements and an E8M0 scale. -/
  | rdMxq (g : CoreId)
  /-- RD_FUNC (R220). Reed correctly rounded elementwise function selected by FUNC. -/
  | rdFunc (g : CoreId)
  /-- HL_COPY (R206). Heald copy of source element p to destination element p. -/
  | hlCopy (g : CoreId)
  /-- HL_TRANSPOSE (R229). Heald transpose of one tile. -/
  | hlTranspose (g : CoreId)
  /-- HL_GATHER (R226). Heald gather of table rows by index, writing zeros for out-of-range indices. -/
  | hlGather (g : CoreId)
  /-- HL_SCATTER (R227). Heald scatter of source rows to table rows by index, last index winning and out-of-range skipped. -/
  | hlScatter (g : CoreId)
  /-- CD_VOXEL (R239). Carder voxelisation of a point list into a site table, site list and site features. -/
  | cdVoxel (g : CoreId)
  /-- CD_RULES (R243). Carder construction of a layer's site set, dilated or suppressed, and its neighbour map. -/
  | cdRules (g : CoreId)
  /-- CD_GATHER (R245). Carder gather of neighbour feature rows side by side per map row. -/
  | cdGather (g : CoreId)
  /-- CD_BEV (R246). Carder projection of site features onto a bird's-eye map by maximum or sum. -/
  | cdBev (g : CoreId)
  /-- KNOT_ADD (R284). A KNOT_ADD issues as a fenced increment of a knot of a core of the package. -/
  | knotAdd (g : CoreId)
  /-- KNOT_ADD_SEND (R284). Once its fence's acknowledgements have arrived and earlier sync commands are performed, a KNOT_ADD is sent toward its knot. -/
  | knotAddSend (g : CoreId)
  /-- KNOT_SIGNAL_ARRIVE (R286). A knot signal reaches a core and is applied, queued in the knot landing queue, held at its source, or discarded as stale. -/
  | knotSignalArrive (g : CoreId)
  /-- KNOT_WAIT (R289). A KNOT_WAIT issues when its modular condition holds and advances the wait cursor by VALUE. -/
  | knotWait (g : CoreId)
  /-- WRITE_ACK_ARRIVE (R283). An acknowledgement of a direct or staged write or a message push reaches the issuing core on the mesh control lane. -/
  | writeAckArrive (g : CoreId)
  /-- CHAN_SEND (R297). A CHAN_SEND issues when its send-end holds a credit and consumes the credit of its lowest slot. -/
  | chanSend (g : CoreId)
  /-- CHAN_SEND_PERFORM (R297). The sync unit performs a CHAN_SEND by reading the message through SH_R and sending it to the receive-end. -/
  | chanSendPerform (g : CoreId)
  /-- MESSAGE_ARRIVE (R295). A channel message reaches a receive-end and is pushed into its slot, or discarded if from an unlisted sender or wrong position. -/
  | messageArrive (g : CoreId)
  /-- MESSAGE_ACK_ARRIVE (R297). The push acknowledgement of a message reaches the sender and the CHAN_SEND retires. -/
  | messageAckArrive (g : CoreId)
  /-- CHAN_RECV (R298). A CHAN_RECV issues when its receive-end depth is at least 1, pops the head slot and returns its credit. -/
  | chanRecv (g : CoreId)
  /-- CHAN_RECV_PERFORM (R298). The sync unit performs a CHAN_RECV by writing the message into the landing range, counting a size mismatch. -/
  | chanRecvPerform (g : CoreId)
  /-- CREDIT_ARRIVE (R296). A channel credit reaches its send-end, usable from the next clk. -/
  | creditArrive (g : CoreId)
  /-- MARK (R459). A MARK logs its TAG in the event log, including in a re-run. -/
  | mark (g : CoreId)
  /-- SH_COPY (R317). A shuttle copy takes a tracker entry and moves a source byte stream to a destination, optionally gated and signalled. -/
  | shCopy (g : CoreId)
  /-- SH_RELAY (R329). A shuttle relay moves a source through a ring in chunks in two legs with implicit hand-over. -/
  | shRelay (g : CoreId)
  /-- SH_CANCEL (R326). A shuttle cancel cancels every pending gated transfer of the masked shuttles, advancing their gate cursors. -/
  | shCancel (g : CoreId)
  /-- GATE_READY (R324). A pending gated transfer becomes ready when its gate condition holds with no earlier gate pending, advancing the cursor by GVAL. -/
  | gateReady (g : CoreId) (e : Entry)
  /-- TRANSFER_START (R317). A transfer starts after its issue or readiness and after the previous transfer of its shuttle started. -/
  | transferStart (g : CoreId) (e : Entry)
  /-- TRANSFER_TIMEOUT (R332). A remote transfer whose response is still missing US µs after its first request left times out. -/
  | transferTimeout (g : CoreId) (e : Entry)
  /-- MESH_BEAT_SEND (R323). In each slot of a class the mesh port sends one beat of the earliest-started transfer with a beat ready. -/
  | meshBeatSend (g : CoreId) (cls : SlotClass)
  /-- MESH_BEAT_LAND (R28). A beat reaching a core's mesh port lands in its slot, waits in its class's landing queue, is held at the previous router, or is discarded for an invalid shadow tag or capture. -/
  | meshBeatLand (g : CoreId) (cls : SlotClass)
  /-- PORT_ENABLE (R380). A write of EN = 1 moves a disabled VXF port to DETECT. -/
  | portEnable (p : PortId) (val : Word)
  /-- PORT_DISABLE (R380). A write of EN = 0 moves a VXF port to DISABLED from any state and clears ATTEMPTS. -/
  | portDisable (p : PortId) (val : Word)
  /-- PORT_RESET (R380). A write of RESET moves a faulted port to DETECT, clearing ATTEMPTS and FCAUSE. -/
  | portReset (p : PortId) (val : Word)
  /-- PORT_CRED_WRITE (R393). A write of SLV_PORTk_CRED outside 16–496 per channel or above 512 in sum is discarded. -/
  | portCredWrite (p : PortId) (val : Word)
  /-- DETECT_ROUND (R378). Every 100 ms in DETECT a port begins a detection round listening for signal energy. -/
  | detectRound (p : PortId)
  /-- DETECT_ROUND_END (R378). A detection round that finds no signal within 1 ms ends and the port waits for the next round. -/
  | detectRoundEnd (p : PortId)
  /-- SIGNAL_DETECT (R379). Signal found in a round begins an attempt, counting ATTEMPTS, and the port enters TRAIN. -/
  | signalDetect (p : PortId)
  /-- TRAIN_DONE (R379). Link training completes and the port enters ALIGN. -/
  | trainDone (p : PortId)
  /-- ALIGN_DONE (R379). FEC, alignment-marker and flit lock complete and the port enters MEASURE. -/
  | alignDone (p : PortId)
  /-- MEASURE_DONE (R382). Latency measurement completes and the link takes its class and PAD, entering ACTIVE, or FAULT with LATENCY above 800 ns. -/
  | measureDone (p : PortId) (partnerMeas : BitVec 16) (partnerMin : BitVec 3)
  /-- ATTEMPT_TIMEOUT (R379). An attempt exceeding 500 ms or a stage limit fails and returns to DETECT, or enters FAULT with TRAIN_LIMIT at the sixteenth failure. -/
  | attemptTimeout (p : PortId)
  /-- LOCK_LOST (R381). FEC or alignment lock lost for 1 µs takes an ACTIVE port down. -/
  | lockLost (p : PortId)
  /-- SIGNAL_LOST (R381). All four receive lanes losing signal for 1 µs takes an ACTIVE port down. -/
  | signalLost (p : PortId)
  /-- FLIT_SEND (R386). In each 5.12 ns flit slot a port sends a CTRL, DATA or NULL flit carrying ACK, any NAK and pending credits. -/
  | flitSend (p : PortId)
  /-- FLIT_RECEIVE (R387). A received flit is accepted in order, discarded as duplicate or after a loss, triggering NAK, freeing the replay buffer and returning credits. -/
  | flitReceive (p : PortId) (flit : List Byte)
  /-- REPLAY_TIMEOUT (R389). When the oldest unacknowledged flit has waited 2 µs the transmitter starts a replay. -/
  | replayTimeout (p : PortId)
  /-- WRITE_PACKET (R397). A WRITE packet is forwarded in transit, or delivered through SH_W with WRITE_ACK, or refused or discarded as stale. -/
  | writePacket (p : PortId)
  /-- READ_REQ (R397). A READ_REQ packet is forwarded, or read through SH_R and answered with READ_DATA, or refused or discarded. -/
  | readReq (p : PortId)
  /-- SIGNAL_PACKET (R397). A SIGNAL packet is forwarded, or applied to the named knot and answered with SIGNAL_ACK, or refused or discarded. -/
  | signalPacket (p : PortId)
  /-- READ_DATA (R312). A READ_DATA response reaches the issuing core and its lines are written, or it is discarded for a stale tag. -/
  | readData (p : PortId)
  /-- WRITE_ACK (R398). A WRITE_ACK response reaches the issuing shuttle, or is discarded for a stale tag. -/
  | writeAck (p : PortId)
  /-- SIGNAL_ACK (R398). A SIGNAL_ACK response retires the remote transfer that sent the signal. -/
  | signalAck (p : PortId)
  /-- REFUSED (R333). A REFUSED response makes the shuttle abandon its transfer. -/
  | refused (p : PortId)
  /-- MALFORMED_PACKET (R396). A malformed packet header makes the Selvedge die discard the rest of that virtual channel and take the port down with BAD_PACKET. -/
  | malformedPacket (p : PortId) (vc : Fin 2)
  /-- TIME_RECORD_SEND (R407). Every 65,536 ns an ACTIVE port sends a TIME record with the sender's weft counter. -/
  | timeRecordSend (p : PortId)
  /-- TIME_RECORD (R408). A TIME record arriving through UP yields an offset that sets lock state and drives slewing. -/
  | timeRecord (p : PortId)
  /-- TIME_HOLDOVER (R409). After 200 µs without a TIME record from UP the Heddle die sets HOLD and runs on its own reference. -/
  | timeHoldover
  /-- PROBE_RECORD (R382). A latency probe in MEASURE is echoed after a fixed turnaround. -/
  | probeRecord (p : PortId)
  /-- ECHO_RECORD (R382). A probe echo yields a round-trip sample for the port's MEAS. -/
  | echoRecord (p : PortId) (rtt : BitVec 16)
  /-- BARRIER_CFG_WRITE (R511). A write of HDL_BARRIER_CFG with ARM = 1 arms the barrier and clears FIRED, REFUSED and EARLY. -/
  | barrierCfgWrite (val : Word)
  /-- BARRIER_GO (R416). A write of HDL_BARRIER_GO in an armed root sends a BARRIER record with T and the remaining delay, else is discarded. -/
  | barrierGo (val : Word)
  /-- BARRIER_RECORD (R417). A BARRIER record is forwarded to children with the hop subtracted, firing at once with EARLY if the delay is negative. -/
  | barrierRecord (p : PortId)
  /-- BARRIER_FIRE (R417). When the remaining delay elapses an armed package loads T and starts picks, or refuses if T is not ahead. -/
  | barrierFire
  /-- ROUTE_DOWN_CLEAR (R403). A write of 1 to a route entry's DOWN clears it only while its port is ACTIVE and no core runs a deck. -/
  | routeDownClear (sd : Sd) (pkg : BitVec 10)
  /-- FAB_HOPS_WRITE (R406). A write of HDL_FAB_HOPS is discarded if it would place the timeout below its minimum. -/
  | fabHopsWrite (val : Word)
  /-- SH_TIMEOUT_WRITE (R331). A write of HDL_SH_TIMEOUT of 0 or below 40 × MAX + 10 µs is discarded. -/
  | shTimeoutWrite (val : Word)
  /-- PROG_START (R433). A write of START arms the program, or is refused with the cause in REFUSE. -/
  | progStart
  /-- PROG_STOP (R435). A write of STOP disarms an armed program or stops a running one after its current pick, winning over START in the same write. -/
  | progStop
  /-- PROG_MAP_WRITE (R431). A write of HDL_PROG_MAPn sets its bits except those naming fused-off or powered-down cores. -/
  | progMapWrite (m : Fin 8) (val : Word)
  /-- KPAIR_WRITE (R308). A write of an HDL_KPAIR entry naming a fused-off or powered-down core is discarded. -/
  | kpairWrite (n : BitVec 8) (val : Dword)
  /-- DIGEST_START (R271). A write of TPL_DIGEST_CTRL.START starts the deck and carry digests unless busy or a core runs a deck. -/
  | digestStart
  /-- DIGEST_DONE (R271). The deck and carry digests complete and BUSY clears. -/
  | digestDone
  /-- BOLT_DIGEST_DONE (R273). Within 24 clk after a bolt's last byte lands its digest completes and is folded into the package's X. -/
  | boltDigestDone (td : Td) (sp : SpoolId) (seq : Dword)
  /-- HISTORY_APPEND (R274). Within 1 µs after an outcome is applied the Temple die appends the pick's record to the history digest H. -/
  | historyAppend
  /-- PROVENANCE_TAG_DONE (R276). The Temple die completes the tag of an outbound copy, letting its ticket be written. -/
  | provenanceTagDone (td : Td) (sp : SpoolId) (seq : Dword)
  /-- FLASH_READ (R441). A flash READ fills TPL_FLASH_BUF from ADDR with LEN bytes. -/
  | flashRead
  /-- FLASH_PROGRAM (R441). A flash PROGRAM writes LEN bytes to ADDR, refused on the selected copy, a page crossing, a bad length or during shutdown. -/
  | flashProgram
  /-- FLASH_ERASE (R441). A flash ERASE erases a 64 KiB block, refused on the selected copy, a misaligned address or during shutdown. -/
  | flashErase
  /-- FLASH_OP_DONE (R441). A flash operation completes, clearing BUSY and setting ERR if the flash reports failure. -/
  | flashOpDone (fail : Bool)
  /-- REBOOT (R443). A write of REBOOT performs power-down and power-on without removing VDD_AUX, discarded while picks run. -/
  | reboot
  /-- OVERSEER_COMPARE (R446). In each Overseer cycle the comparator compares the delayed OA bundle with OB and checks delay parity, releasing outputs only when equal. -/
  | overseerCompare (oa ob : BitVec 256) (delayBad : Option Byte)
  /-- RESYNC_END (R450). The Overseer resync ends within 1,000 ns, or enters SAFE on checkpoint parity failure, and resumes at the next pick start. -/
  | resyncEnd (checkpointBad : Bool)
  /-- COMPARATOR_SELFTEST (R453). At every millisecond the self-test inverts one bundle bit and passes, or reports COMPARATOR_STUCK or SUPERVISOR_DIVERGE. -/
  | comparatorSelftest (reported : BitVec 256)
  /-- OVS_HALT (R448). A write of HDL_OVS_HALT with GO halts a running core with code 0x80 within 1 µs. -/
  | ovsHalt (val : Word)
  /-- OVERSEER_RESERVE_READ (R469). An Overseer read of a system reserve word that fails parity logs RESERVE_PARITY and rewrites the area. -/
  | overseerReserveRead (g : CoreId) (off : BitVec 16)
  /-- LOG_QUEUE_ENTER (R456). At the end of each ns a die enters that ns's events into its 32-entry log queue in SRC then CODE order, counting overflow in LOG_LOST. -/
  | logQueueEnter (d : LogDie)
  /-- LOG_ENTRY_WRITE (R456). At most once per 16 ns the log writer takes the oldest queued event and writes its entry, raising LOG_SEQ and LOG_OVF. -/
  | logEntryWrite (d : LogDie)
  /-- ERROR_STATUS_SET (R458). After an entry is readable HDL_ERR_STATUS sets its class and ALARM bits and raises the error interrupt if enabled or an alarm. -/
  | errorStatusSet
  /-- TALLY_PASS_GO (R464). A GO write to a Loom ONCE Tally channel starts one pass now or at the next pick start, refused with BADRANGE on a non-carry range. -/
  | tallyPassGo (d : Die) (n : TallyNo)
  /-- TALLY_PASS_DONE (R464). A Tally pass completes, writes VALUE, raises COUNT and compares with EXPECT, logging a mismatch. -/
  | tallyPassDone (d : Die) (n : TallyNo)
  /-- POWER_REQUEST (R475). A write of HDL_PWR_REQ requests a power state, refused by policy, SAFE or running picks, queued as PENDING_UP, or carried out. -/
  | powerRequest (td : Td) (val : Word)
  /-- POWER_TRANSITION_DONE (R474). A one-step power state transition completes and is logged as POWER_STATE. -/
  | powerTransitionDone
  /-- VDD_AUX_RISE (R478). The rise of VDD_AUX begins a cold power-on that resets everything including AUX retention. -/
  | vddAuxRise
  /-- RESET_N_ASSERT (R478). RESET_N low resets the whole OZ40. -/
  | resetNAssert
  /-- RESET_N_RELEASE (R478). The release of RESET_N begins a cold power-on. -/
  | resetNRelease
  /-- POWER_ON (R479). Once RESET_N is high, VDD_AUX good 1 ms and PWR_FAIL_N high 20 ms, the Heddle die starts the power-on sequence. -/
  | powerOn
  /-- POWER_ON_STEP_DONE (R479). A power-on step ends on its power-good, AVS acknowledgement or completion, starting the next step or entering HOLD or SLUMBER. -/
  | powerOnStepDone
  /-- POWER_GOOD_TIMEOUT (R479). A power-good input not asserted within 10 ms refuses the power-on with PG and takes the rails down to SLUMBER. -/
  | powerGoodTimeout
  /-- PWR_FAIL_FALL (R480). A filtered fall of PWR_FAIL_N logs SUPPLY_FAIL and starts a shutdown to OFF, or begins Phase B early. -/
  | pwrFailFall
  /-- PWR_FAIL_RISE (R483). A rise of PWR_FAIL_N starts the 2 ms supply-return and 20 ms restart timings. -/
  | pwrFailRise
  /-- SUPPLY_RETURN_TIMEOUT (R483). PWR_FAIL_N high for 2 ms before Phase B aborts the shutdown, ending in HOLD with cause 7. -/
  | supplyReturnTimeout
  /-- PHASE_A_DONE (R481). Phase A completes when the pick has ended, bolts are aborted and tickets issued, and Phase B begins if the supply is still failing or a target is set. -/
  | phaseADone
  /-- PHASE_B_STEP (R482). A Phase B step ends when its power-good deasserts or after 1 ms, and the next rail is taken down until the target state is reached. -/
  | phaseBStep
  /-- AVS_ACK (R472). An AVSBus voltage request is acknowledged and the dependent frequency change or power-on step proceeds. -/
  | avsAck (j : Fin 16)
  /-- AVS_TIMEOUT (R472). An unacknowledged AVSBus request is repeated once, then logged and handled under R473 as a refused raise or completed lowering. -/
  | avsTimeout (j : Fin 16)
  /-- AVS_TELEMETRY (R496). Every 100 µs the Heddle die reads regulator currents, forms a power sample and requests HOLD on sustained overpower. -/
  | avsTelemetry (coreWatts : Nat)
  /-- THERMAL_REPORT (R497). A die temperature report sets THERM near the trip and requests OFF at THERM_C. -/
  | thermalReport (d : LogDie) (temp : BitVec 16)
  /-- DIE_POWER_WRITE (R487). A write of HDL_PWR_DIE powers dies up or down, refused by PROGRAM or PICKS, or queued while a die powers down. -/
  | diePowerWrite (val : Dword)
  /-- DIE_POWER_DONE (R487). A die finishes powering down or up, its cores becoming absent or resetting. -/
  | diePowerDone (d : Fin 36)
  /-- ISLAND_FAULT (R502). A power island fault halts its cores with 0x82 and logs ISLAND_FAULT. -/
  | islandFault (who : Island) (kind : BitVec 3)
  /-- WAKE_N_LOW (R489). WAKE_N low for 1 µs in OFF or SLUMBER requests HOLD if enabled. -/
  | wakeNLow
  /-- PERST_RISE (R489). A rising edge of PERST0_N or PERST1_N in OFF or SLUMBER requests HOLD if enabled. -/
  | perstRise (td : Td)
  /-- GPIO0_EDGE (R489). An edge of GPIO0 of the configured polarity in OFF or SLUMBER requests HOLD if enabled. -/
  | gpio0Edge (rising : Bool)
  /-- SMBUS_ADDRESS_MATCH (R491). In OFF the wake logic ACKs its SMBus address, NACKs the next byte and wakes the package. -/
  | smbusAddressMatch
  /-- SMB_STATE (R491). SMBus Read Word STATE returns HDL_PWR_STATE[15:0]. -/
  | smbState
  /-- SMB_REQ (R491). SMBus Write Byte REQ requests a power state as requester SMB, discarded on PEC failure or an undefined target. -/
  | smbReq (val : Byte) (pecOk : Bool)
  /-- SMB_REFUSAL (R491). SMBus Block Read REFUSAL returns HDL_PWR_LAST. -/
  | smbRefusal
  /-- SMB_TEMP (R491). SMBus Read Word TEMP returns the hottest die temperature. -/
  | smbTemp
  /-- SMB_POWER (R491). SMBus Read Word POWER returns the average package power. -/
  | smbPower
  /-- SMB_ALERT_READ (R491). SMBus Read Byte ALERT returns the alert bits. -/
  | smbAlertRead
  /-- SMB_ALERT_CLEAR (R491). SMBus Write Byte ALERT clears the alert bits written as 1. -/
  | smbAlertClear (val : Byte) (pecOk : Bool)
  /-- SMB_LOGSEQ (R491). SMBus Block Read LOGSEQ returns HDL_LOG_SEQ. -/
  | smbLogseq
  /-- PWR_LIMIT_WRITE (R496). A write of HDL_PWR_LIMIT with W outside 100–1,650 is discarded. -/
  | pwrLimitWrite (val : Word)
  /-- AVS_TMO_WRITE (R472). A write of HDL_AVS_TMO outside 50–5,000 is discarded. -/
  | avsTmoWrite (val : Word)
  /-- PAD_SLEW_WRITE (R498). A write of HDL_PAD_SLEW sets each edge class except fields written 0b11, which keep their value. -/
  | padSlewWrite (val : Word)
  /-- JTAG_INSTRUCTION (R500). A TAP instruction load selects a boundary-scan instruction, BYPASS for other opcodes or while picks run. -/
  | jtagInstruction (op : JtagOp)
  /-- COMPLETION_TIMEOUT (R348). A PCIe completion timeout on a bolt header read halts the spool with HCAUSE FETCH, and on a payload read ends the LAND bolt with HOST_ERROR so its landing pick becomes late. -/
  | completionTimeout (td : Td) (sp : SpoolId) (payload : Bool)
  /-- PCIE_LINK_UP (R340). A host port link finishes training after PERSTn_N is released or a reset or disable ends, and its functions begin to answer configuration requests. -/
  | pcieLinkUp (td : Td) (fn : Fn) (rate : Fin 3) (width : BitVec 5)
  /-- TRST_N_ASSERT (R500). TRST_N low holds the JTAG TAP in Test-Logic-Reset. -/
  | trstNAssert
  /-- TALLY_CFG_WRITE (R465). A write of CFG of a Treadle Tally channel restarts its CRC stream and bolt count. -/
  | tallyCfgWrite (td : Td) (n : TallyNo) (val : Word)
deriving DecidableEq, Repr

end Sys2Proof
end

