-- ==== Sys2Proof/Decode.lean ====
section
/-! DEFINITION. The decoder the host asks for: no row of spec/opcode_table.json gives bits, so no word spells a command.
The card words a core decodes are read in Machine/Front.lean. -/

namespace Sys2Proof

/-- The command a table word spells: none, the table gives no row any bits. -/
def decodeTableWord (_nbits _w : Nat) : Option Instr := none

end Sys2Proof
end

