-- ==== Sys2Proof/Config.lean ====
section
/-! DEFINITION. What an implementation fixes and the free values: constants with no body where the spec gives no value
(02_picks R67, 05 R176: undefined bytes; 11 R339, 15 R500: identities assigned by others), and the fixed timing constants
the spec states. No proof can see the value of an opaque constant. -/

namespace Sys2Proof.Config

/-- The byte an undefined beam or take-up location reads as (R67, R176, Table 2.1): a free value, by the generation of
the pick start that made it undefined and its device address (log entry 3). -/
opaque undefByte : Nat → Nat → BitVec 8

/-- The contents of the system reserve that firmware and the bank test leave (R468, R469: not specified), by device
address (log entry 3). -/
opaque reserveByte : Nat → BitVec 8

/-- The Vendor ID that PCI-SIG assigns to Cleiq (R339, log entry 10). -/
opaque vendorId : BitVec 16

/-- Cleiq's JEP106 code, bits 11:1 of IDCODE (R500, log entry 10). -/
opaque jep106 : BitVec 11

/-- The fixed turnaround of a latency probe in units of 1/16 ns (R382 gives no value, log entry 11). -/
opaque probeTurnaround : Nat

/-- A free value of 64 bits by the model's counter State.free: for results the spec states no value for
(log entry 3). -/
opaque freeValue : Nat → BitVec 64

/-- A free digest by the model's counter State.free: H_s of a source pick that has no record (R275, log entry 3). -/
opaque freeDigest : Nat → BitVec 256

/-- Capacity of the run-ahead window (R119). -/
abbrev windowCap : Nat := 512
/-- Entries of each engine command queue (R119). -/
abbrev queueCap : Nat := 256
/-- Unretired writing commands of one core (Table 3.11). -/
abbrev scoreboardCap : Nat := 64
/-- Entries of the store buffer (§4.4). -/
abbrev storeBufferCap : Nat := 16
/-- Lines of one fell buffer slice (R70). -/
abbrev sliceCap : Nat := 128
/-- Beats of one landing queue (R28). -/
abbrev landingCap : Nat := 8
/-- Entries of the knot landing queue (R286). -/
abbrev knotQueueCap : Nat := 16
/-- Increments a core's knots apply per clk (R286). -/
abbrev knotsPerClk : Nat := 4
/-- Flits of a replay buffer (R386) and of a receiver's data buffer (R393). -/
abbrev replayCap : Nat := 512
/-- Flits of a receiver's control buffer (R392). -/
abbrev controlCap : Nat := 32
/-- Non-posted requests outstanding on one PCIe link (R338). -/
abbrev openReadCap : Nat := 1024
/-- Held tickets of one spool (R361). -/
abbrev heldTickets : Nat := 64
/-- Bolts of a spool's history (R353). -/
abbrev historyCap : Nat := 256
/-- Entries of a die's log queue (R456). -/
abbrev logQueueCap : Nat := 32

end Sys2Proof.Config
end

