-- ==== Sys2Proof/Machine/Bits.lean ====
section
/-! DEFINITION. Fields of registers and little-endian bytes (00 R8, Table 0.6). -/

namespace Sys2Proof.Machine

/-- Bits hi:lo of a value, as a number. -/
def fld {n : Nat} (v : BitVec n) (hi lo : Nat) : Nat := (v.toNat / 2 ^ lo) % 2 ^ (hi + 1 - lo)

/-- One bit. -/
def bit {n : Nat} (v : BitVec n) (i : Nat) : Bool := v.getLsbD i

/-- The value with bits hi:lo replaced. -/
def putFld {n : Nat} (v : BitVec n) (hi lo x : Nat) : BitVec n :=
  let m : BitVec n := BitVec.ofNat n ((2 ^ (hi + 1 - lo) - 1) * 2 ^ lo)
  (v &&& ~~~m) ||| (BitVec.ofNat n (x * 2 ^ lo) &&& m)

/-- The value with one bit set or cleared. -/
def putBit {n : Nat} (v : BitVec n) (i : Nat) (b : Bool) : BitVec n := putFld v i i (if b then 1 else 0)

/-- Bits of `a` where the mask is 0 and of `b` where it is 1. -/
def merge {n : Nat} (mask a b : BitVec n) : BitVec n := (a &&& ~~~mask) ||| (b &&& mask)

/-- A 32-bit counter that stops at all ones. -/
def satAdd (v : Dword) (n : Nat) : Dword := BitVec.ofNat 64 (min (v.toNat + n) 0xFFFFFFFF)

/-- A 16-bit counter that stops at all ones. -/
def satAdd16 (v n : Nat) : Nat := min (v + n) 0xFFFF

/-- The n low bytes of a number, least significant first (R8). -/
def leBytes : Nat → Nat → List Byte
  | 0, _ => []
  | n + 1, v => BitVec.ofNat 8 v :: leBytes n (v / 256)

/-- The number whose little-endian bytes these are (R8). -/
def leNat : List Byte → Nat
  | [] => 0
  | b :: t => b.toNat + 256 * leNat t

/-- Bytes i to i + n - 1. -/
def slice (l : List Byte) (i n : Nat) : List Byte := (l.drop i).take n

/-- The little-endian field of n bytes at offset i. -/
def leAt (l : List Byte) (i n : Nat) : Nat := leNat (slice l i n)

/-- The number whose big-endian bytes these are. -/
def beNat (l : List Byte) : Nat := leNat l.reverse

/-- The n big-endian bytes of a number. -/
def beBytes (n v : Nat) : List Byte := (leBytes n v).reverse

/-- A two's complement value of n bits. -/
def signed (n v : Nat) : Int := if v < 2 ^ (n - 1) then (v : Int) else (v : Int) - 2 ^ n

/-- The n low bits of an integer. -/
def unsigned (n : Nat) (v : Int) : Nat := (v % 2 ^ n).toNat

/-- The list in groups of n, at most the fuel of them. -/
def chunks {α : Type} (n : Nat) : Nat → List α → List (List α)
  | 0, _ => []
  | f + 1, l => if l.isEmpty then [] else l.take n :: chunks n f (l.drop n)

/-- Ceiling of a quotient. -/
def ceilDiv (a b : Nat) : Nat := (a + b - 1) / b

/-- a ≥ b of wrapping 32-bit numbers: the difference lies in the lower half. -/
def ge32 (a b : Nat) : Bool := (a + 2 ^ 32 - b % 2 ^ 32) % 2 ^ 32 < 2 ^ 31

end Sys2Proof.Machine
end

