-- ==== Sys2Proof/Machine/Float.lean ====
section
/-! DEFINITION. Numbers of the engines: exact dyadic values, the element formats of Table 4.7, rounding to nearest even and
stochastic rounding (05 §5.7, 06 §6.1, 08 R260–R264). -/

namespace Sys2Proof.Machine

/-- A value: NaN, an infinity, or ± m × 2^e (m = 0 is a signed zero). -/
inductive Num where
  | nan
  | inf (neg : Bool)
  | fin (neg : Bool) (m : Nat) (e : Int)
deriving DecidableEq, Repr

/-- A float format: bits of exponent and fraction, bias, and whether the top exponent holds infinities (IEEE) or only one
NaN (E4M3). -/
structure Fmt where
  eb : Nat
  mb : Nat
  bias : Int
  ieee : Bool
deriving DecidableEq, Repr

/-- FP32. -/
def fp32 : Fmt := { eb := 8, mb := 23, bias := 127, ieee := true }
/-- BF16. -/
def bf16 : Fmt := { eb := 8, mb := 7, bias := 127, ieee := true }
/-- FP16. -/
def fp16 : Fmt := { eb := 5, mb := 10, bias := 15, ieee := true }
/-- E4M3. -/
def e4m3 : Fmt := { eb := 4, mb := 3, bias := 7, ieee := false }
/-- E5M2. -/
def e5m2 : Fmt := { eb := 5, mb := 2, bias := 15, ieee := true }

/-- Exponent of the smallest subnormal. -/
def Fmt.emin (f : Fmt) : Int := 1 - f.bias - f.mb
/-- The largest finite magnitude as m × 2^e. -/
def Fmt.maxFin (f : Fmt) : Nat × Int :=
  if f.ieee then (2 ^ (f.mb + 1) - 1, (2 : Int) ^ f.eb - 2 - f.bias - f.mb)
  else (2 ^ (f.mb + 1) - 2, (2 : Int) ^ f.eb - 1 - f.bias - f.mb)
/-- The canonical NaN (R197). -/
def Fmt.nanBits (f : Fmt) : Nat :=
  if !f.ieee then 0x7F else if f.mb = 2 then 0x7E else (2 ^ f.eb - 1) * 2 ^ f.mb + 2 ^ (f.mb - 1)

/-- The value of a format's bits. -/
def Fmt.decode (f : Fmt) (b : Nat) : Num :=
  let neg := b / 2 ^ (f.eb + f.mb) % 2 == 1
  let x := b / 2 ^ f.mb % 2 ^ f.eb
  let m := b % 2 ^ f.mb
  if f.ieee && x == 2 ^ f.eb - 1 then (if m = 0 then .inf neg else .nan)
  else if !f.ieee && x == 2 ^ f.eb - 1 && m == 2 ^ f.mb - 1 then .nan
  else if x = 0 then .fin neg m f.emin
  else .fin neg (m + 2 ^ f.mb) (f.emin + x - 1)

/-- Number of bits of a natural number. -/
def bitLen (m : Nat) : Nat := if m = 0 then 0 else Nat.log2 m + 1

/-- The spacing exponent of a format at m × 2^e. -/
def Fmt.ulp (f : Fmt) (m : Nat) (e : Int) : Int := max (e + bitLen m - (f.mb + 1)) f.emin

/-- m × 2^e cut to multiples of 2^q: the quotient and the remainder as a numerator over 2^sh. -/
def cut (m : Nat) (e q : Int) : Nat × Nat × Nat :=
  if q ≤ e then (m * 2 ^ (e - q).toNat, 0, 0)
  else
    let sh := (q - e).toNat
    (m / 2 ^ sh, m % 2 ^ sh, sh)

/-- Round to nearest, ties to even, to multiples of the spacing. -/
def Fmt.nearest (f : Fmt) (m : Nat) (e : Int) : Nat × Int :=
  let q := f.ulp m e
  let (t, r, sh) := cut m e q
  let up := sh ≠ 0 ∧ (2 ^ sh < 2 * r ∨ 2 ^ sh = 2 * r ∧ t % 2 = 1)
  (if up then t + 1 else t, q)

/-- m × 2^e is above the largest finite magnitude. -/
def Fmt.tooBig (f : Fmt) (m : Nat) (e : Int) : Bool :=
  let (a, b) := f.maxFin
  let d := min e b
  a * 2 ^ (b - d).toNat < m * 2 ^ (e - d).toNat

/-- Bits of a magnitude that is a multiple of its spacing and not above the largest finite one. -/
def Fmt.encMag (f : Fmt) (m : Nat) (e : Int) : Nat :=
  if m = 0 then 0
  else
    let q := f.ulp m e
    let k := (cut m e q).1
    if k < 2 ^ f.mb then k else ((q - f.emin).toNat + 1) * 2 ^ f.mb + (k - 2 ^ f.mb)

/-- Bits with a sign. -/
def Fmt.withSign (f : Fmt) (neg : Bool) (mag : Nat) : Nat := if neg then 2 ^ (f.eb + f.mb) + mag else mag

/-- Bits of an infinity (R199: saturated in the FP8 formats). -/
def Fmt.infBits (f : Fmt) (neg : Bool) : Nat :=
  if f.mb ≤ 3 then f.withSign neg (f.encMag f.maxFin.1 f.maxFin.2) else f.withSign neg ((2 ^ f.eb - 1) * 2 ^ f.mb)

/-- A value in a format and whether it overflowed, saturated, or was held at the largest finite value (R199, R264);
`sr` is G[63:48] of a stochastic conversion. FP8 formats saturate, the others go to infinity. -/
def Fmt.encode (f : Fmt) (sr : Option Nat) (x : Num) : Nat × Bool :=
  match x with
  | .nan => (f.nanBits, false)
  | .inf neg => (f.infBits neg, f.mb ≤ 3)
  | .fin neg m e =>
    if m = 0 then (f.withSign neg 0, false)
    else
      let n := f.nearest m e
      let narrow := f.mb ≤ 3
      if !narrow && f.tooBig n.1 n.2 then (f.infBits neg, true)
      else
        let r := match sr with
          | none => n
          | some g =>
            let q := f.ulp m e
            let (t, rem, sh) := cut m e q
            (if g < rem * 65536 / 2 ^ sh then t + 1 else t, q)
        if f.tooBig r.1 r.2 then (f.withSign neg (f.encMag f.maxFin.1 f.maxFin.2), true)
        else (f.withSign neg (f.encMag r.1 r.2), narrow && f.tooBig m e)

/-- A value rounded to FP32 (R196, R214). -/
def rn (x : Num) : Num :=
  match x with
  | .fin neg m e =>
    if m = 0 then .fin neg 0 0
    else
      let n := fp32.nearest m e
      if fp32.tooBig n.1 n.2 then .inf neg else .fin neg n.1 n.2
  | y => y

/-- FP32 bits of a value that FP32 holds. -/
def bits32 (x : Num) : Nat := (fp32.encode none x).1
/-- The value of FP32 bits. -/
def num32 (b : Nat) : Num := fp32.decode b

/-- Sign. -/
def Num.neg? : Num → Bool
  | .nan => false
  | .inf n => n
  | .fin n _ _ => n
/-- Negation. -/
def Num.negate : Num → Num
  | .nan => .nan
  | .inf n => .inf !n
  | .fin n m e => .fin (!n) m e
/-- Absolute value. -/
def Num.abs : Num → Num
  | .nan => .nan
  | .inf _ => .inf false
  | .fin _ m e => .fin false m e
/-- Zero. -/
def Num.isZero : Num → Bool
  | .fin _ 0 _ => true
  | _ => false
/-- Not NaN and not infinite. -/
def Num.isFin : Num → Bool
  | .fin _ _ _ => true
  | _ => false
/-- NaN. -/
def Num.isNan : Num → Bool
  | .nan => true
  | _ => false

/-- The exact integer of a finite value in units of 2^d, for d at most its exponent. -/
def scaled (neg : Bool) (m : Nat) (e d : Int) : Int :=
  let v : Int := (m * 2 ^ (e - d).toNat : Nat)
  if neg then -v else v

/-- The exact sum (IEEE 754-2019; a zero sum of opposite values is +0). -/
def Num.add : Num → Num → Num
  | .nan, _ => .nan
  | _, .nan => .nan
  | .inf a, .inf b => if a = b then .inf a else .nan
  | .inf a, _ => .inf a
  | _, .inf b => .inf b
  | .fin na ma ea, .fin nb mb eb =>
    if ma = 0 ∧ mb = 0 then .fin (na && nb) 0 0
    else
      let d := min ea eb
      let v := scaled na ma ea d + scaled nb mb eb d
      if v = 0 then .fin false 0 0 else .fin (v < 0) v.natAbs d
/-- The exact difference. -/
def Num.sub (a b : Num) : Num := a.add b.negate
/-- The exact product. -/
def Num.mul : Num → Num → Num
  | .nan, _ => .nan
  | _, .nan => .nan
  | .inf a, .inf b => .inf (a != b)
  | .inf a, .fin nb mb _ => if mb = 0 then .nan else .inf (a != nb)
  | .fin na ma _, .inf b => if ma = 0 then .nan else .inf (na != b)
  | .fin na ma ea, .fin nb mb eb => .fin (na != nb) (ma * mb) (ea + eb)

/-- The FP32 sum (R196). -/
def fadd (a b : Num) : Num := rn (a.add b)
/-- The FP32 difference. -/
def fsub (a b : Num) : Num := rn (a.sub b)
/-- The FP32 product. -/
def fmul (a b : Num) : Num := rn (a.mul b)
/-- a × b + c with one rounding (R214). -/
def ffma (a b c : Num) : Num := rn ((a.mul b).add c)

/-- A finite quotient m / n × 2^e to 64 more bits than FP32 needs, with the remainder folded into the last bit. -/
def quotSticky (m n : Nat) (e : Int) : Nat × Int :=
  let k := 96 + bitLen n
  let a := m * 2 ^ k
  (2 * (a / n) + (if a % n = 0 then 0 else 1), e - k - 1)
/-- The value divided by a positive count, correctly rounded (R217, R221). -/
def fdivNat (x : Num) (n : Nat) : Num :=
  match x with
  | .fin neg m e => if m = 0 then .fin neg 0 0 else
      let q := quotSticky m n e
      rn (.fin neg q.1 q.2)
  | y => y

/-- Order of finite and infinite values, −0 below +0 (R214, R217). -/
def Num.lt (a b : Num) : Bool :=
  match a, b with
  | .nan, _ => false
  | _, .nan => false
  | .inf x, .inf y => x && !y
  | .inf x, _ => x
  | _, .inf y => !y
  | .fin na ma ea, .fin nb mb eb =>
    let d := min ea eb
    let va := scaled na ma ea d
    let vb := scaled nb mb eb d
    va < vb || (va == vb && na && !nb)
/-- The larger, NaN if either is (R214). -/
def fmax (a b : Num) : Num := if a.isNan || b.isNan then .nan else if a.lt b then b else a
/-- The smaller, NaN if either is (R214). -/
def fmin (a b : Num) : Num := if a.isNan || b.isNan then .nan else if b.lt a then b else a
/-- a > b as IEEE compares, zeros equal (R214). -/
def fgt (a b : Num) : Bool :=
  if a.isZero && b.isZero then false else b.lt a

/-- An integer as a value. -/
def ofInt (v : Int) : Num := .fin (v < 0) v.natAbs 0
/-- A value rounded to the nearest integer, ties to even; a NaN is 0 and an infinity is beyond every range (R216). -/
def toIntRne (x : Num) : Int :=
  match x with
  | .nan => 0
  | .inf neg => if neg then -(2 ^ 200) else 2 ^ 200
  | .fin neg m e =>
    let (t, r, sh) := cut m e 0
    let up := sh ≠ 0 ∧ (2 ^ sh < 2 * r ∨ 2 ^ sh = 2 * r ∧ t % 2 = 1)
    let v : Int := ((if up then t + 1 else t : Nat) : Int)
    if neg then -v else v
/-- The floor of a finite value. -/
def floorInt (x : Num) : Int :=
  match x with
  | .fin neg m e =>
    let (t, r, _) := cut m e 0
    if neg then (if r = 0 then -(t : Int) else -(t : Int) - 1) else t
  | _ => 0

/-! ## Element formats (Table 4.7) -/

/-- The float format of a code. -/
def floatFmt (c : Nat) : Fmt :=
  if c = 4 ∨ c = 6 then e4m3 else if c = 5 ∨ c = 7 then e5m2 else if c = 0xA then bf16 else if c = 0xB then fp16 else fp32
/-- Bits of an integer format. -/
def intBits (c : Nat) : Nat := if c = 1 then 4 else if c = 2 ∨ c = 3 then 8 else if c = 0xC then 16 else 32
/-- The integer of an integer format's raw code: UINT8 is unsigned, the others two's complement (R211). -/
def intOf (c raw : Nat) : Int := if c = 3 ∨ c = 0xF then (raw : Int) else signed (intBits c) (raw % 2 ^ intBits c)
/-- The range of an integer format. -/
def intRange (c : Nat) : Int × Int :=
  if c = 3 then (0, 255) else (-(2 ^ (intBits c - 1)), 2 ^ (intBits c - 1) - 1)
/-- An integer held in a range, and whether that changed it. -/
def clampInt (r : Int × Int) (v : Int) : Int × Bool :=
  if v < r.1 then (r.1, true) else if r.2 < v then (r.2, true) else (v, false)

/-! ## The stochastic generator (R263) -/

/-- F of R263. -/
def srF (z : Nat) : Nat :=
  let a := z ^^^ (z / 2 ^ 31)
  let b := a * 0x9E6F1D53A2C47B35 % 2 ^ 64
  let c := b ^^^ (b / 2 ^ 29)
  let d := c * 0xD1B54A32C1936E07 % 2 ^ 64
  d ^^^ (d / 2 ^ 32)
/-- PK of a core in a pick: key K, epoch E, number N, identity V. -/
def srKey (k e n v : Nat) : Nat := srF (k ^^^ srF (e * 2 ^ 32 ||| n) ^^^ srF (0xC1 * 2 ^ 56 ||| v))
/-- G[63:48] of an element: step n, slot u, index x. -/
def srG (pk n u x : Nat) : Nat :=
  srF (((n * 2 ^ 27) % 2 ^ 64 ||| u * 2 ^ 24 ||| x) ^^^ pk) / 2 ^ 48

end Sys2Proof.Machine
end

