-- ==== Sys2Proof/Machine/Regs.lean ====
section
/-! DEFINITION. The register maps (16 Tables 16.3–16.8, 17 Tables 17.1–17.7, 11 Table 11.3, 12 Tables 12.2 and 12.7,
13 Tables 13.6 and 13.10, 14 Tables 14.2 and 14.8): blocks of the device address space (01 Tables 1.5 and 1.6), widths,
access codes and reset values. -/

namespace Sys2Proof.Machine

/-! ## Blocks of the device address space -/

/-- What a device address falls in. -/
inductive Block where
  | trd (td : Td)
  | hdl
  | tpl
  | slv (n : Sd)
  | ldie (d : Die)
  | core (g : CoreId)
deriving DecidableEq, Repr

/-- Base of a register block. -/
def Block.base : Block → Nat
  | .trd td => 0xC0000000 + 0x1000000 * td.val
  | .hdl => 0xC2000000
  | .tpl => 0xC3000000
  | .slv n => 0xC4000000 + 0x100000 * n.val
  | .ldie d => 0xC8000000 + 0x100000 * d.val
  | .core g => 0x80080000 + 0x400000 * g.toNat

/-- Register block and offset of a device address (Tables 1.5, 1.6, 0.7), none outside every block. -/
def blockOf (a : Nat) : Option (Block × Nat) :=
  if a < 0x80000000 then none
  else if a < 0xC0000000 then
    let o := (a - 0x80000000) % 0x400000
    if 0x80000 ≤ o ∧ o < 0x90000 then some (.core (BitVec.ofNat 8 ((a - 0x80000000) / 0x400000)), o - 0x80000) else none
  else if a < 0xC1000000 then some (.trd 0, a - 0xC0000000)
  else if a < 0xC2000000 then some (.trd 1, a - 0xC1000000)
  else if a < 0xC3000000 then some (.hdl, a - 0xC2000000)
  else if a < 0xC4000000 then some (.tpl, a - 0xC3000000)
  else if a < 0xC4400000 then some (.slv (Fin.ofNat 4 ((a - 0xC4000000) / 0x100000)), (a - 0xC4000000) % 0x100000)
  else if a < 0xC8000000 then none
  else if a < 0xCA000000 then some (.ldie (Fin.ofNat 32 ((a - 0xC8000000) / 0x100000)), (a - 0xC8000000) % 0x100000)
  else none

/-- First device address of a core's beam (Table 1.5). -/
def beamBase (g : CoreId) : Nat := 0x800000 * g.toNat
/-- First device address of a core's auxiliary window, its card store (Table 1.6). -/
def auxBase (g : CoreId) : Nat := 0x80000000 + 0x400000 * g.toNat
/-- First device address of a core's register window. -/
def regBase (g : CoreId) : Nat := auxBase g + 0x80000
/-- First device address of a core's descriptor table (R169). -/
def descBase (g : CoreId) : Nat := auxBase g + 0x84000
/-- First device address of a core's take-up (Table 1.6). -/
def takeBase (g : CoreId) : Nat := auxBase g + 0x100000
/-- The flash buffer (R441). -/
def flashBuf : Nat := 0xC3010000
/-- The block that keeps a die's event log (R455). -/
def logBlock (d : LogDie) : Block :=
  if h : d.val < 32 then .ldie ⟨d.val, h⟩
  else if d.val < 36 then .slv (Fin.ofNat 4 (d.val - 32))
  else if d.val = 36 then .trd 0 else if d.val = 37 then .trd 1 else if d.val = 38 then .hdl else .tpl

/-! ## Access of one register -/

/-- A register: its width, the bits of each access code (Table 0.8). Bits of no code are RO or reserved; a WO register has
none, because it holds nothing to read. -/
structure RegSpec where
  wide : Bool := false
  rw : Dword := 0
  rwl : Dword := 0
  w1c : Dword := 0
deriving DecidableEq, Repr

/-- A 32-bit RO register, or one that only the operation of its own rule writes. -/
def ro32 : Option RegSpec := some {}
/-- A 64-bit one. -/
def ro64 : Option RegSpec := some { wide := true }
/-- Log registers of every die (R457). -/
def logSpec (o : Nat) : Option RegSpec :=
  if o = 0x7F004 then some { rw := 0xFFFFFFFF } else if o = 0x7F000 ∨ o = 0x7F008 ∨ o = 0x7F00C then ro32 else none

/-- Spool registers (Table 11.3). -/
def spoolSpec (o : Nat) : Option RegSpec :=
  match o with
  | 0x00 | 0x08 => some { wide := true, rwl := 0xFFFFFFFFFFFFF000 }
  | 0x28 => some { wide := true, rwl := 0xFFFFFFFFFFFFFFFF }
  | 0x10 => some { rwl := 0x37FF1F1F }
  | 0x14 => some { rw := 1 }
  | 0x1C => some { rwl := 0xFFFFFFFF }
  | 0x18 | 0x20 | 0x24 | 0x30 | 0x34 | 0x38 => ro32
  | _ => none

/-- Tally channel registers (Table 14.8), `loom` in a Loom die's column. -/
def tallySpec (loom : Bool) (o : Nat) : Option RegSpec :=
  match o with
  | 0x00 => some (if loom then { rwl := 0x00070133 } else { rw := 0x003F0133 })
  | 0x04 => ro32
  | 0x08 => if loom then some { rwl := 0x007FFFFF } else none
  | 0x0C => if loom then some { rwl := 0x007FFFFF } else none
  | 0x10 => some { wide := true, rw := 0xFFFFFFFFFFFFFFFF }
  | 0x18 => ro64
  | 0x20 => if loom then none else some { rw := 0xFFFFFFFF }
  | 0x24 | 0x2C => ro32
  | 0x28 => some { w1c := if loom then 0xE else 0x2 }
  | _ => none

/-- MSI-X table entry words (R344; layout of PCI Express Base 6.0, PRESUMED): address, upper address, data, mask. -/
def msixSpec (o : Nat) : Option RegSpec :=
  if o % 4 ≠ 0 then none
  else match o / 4 % 4 with
    | 0 => some { rw := 0xFFFFFFFC }
    | 3 => some { rw := 1 }
    | _ => some { rw := 0xFFFFFFFF }

/-- Treadle die map (Table 16.3). -/
def trdSpec (o : Nat) : Option RegSpec :=
  if o < 0x1000 then
    match o with
    | 0x00 | 0x10 | 0x14 | 0x18 => ro32
    | 0x1C | 0x20 => some { rw := 0x800007FF }
    | _ => none
  else if o < 0x2000 then spoolSpec (o % 0x40)
  else if o < 0x2400 then (if o % 4 = 0 then some { rwl := 0x1FFF } else none)
  else if o < 0x4000 then none
  else if o < 0x4400 then tallySpec false (o % 0x40)
  else if o < 0x100000 then logSpec o
  else if o < 0x108000 then msixSpec o
  else if o < 0x108100 then (if o % 8 = 0 then ro64 else none)
  else if o < 0x120000 then none
  else if o < 0x128000 then msixSpec o
  else if o < 0x128100 then (if o % 8 = 0 then ro64 else none)
  else none

/-- Heddle die map (Table 16.4). -/
def hdlSpec (o : Nat) : Option RegSpec :=
  if o < 0x200 then
    match o with
    | 0x00 | 0x50 | 0x58 | 0x60 | 0x68 | 0x70 => ro64
    | 0x08 => some { wide := true, rwl := 0xFFFFFFFFFFFFFFFF }
    | 0x10 => some { w1c := 0x6 }
    | 0x20 => some { rw := 1 }
    | 0x24 => some { w1c := 0x3FE }
    | 0x28 => some { rwl := 0xFFFFF }
    | 0x2C => some { rwl := 0xFFFFFF }
    | 0x30 => some { wide := true, rwl := 0xFFFFFFFFFFFFFFFF }
    | 0x38 => some { rwl := 0xFFFFFFFF }
    | 0x3C => some { rwl := 0xFFFF }
    | 0x44 => some { rwl := 0x10FFF }
    | 0x40 | 0x48 | 0x78 | 0x114 | 0x124 | 0x128 => ro32
    | 0x100 => some { rwl := 0x1FFFFF }
    | 0x108 => some { wide := true, rwl := 0xFFFFFF003F }
    | 0x110 => some { rwl := 0x13F }
    | 0x118 => some { rwl := 0xF }
    | 0x11C => some { rwl := 0xFFFF }
    | 0x120 => some { rwl := 0xFFFF0001 }
    | 0x130 => some { wide := true, rwl := 0xFFFFFFFFFFFFFFFF }
    | _ => none
  else if o < 0x220 then (if o % 4 = 0 then some { rwl := 0xFFFFFFFF } else none)
  else if o < 0x800 then
    match o with
    | 0x220 => some { wide := true, rwl := 0x0000FFFFFFFFFFFF }
    | 0x228 => some { wide := true, rw := 0x8000FFFFFFFFFFFF }
    | 0x230 | 0x234 | 0x308 => ro32
    | 0x300 => ro64
    | _ => none
  else if o < 0x1000 then (if o % 8 = 0 then some { wide := true, rwl := 0xFFFFFFFFFFFFFFFF } else none)
  else if o < 0x2000 then
    match o with
    | 0x1008 | 0x1108 => ro64
    | 0x1020 => some { w1c := 0x8FFF }
    | 0x1024 => some { rw := 0xFFF }
    | 0x1128 => some { wide := true, rw := 0xFFFFFFFFF }
    | 0x1130 => some { rw := 0x0FFF07FF }
    | 0x1134 => some { rw := 0x1FFF }
    | 0x113C => some { rw := 0xFFF }
    | 0x1000 | 0x1010 | 0x1014 | 0x1018 | 0x101C | 0x1100 | 0x1104 | 0x1138 => ro32
    | 0x1110 | 0x1114 | 0x1118 | 0x111C | 0x1120 | 0x1124 => ro32
    | _ => none
  else logSpec o

/-- Temple die map (Table 16.6). -/
def tplSpec (o : Nat) : Option RegSpec :=
  if o < 0x100 then
    match o with
    | 0x00 | 0x10 | 0x20 => ro32
    | 0x18 => ro64
    | _ => none
  else if o < 0x120 then (if o % 4 = 0 then ro32 else none)
  else if o = 0x120 then ro64
  else if o < 0x140 then none
  else if o < 0x170 then (if o % 8 = 0 then ro64 else none)
  else if o < 0x200 then none
  else if o = 0x200 ∨ o = 0x204 then ro32
  else if o < 0x220 then none
  else if o < 0x260 then (if o % 8 = 0 then ro64 else none)
  else if o < 0x2C0 then (if o % 8 = 0 then some { wide := true, rwl := 0xFFFFFFFFFFFFFFFF } else none)
  else if o < 0x2E8 then (if o % 8 = 0 then ro64 else none)
  else if o = 0x400 then ro32
  else if o = 0x404 then some { rw := 0xFFFFFF }
  else if o = 0x408 then some { rw := 0x1FFF }
  else if o = 0x40C then some { w1c := 0x6 }
  else logSpec o

/-- Selvedge die map (Table 16.7, Tables 12.2 and 12.7). -/
def slvSpec (o : Nat) : Option RegSpec :=
  if o < 0x600 then
    match o % 0x100 with
    | 0x00 => some { rw := 0x73 }
    | 0x08 => ro64
    | 0x10 => some { rwl := 0x03FF03FF }
    | 0x04 | 0x18 | 0x1C | 0x20 | 0x24 => ro32
    | _ => none
  else if o = 0x800 ∨ o = 0x804 then ro32
  else if 0x10000 ≤ o ∧ o < 0x12000 then
    (if o % 8 = 0 then some { wide := true, rwl := 0xFFFF0F77 } else none)
  else logSpec o

/-- Loom die shared map (Table 16.8). -/
def ldieSpec (o : Nat) : Option RegSpec :=
  if o = 0x00 ∨ o = 0x20 then ro32
  else if o = 0x10 then some { w1c := 0x1FF00 }
  else if 0x4000 ≤ o ∧ o < 0x4400 then tallySpec true (o % 0x40)
  else logSpec o

/-- Core register window less the descriptor table (Tables 17.1–17.7). -/
def coreSpec (o : Nat) : Option RegSpec :=
  if o < 0x300 then
    match o with
    | 0x00 | 0x04 | 0x108 | 0x10C | 0x118 | 0x11C | 0x120 | 0x124 | 0x128 | 0x12C | 0x138 | 0x204 | 0x208 => ro32
    | 0x10 => some { rwl := 0x3 }
    | 0x14 => some { rwl := 0xFFFFFF }
    | 0x100 | 0x110 => ro64
    | 0x130 => some { wide := true, rwl := 0x1FFFFFFFF }
    | 0x200 => some { rwl := 0xFFFFFFFC }
    | _ => if 0x240 ≤ o ∧ o < 0x280 ∧ o % 8 = 0 then some { wide := true, rwl := 0xFFFFFFFF } else none
  else if o < 0x400 then
    match o with
    | 0x300 | 0x304 | 0x308 => some { rwl := 0xFFFFFFFF }
    | 0x30C => some { rwl := 0x7FFFFFFF }
    | 0x310 | 0x314 | 0x318 | 0x31C | 0x320 | 0x338 => ro32
    | 0x328 | 0x330 => ro64
    | _ => none
  else if o < 0x700 then
    match o with
    | 0x400 => some { rwl := 0xFFF7 }
    | 0x404 | 0x408 | 0x40C | 0x500 | 0x508 => ro32
    | 0x504 => some { rwl := 0xFFFFFFFF }
    | 0x618 => some { wide := true, rwl := 0x0FFF0FFF0FFF }
    | 0x620 | 0x624 | 0x628 | 0x62C | 0x630 | 0x634 | 0x638 | 0x63C => ro32
    | _ => if (0x540 ≤ o ∧ o < 0x580 ∨ 0x600 ≤ o ∧ o < 0x618) ∧ o % 4 = 0 then some { rwl := 0xFFFFFFFF } else none
  else if o < 0x1E00 then
    match o with
    | 0x700 | 0x704 | 0x708 | 0x800 | 0x804 | 0x808 | 0x80C => ro32
    | 0x810 => ro64
    | _ => none
  else if o < 0x2000 then (if o % 8 = 0 then some { wide := true, rwl := 0xFFFFFFFFFFFFFFFF } else none)
  else if o < 0x3000 then (if o % 4 = 0 then some { rwl := 0xFFFFFFFF } else none)
  else if o < 0x4000 then (if o % 4 = 0 then ro32 else none)
  else none

/-- The register at an offset of a block. -/
def Block.spec : Block → Nat → Option RegSpec
  | .trd _, o => trdSpec o
  | .hdl, o => hdlSpec o
  | .tpl, o => tplSpec o
  | .slv _, o => slvSpec o
  | .ldie _, o => ldieSpec o
  | .core _, o => coreSpec o

/-! ## Reset values -/

/-- Reset value of a register by its device address (the Reset columns of the maps; 0 unless the map says otherwise). -/
def regReset (a : Nat) : Dword :=
  match blockOf a with
  | none => 0
  | some (.hdl, o) =>
    match o with
    | 0x28 => 0x3E8
    | 0x2C => 0x119
    | 0x44 => 0x10640
    | 0x100 => 0x400
    | 0x108 => 1
    | 0x110 => 1
    | 0x114 => 1
    | 0x118 => 1
    | 0x11C => 0x64
    | 0x1024 => 0xFFE
    | 0x1128 => 0xFFFFFFFFF
    | 0x1130 => 0x00B40672
    | 0x1134 => 0x1F4
    | 0x113C => 0x660
    | _ => 0
  | some (.trd _, o) =>
    if (0x100000 ≤ o ∧ o < 0x108000 ∨ 0x120000 ≤ o ∧ o < 0x128000) ∧ o % 16 = 12 then 1 else 0
  | some (.slv _, o) => if o < 0x600 ∧ o % 0x100 = 0x10 then 0x01000100 else 0
  | some (.core g, o) =>
    match o with
    | 0x14 => BitVec.ofNat 64 g.toNat
    | 0x400 => 0x1001
    | 0x504 => 0x3727C5AC
    | 0x60C => 0x3F800000
    | 0x610 => 0x3F800000
    | 0x614 => 0x3F800000
    | 0x618 => 0x0FFF0FFF0FFF
    | _ => 0
  | _ => 0

/-! ## Device addresses of named registers -/

/-- A Heddle die register. -/
abbrev hdl (o : Nat) : Nat := 0xC2000000 + o
/-- A Temple die register. -/
abbrev tpl (o : Nat) : Nat := 0xC3000000 + o
/-- A Treadle die register. -/
abbrev trd (td : Td) (o : Nat) : Nat := 0xC0000000 + 0x1000000 * td.val + o
/-- A spool register (Table 11.3). -/
abbrev spoolReg (td : Td) (sp : SpoolId) (o : Nat) : Nat := trd td (0x1000 + 0x40 * sp.val + o)
/-- A Selvedge die register. -/
abbrev slv (n : Sd) (o : Nat) : Nat := 0xC4000000 + 0x100000 * n.val + o
/-- A port register (Table 12.2). -/
abbrev portReg (p : PortId) (o : Nat) : Nat := 0xC4000000 + 0x100000 * (p.val / 6) + 0x100 * (p.val % 6) + o
/-- A Loom die register. -/
abbrev ldie (d : Die) (o : Nat) : Nat := 0xC8000000 + 0x100000 * d.val + o
/-- A core register (Tables 17.3–17.7). -/
abbrev coreReg (g : CoreId) (o : Nat) : Nat := regBase g + o
/-- A knot (R281). -/
abbrev knotReg (g : CoreId) (k : Nat) : Nat := coreReg g (0x2000 + 4 * k)
/-- A wait cursor (R289). -/
abbrev cursorReg (g : CoreId) (k : Nat) : Nat := coreReg g (0x3000 + 4 * k)
/-- A channel route entry. -/
abbrev routeReg (g : CoreId) (c : Nat) : Nat := coreReg g (0x1E00 + 8 * c)

end Sys2Proof.Machine
end

