-- ==== Sys2Proof/Machine/Sparse.lean ====
section
/-! DEFINITION. Sparse maps in one canonical form: keys strictly rising, no entry equal to what an unlisted key reads as.
The register file, the memory and the tables of cores, ports, spools and logs are kept so. -/

namespace Sys2Proof.Machine

/-- The value at a key; `d` is what an unlisted key reads as. -/
def sget {β : Type} (d : Nat → β) : List (Nat × β) → Nat → β
  | [], k => d k
  | (a, v) :: t, k => if a = k then v else sget d t k

/-- The map without the key. -/
def serase {β : Type} : List (Nat × β) → Nat → List (Nat × β)
  | [], _ => []
  | (a, v) :: t, k => if a = k then serase t k else (a, v) :: serase t k

/-- The map with the pair put before the first larger key. -/
def sins {β : Type} : List (Nat × β) → Nat → β → List (Nat × β)
  | [], k, v => [(k, v)]
  | (a, b) :: t, k, v => if k < a then (k, v) :: (a, b) :: t else (a, b) :: sins t k v

/-- The map with the value at the key; writing what an unlisted key reads as removes the entry. -/
def sset {β : Type} [DecidableEq β] (d : Nat → β) (l : List (Nat × β)) (k : Nat) (v : β) : List (Nat × β) :=
  if v = d k then serase l k else sins (serase l k) k v

/-- Keys strictly rising. -/
def ssorted {β : Type} : List (Nat × β) → Bool
  | [] => true
  | [_] => true
  | (a, _) :: (b, w) :: t => a < b && ssorted ((b, w) :: t)

/-- The canonical form. -/
def swf {β : Type} [DecidableEq β] (d : Nat → β) (l : List (Nat × β)) : Bool :=
  ssorted l && l.all fun e => e.2 != d e.1

/-- The map without the keys that `drop` names. -/
def sdrop {β : Type} (drop : Nat → Bool) (l : List (Nat × β)) : List (Nat × β) := l.filter fun e => !drop e.1

end Sys2Proof.Machine
end

