-- ==== Sys2Proof/Machine/State.lean ====
section
/-! DEFINITION. The state of the OZ40 as plain data. Registers live in one sparse register file keyed by device address
(an unlisted register reads its reset value); beam, card store, take-up, descriptor tables, event logs, MSI-X tables and
the flash buffer live in one sparse byte memory; every queue, buffer and piece of micro-state the spec names has a field
below. State.reset is the package before a power-on (15 §15.3): OFF, nothing pending. -/

namespace Sys2Proof.Machine

/-! ## Events and outputs -/

/-- An event detected by a die and not yet written to its log (14 Table 14.4, less the SEQ field). -/
structure Event where
  weft : Dword
  code : BitVec 16
  src : BitVec 16
  pick : Word
  epoch : BitVec 16
  aux : BitVec 16
  data : Dword
deriving DecidableEq, Repr

/-- The log logic of one die (R456): the events of the current ns, the log queue of 32 entries, the ns of the writer's
last entry. -/
structure DieLog where
  now : List Event := []
  queue : List Event := []
  lastWrite : Option Dword := none
deriving DecidableEq, Repr

/-- What leaves the package, oldest first (model's own record, log entry 2). -/
inductive Output where
  /-- a PCIe read completion with its data, poisoned or not (R33, R163) -/
  | completion (td : Td) (fn : Fn) (addr : Word) (data : List Byte) (poisoned : Bool)
  /-- the answer to a configuration request: none is Configuration Request Retry Status (R340), else the identities (R339) and what
  the MSI-X capability names: the BAR, the offsets of the table and of the Pending Bit Array (R344) -/
  | configAnswer (td : Td) (fn : Fn) (ids : Option (List Nat × List Nat))
  /-- a memory read request of a Treadle die to the host (R348, R357) -/
  | hostRead (td : Td) (addr : Dword) (len : Nat)
  /-- a data write to host memory, with its Relaxed Ordering attribute (R358, R364) -/
  | hostWrite (td : Td) (addr : Dword) (data : List Byte) (relaxed : Bool)
  /-- a ticket write (R361): never relaxed -/
  | ticket (td : Td) (addr : Dword) (data : List Byte)
  /-- an MSI-X message (R345, R363) -/
  | msix (td : Td) (fn : Fn) (vector : Nat)
  /-- an AER error report (Table 11.9), with its severity (R367) -/
  | aer (td : Td) (fn : Fn) (poisonedTlp fatal : Bool)
  /-- a flit on a VXF port (R386) -/
  | flit (p : PortId) (bytes : List Byte)
  /-- an SMBus answer, none a NACK (R490, R491) -/
  | smbus (bytes : Option (List Byte))
  /-- an AVSBus Write Voltage request (R472) -/
  | avs (j : Fin 16) (millivolt : Nat)
  /-- an output bundle the Overseer released (R446) -/
  | overseer (bundle : BitVec 256)
deriving DecidableEq, Repr

/-! ## Register access -/

/-- A pending low half (R11). -/
structure LowHalf where
  req : Requester
  addr : Nat
  val : Word
deriving DecidableEq, Repr

/-- A held snapshot latch (R506, R523): the requester, the first register, and what it latched. -/
structure Latch where
  req : Requester
  first : Nat
  vals : List (Nat × Dword)
deriving DecidableEq, Repr

/-! ## The loom core -/

/-- One open loop (R114): first and last card of the body, iterations still to run after this one. -/
structure LoopFrame where
  first : Nat
  last : Nat
  remaining : Nat
deriving DecidableEq, Repr

/-- Where the front end stood before a card: what a re-run returns to (R267). -/
structure FrontMark where
  idx : Nat
  loops : List LoopFrame
  soff : Nat
  step : Nat
  keepWh : Option (BitVec 12)
deriving DecidableEq, Repr

/-- The front end (§3.5): next card to fetch, loop state, last scheduled offset, step of the next instance, prologue and
step-mark checks, the fetched card, the LOOP card decoded but not yet consumed. -/
structure FrontEnd where
  run : Bool := false
  idx : Nat := 0
  entry : Nat := 0
  len : Nat := 0
  loops : List LoopFrame := []
  soff : Nat := 0
  step : Nat := 0
  proCount : Nat := 0
  sawPlain : Bool := false
  openDepth : Option Nat := none
  keepWh : Option (BitVec 12) := none
  fetched : Option Nat := none
  loopCard : Option LoopFrame := none
  ended : Bool := false
deriving DecidableEq, Repr

/-- A decoded instance in the run-ahead window (R119): its occupied slots with their 64-bit commands; it may be popped from the
clk `from'` on, the clk after its decode (R305). -/
structure Inst where
  step : Nat
  soff : Nat
  delta : Nat
  card : Nat
  slots : List (Nat × Dword)
  pro : Bool
  rb : Bool
  re : Bool
  spec : Bool
  started : Bool
  mark : FrontMark
  from' : Nat
deriving DecidableEq, Repr

/-- How far an issued command is: issued, accepted by the sync unit and not yet performed (R284), running until a known
clk, or waiting for acknowledgements (R112). -/
inductive CmdPhase where
  | issued
  | accepted
  | running (doneAt : Nat)
  | waiting
deriving DecidableEq, Repr

/-- An issued command that has not retired, with its issue clk (R112). -/
structure Cmd where
  step : Nat
  slot : Nat
  op : Dword
  card : Nat
  phase : CmdPhase
  at' : Nat := 0
deriving DecidableEq, Repr

/-- The step instance whose cards are issuing or unretired (R265): its first step, where its first card was decoded, its
last step once issued, whether it has been re-run, the clk before which its replay does not issue, whether the replay's first card
has still to issue, whether the instance has retired in this clk. -/
structure StepInst where
  first : Nat
  mark : FrontMark
  last : Option Nat
  rerun : Bool
  replayAt : Nat
  replaying : Bool
  ended : Bool := false
deriving DecidableEq, Repr

/-- Who stages a fell buffer line (R71): one shuttle of one core, or one bolt. -/
inductive FellSrc where
  | shuttle (g : CoreId) (n : Fin 4)
  | bolt (td : Td) (sp : SpoolId) (seq : Dword)
deriving DecidableEq, Repr

/-- One fell buffer line (R70, R71): line number, byte mask, data, the words with inverted parity, its source. -/
structure FellLine where
  line : Nat
  mask : Dword
  data : BitVec 512
  bad : BitVec 16
  src : FellSrc
deriving DecidableEq, Repr

/-- Whom the acknowledgement of a write goes to: a tracker entry of a core with its generation and pick bits (R312). `part` is the
leg of the transfer that it belongs to: 2 × chunk, and 1 more for a second leg (R329). -/
structure AckTo where
  core : CoreId
  entry : Nat
  gen : Word
  pick : Byte
  part : Nat := 0
deriving DecidableEq, Repr

/-- A staged line on its way to a fell buffer (R72), which it reaches in clk `due` at the earliest (R319, R323). -/
structure StagedWrite where
  fell : FellLine
  ack : Option AckTo
  due : Nat
deriving DecidableEq, Repr

/-- One store buffer entry (§4.4) with the words whose parity bit is wrong (R159). `merged` holds, once an entry that covers
part of a word has had its first grant, the words that its merge read found in error (R154, R160); `out` says that the entry
has been written in this clk and leaves with it (R145). -/
structure SbEntry where
  line : Nat
  mask : Dword
  data : BitVec 512
  bad : BitVec 16 := 0
  merged : Option (BitVec 16) := none
  out : Bool := false
deriving DecidableEq, Repr

/-! ## The ports of a beam (§4.2, §4.3) -/

/-- One line access of a port: the line, the bytes that it uses or writes, the data of a write (R141, R149, R151). `must` says
that a write lost its bank while the store buffer was full, and is held until it enters (R155). -/
structure Acc where
  line : Nat
  mask : Dword
  data : Option (BitVec 512) := none
  must : Bool := false
deriving DecidableEq, Repr

/-- What a step of a run does: it reads lines, it writes lines, or it passes on bytes that have been read. -/
inductive StepKind where
  | read
  | write
  | pass
deriving DecidableEq, Repr

/-- One group of a run: the clk in which it is presented without waits, by how many clk it is late (R208, R319), its group
number, whether it has been presented, whether the gather buffer serves it and whether it fills that buffer (R149, R150, R247),
the accesses still to make, the flags and counters that its completion raises; `src` are the offsets whose bytes a read
collects, `dst` and `bytes` the places and values of the bytes it writes or passes on. -/
structure RunStep where
  kind : StepKind
  port : Nat
  due : Nat
  late : Nat := 0
  grp : Nat := 0
  begun : Bool := false
  gath : Bool := false
  accs : List Acc := []
  flags : Nat := 0
  counts : List (Nat × Nat) := []
  src : List Nat := []
  dst : List Nat := []
  bytes : List Byte := []
deriving DecidableEq, Repr

/-- For whom a run accesses a beam: an engine's command, a leg of a transfer that reads here, a beat that landed here, a
message read or written by the sync unit, a WRITE or READ_REQ packet that Selvedge die `n` delivers (R397), by its header. -/
inductive RunOwner where
  | cmd (step slot : Nat)
  | leg (a : AckTo) (shu : Fin 4)
  | beat (a : AckTo)
  | send (step : Nat)
  | recv (step : Nat)
  | packet (n : Fin 4) (header : List Byte)
deriving DecidableEq, Repr

/-- A channel message (R295–R297). -/
structure Msg where
  fromCore : CoreId
  fromChan : Nat
  chan : Nat
  slot : Nat
  bytes : List Byte
  pick : Byte
  step : Nat
deriving DecidableEq, Repr

/-- Where the bytes go that a run's steps pass on: nowhere, the core's own fell buffer, beats for another core that write its
beam or stage, beats for another package by its beam's base address, the message of a CHAN_SEND, the data of a READ_DATA. -/
inductive RunDest where
  | none
  | fell
  | mesh (g : CoreId) (staged : Bool)
  | pkg (n : BitVec 10) (base : Nat)
  | message (peer : CoreId) (m : Msg)
  | answer
deriving DecidableEq, Repr

/-- The accesses of one command, leg, beat, message or packet at one beam. `order` is its place in the order of R318; `chain`
says that a wait delays everything behind it (R208), else only its own and later groups (R319); `arr` that its clk are those
of the weave array (R183); `hold` that its unit is free only after its last step (R222, R236); `start` is its acceptance.
`into` are the places that the bytes of its stream are bound for, `next` the first byte of the stream that has not been sent,
`held` the bytes passed on and not yet sent, by their place in the stream (R323). -/
structure Run where
  owner : RunOwner
  dest : RunDest := .none
  order : Nat := 0
  chain : Bool := true
  arr : Bool := false
  hold : Bool := false
  start : Nat
  steps : List RunStep
  into : List Nat := []
  next : Nat := 0
  held : List (Nat × Byte) := []
deriving DecidableEq, Repr

/-- A line that a gather buffer holds, or that is on its way to it from clk `at'` on, with the words in error (R150). -/
structure GatherLine where
  line : Nat
  bad : BitVec 16
  at' : Nat
deriving DecidableEq, Repr

/-- Where a parity error arises that is not a beam word's: the Reed row buffer, a Heald tile buffer, the Carder store
(R232, R234, R253). -/
inductive BufKind where
  | row
  | tile
  | carder
deriving DecidableEq, Repr

/-- What a beat carries (R297, R316, R323, R397): bytes that a transfer writes or stages where it lands; a part of a message, whole
with its last beat; bytes of a WRITE packet that Selvedge die `n` delivers. -/
inductive BeatBody where
  | writes (staged : Bool) (l : List (Nat × Byte)) (owner : AckTo) (shu : Fin 4)
  | message (m : Option Msg)
  | packet (n : Fin 4) (header : List Byte) (l : List (Nat × Byte))
deriving DecidableEq, Repr

/-- A beat crossing the mesh or waiting at its mesh port (R28, R323): its class at the receiving core, the clk from which it may
land, its place in the order of R318. -/
structure Beat where
  cls : SlotClass
  dst : CoreId
  due : Nat := 0
  body : BeatBody
  order : Nat
deriving DecidableEq, Repr

/-- What a beat bound for a Selvedge die carries (R322, R397): device addresses and bytes that a remote write writes in another
package, or a part of the data of a READ_DATA, whole with its last beat. -/
inductive RemoteBody where
  | write (pkg : BitVec 10) (l : List (Nat × Byte)) (owner : AckTo)
  | answer (n : Fin 4) (header : List Byte) (data : Option (List Byte))
deriving DecidableEq, Repr

/-- A beat waiting for a remote slot on its way out, ready from the clk `due` on, with its place in the order of R318. -/
structure RemoteBeat where
  due : Nat := 0
  body : RemoteBody
  order : Nat
deriving DecidableEq, Repr

/-- Where a transfer is (R317, R324): pending behind its gate, able to start from a clk on, or started in a clk. -/
inductive TransferPhase where
  | gated
  | ready (clk : Nat)
  | started (clk : Nat)
deriving DecidableEq, Repr

/-- A tracked transfer (R311–R333). `unacked` counts the writes not acknowledged of each part (R329), `toSend` the beats of remote
writes still to leave, `reads` the remote reads still to be answered, by the part and the place of their line among its lines, in
order, `got` bytes that have been read remotely and not yet sent on, `gotNext` the first byte of the stream not sent on;
`firstOut` is the weft at which the first remote request left (R332); `leg1` and `leg2` count the first and second legs that have
started (R329); `moved` is the clk in which its last write was acknowledged, `sigSent` that the completion signal is on its way.
`pro` says that it is a prologue load, which serves pick `pick`. -/
structure Transfer where
  op : Dword
  card : Nat
  step : Nat
  shu : Fin 4
  pick : Byte
  phase : TransferPhase
  issueOrder : Nat
  unacked : List (Nat × Nat) := []
  toSend : Nat := 0
  reads : List (Nat × Nat) := []
  got : List (Nat × Byte) := []
  gotNext : Nat := 0
  firstOut : Option Dword := none
  leg1 : Nat := 0
  leg2 : Nat := 0
  moved : Option Nat := none
  sigSent : Bool := false
  pro : Bool := false
  confirmed : Bool := false
deriving DecidableEq, Repr

/-- A tracker entry (R312): its generation and the transfer that holds it. -/
structure Track where
  gen : Word := 0
  tr : Option Transfer := none
deriving DecidableEq, Repr

/-- The source of a knot signal, in the order of R286. -/
inductive SigSrc where
  | own
  | shuttle (n : Fin 4)
  | mesh
deriving DecidableEq, Repr

/-- A knot signal on its way (§9.2); `tr` is the transfer that retires when it is applied (R285), `pro` marks the signal
of a prologue load (R292), `remote` the Selvedge die and the header of the SIGNAL_ACK to answer a packet with (R397); it reaches its core in the clk `due`, or, if
it cannot enter the knot landing queue, presents again in that clk (R22, R286). -/
structure KnotSig where
  knot : Nat
  val : Word
  pick : Byte
  src : SigSrc
  tr : Option AckTo
  step : Option (CoreId × Nat)
  pro : Bool
  remote : Option (Fin 4 × List Byte)
  due : Nat := 0
deriving DecidableEq, Repr

/-- An acknowledgement on its way (R283), seen from the clk `due` on: from the mesh control lane, or, where `own` says so, of a
write of the core's own beam or fell buffer, which carries no tag (R312). -/
structure AckMsg where
  ack : AckTo
  due : Nat
  own : Bool := false
deriving DecidableEq, Repr

/-- A push acknowledgement (R297): the step of the CHAN_SEND it retires. -/
structure MsgAck where
  step : Nat
  pick : Byte
  due : Nat := 0
deriving DecidableEq, Repr

/-- A channel credit (R296). -/
structure Credit where
  chan : Nat
  slot : Nat
  pick : Byte
  due : Nat := 0
deriving DecidableEq, Repr

/-- A filled slot of a receive-end, which a pop sees from the clk `from'` on (R305). -/
structure Filled where
  slot : Nat
  bytes : List Byte
  from' : Nat
deriving DecidableEq, Repr

/-- A receive-end (§9.6): the head slot and the filled slots. -/
structure RecvEnd where
  head : Nat := 0
  slots : List Filled := []
deriving DecidableEq, Repr

/-- A popped message that the sync unit has still to write (R298). -/
structure Popped where
  step : Nat
  bytes : List Byte
deriving DecidableEq, Repr

/-- A consumed credit of a CHAN_SEND not yet performed (R297). -/
structure Claimed where
  step : Nat
  slot : Nat
deriving DecidableEq, Repr

/-- One site of a Carder table (§7.1): its coordinates and the hash slot its key occupies (R240). -/
structure Site where
  vx : Nat
  vy : Nat
  vz : Nat
  slot : Nat
deriving DecidableEq, Repr

/-- A site table with its roster order, capacity S and probe limit Q (§7.1, R234). -/
structure SiteTable where
  sites : List Site := []
  cap : Nat := 0
  limit : Nat := 1
deriving DecidableEq, Repr

/-- A loaded weight set: the format code, K, N, the raw element codes by PE row, the E8M0 codes of an MX set, one per
element (R184, R198), and the beam offsets of the source words whose registers fail their parity (R201). -/
structure WeightSet where
  fmt : Nat
  k : Nat
  n : Nat
  rows : List (List Nat)
  scales : List (List Nat)
  bad : List Nat := []
deriving DecidableEq, Repr

/-- Lines that the array's feeder or weight feed reads together: presented from clk `due` of the array on, needed in clk
`need`, out of its feeder queue in clk `leave` (R180, R181, R184); its k-row in queued mode, the accesses still to make, the
core clk in which the last one was granted. -/
structure FeedItem where
  due : Nat
  need : Nat
  leave : Nat
  kRow : Option Nat := none
  accs : List Acc
  at' : Option Nat := none
deriving DecidableEq, Repr

/-- An accepted pass (R187): its card's step, feed start (none with KEEP), data start, s, M, N, the clk of its last take-up
write, its first row, ACC, the column results of its vectors, its reads on WA_ACT and on WA_WGT, and the register errors that
its set brings (R201). The clk are those of the array, which stand still in a stall (R183). -/
structure PassTime where
  step : Nat
  f : Option Nat
  d : Nat
  s : Nat
  m : Nat
  n : Nat
  last : Nat
  row : Nat
  acc : Bool
  cols : List (List Nat)
  act : List FeedItem
  wgt : List FeedItem
  bad : List Nat := []
deriving DecidableEq, Repr

/-- An accepted drain (R191–R193): its step and command, its first row, the rows read, the array clk from which the next row is
read, whether every row has been read. -/
structure DrainTime where
  step : Nat
  op : Dword
  row : Nat
  rows : Nat
  done : Nat
  next : Nat
deriving DecidableEq, Repr

/-- Gating and ungating of the row groups (R194, R195): nothing, gating with the clk count until the next group, or
ungating with it. -/
inductive GateSeq where
  | idle
  | gating (wait : Nat)
  | ungating (wait : Nat)
deriving DecidableEq, Repr

/-- The weave array (§5.4–§5.6). `clk` is the array's own clk, which a stall holds (R183); `active` is the set the next KEEP
pass uses, `prev` the one before it, `lost` the clk of a cancel that left no set active (R532), `passes` the passes accepted
in the pick, newest first, `drain` the drain that has not retired. -/
structure Weave where
  clk : Nat := 0
  active : Option WeightSet := none
  prev : Option WeightSet := none
  lost : Option Nat := none
  passes : List PassTime := []
  drain : Option DrainTime := none
  gated : Nat := 0
  idleClk : Nat := 0
  gateSeq : GateSeq := .idle
  noset : Bool := false
deriving DecidableEq, Repr

/-- A service beat waiting for the core's service slot (R26, R27). -/
inductive SvcBeat where
  /-- an Overseer access to the reserve: the read of a word, or the rewrite of the rest of an area from a line on (R469) -/
  | overseer (off : Nat) (rewrite : Bool)
  /-- bytes of a bolt's payload bound for the fell buffer (R40) -/
  | land (td : Td) (sp : SpoolId) (seq : Dword) (off : Nat) (bytes : List Byte)
  /-- the next beat of an outbound copy (R43) -/
  | out (td : Td) (sp : SpoolId) (seq : Dword)
  /-- a host BAR0 read: `got` is what its earlier lines gave, `bad` whether a word of them failed parity (R30, R31, R33) -/
  | bar0 (td : Td) (fn : Fn) (addr : Word) (len : Nat) (got : List Byte) (bad : Bool)
  /-- a host write to a core's registers, of a size in bytes (R518) -/
  | reg (req : Requester) (addr : Nat) (size : Nat) (val : Dword)
  /-- the next line of a Tally pass (R464) -/
  | tally (d : Die) (n : TallyNo)
deriving DecidableEq, Repr

/-- The selection of the next variant (R123, R124): not due, due, or the selector read under way since a clk, with its value. -/
inductive SelPhase where
  | idle
  | due
  | reading (variant since : Nat)
deriving DecidableEq, Repr

/-- An undo in progress (R130, R131): the core clk in which it began and the source cores still to acknowledge. -/
structure Undo where
  start : Nat
  waiting : List CoreId
  variant : Nat
deriving DecidableEq, Repr

/-- The micro-state of one loom core. Its registers, beam, card store, take-up and descriptor table are in the package's
register file and memory. `carryOld` lists, by 4 × core + map, the carry map words of other cores that this core's own copy
still holds while it runs a deck (R314); `shuStart` the clk of each shuttle's last start (R317); `heldFell` the fell buffer of an
unresolved pick (R94); `proErr` the parity errors that prologue loads met, handled in the pick they serve (R161); `gone` the
commands of cards that retired in this clk, which other units see to have ended from the next clk on (R110, R283); `knotNow` the
increments applied in this clk, by knot (R289), `appliedNow` their number (R286); `syncAt` the clk in which the sync unit last
performed a command (R284); `slotsUsed` the mesh slots used in this clk (R25); `timedOut` the transfers abandoned as TIMEOUT in
it, with what CORE_SH_FAIL says of them (R333); `send` the credits of each send-end, with the clk from which they may be used (R296); `drainFell` the lines of a fell
buffer that drain and `drainLeft` the clk that this still takes (R83); `heldResidue` the messages left at an unresolved fell (R303);
`proRun` says that the prologue of the selected variant runs (R131), and `proWrote` are the device addresses of the bytes that
prologue loads have written for the pick they serve (R128). `fellAlloc` are the
lines that the sources of staged writes count as allocated, by slice (Table 9.6). `injectDue` is an arming or a disarming that counts from the next clk on
(R525), `svcPort` the service beat that has had its slot and waits for its bank at port SVC (R148). -/
structure Core where
  run : Bool := false
  front : FrontEnd := {}
  window : List Inst := []
  lastIssue : Option (Nat × Nat) := none
  cmds : List Cmd := []
  live : List (Nat × Nat) := []
  done : Bool := false
  dead : Bool := false
  stepInst : Option StepInst := none
  sbuf : List SbEntry := []
  fell : List FellLine := []
  fellAlloc : List (Nat × Nat) := []
  heldFell : List FellLine := []
  gather : List (Nat × List GatherLine) := []
  runs : List Run := []
  banksUsed : List Nat := []
  portsUsed : List (Nat × Nat) := []
  badBuf : List (BufKind × Nat) := []
  inject : Option Nat := none
  injectDue : Option (Option Nat) := none
  weave : Weave := {}
  gone : List Cmd := []
  t0 : SiteTable := {}
  t1 : SiteTable := {}
  track : List (Nat × Track) := []
  orderNext : Nat := 0
  shuStart : List (Nat × Nat) := []
  meshOut : List Beat := []
  remoteOut : List RemoteBeat := []
  beatsIn : List Beat := []
  landing : List (Nat × List Beat) := []
  stagedIn : List StagedWrite := []
  acksIn : List AckMsg := []
  sigIn : List KnotSig := []
  knotQueue : List KnotSig := []
  knotNow : List (Nat × Nat) := []
  syncAt : Option Nat := none
  slotsUsed : List SlotClass := []
  timedOut : List (AckTo × Dword) := []
  appliedNow : Nat := 0
  msgIn : List (Msg × Nat) := []
  msgAckIn : List MsgAck := []
  creditIn : List Credit := []
  recv : List (Nat × RecvEnd) := []
  send : List (Nat × List (Nat × Nat)) := []
  popped : List Popped := []
  claimed : List Claimed := []
  svc : List SvcBeat := []
  svcPort : Option SvcBeat := none
  heldReads : List SvcBeat := []
  drainFell : List FellLine := []
  drainLeft : Option Nat := none
  heldResidue : Nat := 0
  squashing : Bool := false
  sel : SelPhase := .idle
  nextVariant : Nat := 0
  specRun : Bool := false
  proRun : Bool := false
  proWrote : List Nat := []
  undo : Option Undo := none
  captured : Bool := false
  capStop : Bool := false
  capGen : Nat := 0
  firstPick : Bool := false
  pk : Dword := 0
  carryOld : List (Nat × Dword) := []
  proErr : List Dword := []
deriving DecidableEq, Repr

/-! ## The Treadle dies -/

/-- One PCIe function (R337–R345, R367): link state, configuration settings: Bus Master Enable, Relaxed Ordering, the BAR0 size,
Max_Payload_Size, Max_Read_Request_Size, the completion timeout's range and disable, ECRC generation and checking, the AER mask and
severity of uncorrectable errors (reset values PRESUMED, log entry 34), MSI-X. -/
structure PcieFn where
  up : Bool := false
  rate : Fin 4 := 0
  width : BitVec 5 := 0
  bme : Bool := false
  relaxed : Bool := false
  bar0Log : Nat := 32
  mps : Nat := 128
  mrrs : Nat := 512
  ctoRange : BitVec 4 := 0
  ctoOff : Bool := false
  ecrcGen : Bool := false
  ecrcCheck : Bool := false
  aerMask : Word := 0x00400000
  aerSev : Word := 0x00462030
  msixEn : Bool := false
  msixMask : Bool := false
deriving DecidableEq, Repr

/-- A bolt header, its fields (Table 11.4), and whether every reserved field of it is 0. -/
structure BoltHdr where
  seq : Dword
  op : Byte
  flags : Byte
  tcore : BitVec 16
  offset : Word
  len : Word
  pick : Word
  epoch : BitVec 16
  slots : Word
  haddr : Dword
  payload : List Byte
  clean : Bool
deriving DecidableEq, Repr

/-- Where a fetched bolt is (R352–R360). -/
inductive BoltPhase where
  | waiting
  | started
  | landed
  | finished (status : Byte)
deriving DecidableEq, Repr

/-- A fetched bolt without a written ticket. `num` is its number among the bolts fetched (FETCHED), `slot0` the index of its header
slot (R349). `got` counts payload bytes received or bytes copied, `asked` the payload bytes requested, `reads` the lengths of the
requests not answered in full, oldest first (R338), `staged` the bytes that entered the fell buffer, `bytes` the data moved. -/
structure Bolt where
  hdr : BoltHdr
  num : Word
  slot0 : Word
  phase : BoltPhase
  got : Nat := 0
  asked : Nat := 0
  reads : List Nat := []
  staged : Nat := 0
  lines : Nat := 0
  bytes : List Byte := []
  digest : Option (BitVec 256) := none
  tagDone : Bool := false
  ticketed : Bool := false
deriving DecidableEq, Repr

/-- A report ticket to write (R90): its 64 bytes less PHASE. -/
structure Report where
  bytes : List Byte
deriving DecidableEq, Repr

/-- The logic of one spool beside its registers (§11.3). `reads` are the header reads not answered, oldest first, each with whether
its answer is still wanted; `short` is the SLOTS of a header that the doorbells do not cover (R348); `order` lists the numbers of
finished bolts in completion order (R362); `history` is newest first (R353); `completed` counts the bolts whose tickets have been
issued and `last` is the SEQ of the last bolt executed, the second copies of ledger 6 (Table 9.6); `rung` is the core clk of the last
accepted TAIL doorbell, with TAIL at the start of that clk (R305). -/
structure Spool where
  thead : Word := 0
  rung : Option (Nat × Word) := none
  reads : List Bool := []
  short : Option Word := none
  bolts : List Bolt := []
  order : List Word := []
  reports : List Report := []
  completed : Word := 0
  last : Dword := 0
  history : List (Dword × Byte) := []
deriving DecidableEq, Repr

/-- The CRC stream of a Treadle Tally channel (R465): the bytes included since the last restart. -/
structure TallyStream where
  bytes : List Byte := []
deriving DecidableEq, Repr

/-- One Treadle die: its functions, its spools, the lines started per core and landing pick (R355), the bolts of the pick
that failed before they landed, by spool and SEQ (R357, R371). -/
structure Treadle where
  fa : PcieFn := {}
  fb : PcieFn := {}
  spools : List (Nat × Spool) := []
  started : List (Nat × Nat) := []
  failed : List (Nat × Dword) := []
  tally : List (Nat × TallyStream) := []
deriving DecidableEq, Repr

/-! ## The Selvedge dies -/

/-- A flit of a replay buffer (R386): its SEQ, its bytes and the weft of its last transmission. -/
structure SentFlit where
  seq : Nat
  bytes : List Byte
  at' : Dword
deriving DecidableEq, Repr

/-- The micro-state of a VXF port (§12.2–§12.5). `alloc` is a channel's credit allocation, `sent` its flits sent and not yet
credited (Table 9.6), `hold` the bytes of each accepted flit that its receive buffer still holds, oldest first (R394), `replayAt` the
core clk of the last replay (R389). -/
structure Port where
  nextRound : Dword := 0
  roundOpen : Option Dword := none
  attemptAt : Dword := 0
  stageAt : Dword := 0
  probes : Nat := 0
  bestRtt : Option Nat := none
  txSeq : Nat := 1
  rxSeq : Nat := 1
  replay : List SentFlit := []
  resend : List SentFlit := []
  replayAt : Option Nat := none
  nakOwed : Bool := false
  nakSent : Bool := false
  replayCount : Nat := 0
  cred0 : Nat := 0
  cred1 : Nat := 0
  alloc0 : Nat := 0
  alloc1 : Nat := 0
  sent0 : Nat := 0
  sent1 : Nat := 0
  ret0 : Nat := 0
  ret1 : Nat := 0
  hold0 : List Nat := []
  hold1 : List Nat := []
  tx0 : List Byte := []
  tx1 : List Byte := []
  ctrlOut : List (List Byte) := []
  lastVc : Fin 2 := 1
  rx0 : List Byte := []
  rx1 : List Byte := []
  ctrlIn : List (List Byte) := []
  badRun : Nat := 0
  lastTimeSent : Dword := 0
deriving DecidableEq, Repr

/-- A request launched on a port and not yet answered (R404). -/
structure Launched where
  port : PortId
  owner : AckTo
deriving DecidableEq, Repr

/-- What crosses the mesh between a core and a Selvedge die (R385): a request bound for another package, an answer bound for one
(its header and data), a line of a WRITE packet that has been written, by the packet's header (R397), a SIGNAL_ACK or REFUSED on
its way to its shuttle (R333, R398). -/
inductive SdMsg where
  | request (header data : List Byte) (owner : AckTo)
  | answer (header data : List Byte)
  | written (header : List Byte)
  | signalAck (owner : AckTo)
  | refused (owner : AckTo)
deriving DecidableEq, Repr

/-- One Selvedge die: what crosses the mesh to or from it, with the clk in which it arrives, launched requests, the WRITE packets
being delivered, by header, with the lines still to be written (R397), why it is not done in the pick and in later picks (R78,
R400, R402), whether NOROUTE has been logged in the pick. -/
structure Selvedge where
  crossing : List (Nat × SdMsg) := []
  launched : List Launched := []
  writing : List (List Byte × Nat) := []
  causeNow : Option Byte := none
  downSince : Bool := false
  norouteLogged : Bool := false
deriving DecidableEq, Repr

/-! ## The Heddle die -/

/-- Pick generation (R51, R52, R54, R528). -/
inductive PickPhase where
  | stopped
  | waiting
  | issuing
  | window
deriving DecidableEq, Repr

/-- The package's vote for the pick (R79). -/
inductive Vote where
  | none
  | ready
  | late
deriving DecidableEq, Repr

/-- A cause noted in the pick: its code and voter (Table 2.3, R88). -/
structure Cause where
  code : Byte
  voter : BitVec 10
deriving DecidableEq, Repr

/-- A LATE vote or DROP decision as it travels: cause, package, voter (Table 12.8). -/
structure DropWho where
  code : Byte
  pkg : BitVec 10
  voter : BitVec 10
deriving DecidableEq, Repr

/-- A child's READY (R412): the port, X, the packages of its subtree. -/
structure ChildReady where
  port : PortId
  x : BitVec 256
  pkgs : List Nat
deriving DecidableEq, Repr

/-- A barrier on its way to its fire (R417): T and the weft at which the remaining delay has elapsed. -/
structure Barrier where
  t : Dword
  fireAt : Dword
  early : Bool
deriving DecidableEq, Repr

/-- The Heddle die's fixed-function logic and vote logic, beside its registers. `now` counts every core clk, `clk` those from
the pick start, `winClk` those from the opening of the fell window. `held` is a COMMIT known before the window opens, `unresolvedDue` that
the pick started while a fell was unresolved (R94), `heldSnap` the knots at the start of the unresolved pick and `heldX` its X
(R274), `onTime` that every voter was done when the window opened (R79), `srcFate` the outcome of the pick before this one as it
stood at the pick start (R92, R358), `drainPick` the identity of the pick whose lines drain, `slewOwed` the error of a lost reference and `timeOwed` the offset from the upstream package that are
still to be slewed away (R48, R408), `slewWait` the ns before which no further slew correction is made (R46). -/
structure Heddle where
  phase : PickPhase := .stopped
  k : Nat := 0
  clk : Nat := 0
  now : Nat := 0
  winClk : Nat := 0
  vote : Vote := .none
  decided : Bool := false
  committed : Bool := false
  held : Bool := false
  causes : List Cause := []
  childReady : List ChildReady := []
  unresolved : Bool := false
  unresolvedDue : Bool := false
  onTime : Bool := false
  srcFate : Nat := 1
  xPick : BitVec 256 := 0
  readyX : BitVec 256 := 0
  heldX : BitVec 256 := 0
  drainPick : Nat := 0
  refLost : Bool := false
  slewOwed : Int := 0
  timeOwed : Int := 0
  slewWait : Nat := 0
  goodRun : Nat := 0
  badRun : Nat := 0
  lastTime : Dword := 0
  barrier : Option Barrier := none
  clkChange : Bool := false
  clkDoze : Option Word := none
  clkWanted : Option Word := none
  stopAtEnd : Bool := false
  sigSent : List (Nat × Nat) := []
  sigApplied : List (Nat × Nat) := []
  knotSnap : List (Nat × Dword) := []
  heldSnap : List (Nat × Dword) := []
  gen : Nat := 0
deriving DecidableEq, Repr

/-- The Overseer pair (§14.1, §14.2). `delay` are the output delay registers of OA, oldest first; `faultPicks` are the
last 16 picks, newest first, 1 where a fault of R450 occurred; `testAt` is the cycle of the last self-test that passed, `again` the
outputs suppressed in it, which are repeated in the next (R453). -/
structure Overseer where
  delay : List (BitVec 256) := [0, 0]
  resync : Bool := false
  resyncEnded : Bool := false
  faultNow : Bool := false
  faultPicks : List Bool := []
  testAt : Option Dword := none
  again : List (BitVec 256) := []
deriving DecidableEq, Repr

/-! ## The Temple die -/

/-- A record waiting for the history digest (R274): pick number, epoch, outcome byte, X. -/
structure HistRec where
  num : Word
  epoch : BitVec 16
  outcome : Byte
  x : BitVec 256
deriving DecidableEq, Repr

/-- A flash operation in progress (R441): 1 READ, 2 PROGRAM, 3 ERASE. -/
structure FlashOp where
  op : Nat
  addr : Nat
  len : Nat
deriving DecidableEq, Repr

/-- The device settings of the selected copy (Tables 13.9, 15.9). -/
structure Settings where
  bif0 : Bool := false
  bif1 : Bool := false
  ssvid : BitVec 16 := 0
  ssid : BitVec 16 := 0
  pwrW : Nat := 1650
  pwrOther : Nat := 180
  slumberDefault : Bool := false
  wakeEn : Byte := 0x0F
  policyHost : Byte := 0x1F
  policySmb : Byte := 0x1F
  holdupMs : Nat := 20
  avsTmo : Nat := 500
  thermC : Nat := 110
  slew : BitVec 12 := 0x660
deriving DecidableEq, Repr

/-- The fuses (R3, R439, Table 16.6). -/
structure Fuses where
  rev : BitVec 4 := 0
  oz240 : Bool := false
  cores : BitVec 256 := 0
  svn : Dword := 0
  keyHash : BitVec 384 := 0
deriving DecidableEq, Repr

/-- The Temple die beside its registers. `hs` holds, per pick identity, the value of H before that pick's record was
appended (R275). -/
structure Temple where
  fuses : Fuses := {}
  settings : Settings := {}
  flash : List Host.Cell := []
  busy : Option FlashOp := none
  histQueue : List HistRec := []
  hs : List (Nat × BitVec 256) := []
deriving DecidableEq, Repr

/-! ## Power -/

/-- The power sequence under way (§15.2–§15.4): none, a one-step transition, a power-on at a step of Table 15.5, Phase A
or Phase B at a step of R482. -/
inductive PwrSeq where
  | none
  | step (target : Nat)
  | powerOn (step : Nat)
  | phaseA (target : Nat)
  | phaseB (target : Nat) (step : Nat)
deriving DecidableEq, Repr

/-- Who asks for a power state (Table 15.4, by code). -/
structure PwrAsk where
  requester : Nat
  target : Nat
  cause : Nat
deriving DecidableEq, Repr

/-- An AVSBus request outstanding on one bus (R472): the voltage, whether it raises, whether it is the repeat, the weft of
its frame. -/
structure AvsReq where
  millivolt : Nat
  raise : Bool
  repeated : Bool
  sent : Dword
deriving DecidableEq, Repr

/-- What the Heddle die copies to AUX retention at a shutdown (R482 step 2). -/
structure Retained where
  regs : List (Nat × Dword) := []
  spools0 : List (Nat × Spool) := []
  spools1 : List (Nat × Spool) := []
deriving DecidableEq, Repr

/-- The power logic of the Heddle die (§15.1–§15.8). `ask` is the request of the current or last sequence, `next` one that
came during a single step or a power-on, `pendAsk` the one queued as PENDING_UP; `cold`, `supplyFail`, `reboot` and `wake` say
why a power-on is due or a shutdown runs; `refused` that a refused power-on is being reversed; `aDone`, `aborted` that Phase A
is complete or called off; `stepAt`, `failHighSince` the weft at which the current step began and PWR_FAIL_N rose. -/
structure Power where
  seq : PwrSeq := .none
  ask : PwrAsk := { requester := 0, target := 0, cause := 0 }
  next : Option PwrAsk := none
  pendAsk : Option PwrAsk := none
  cold : Bool := false
  wake : Bool := false
  supplyFail : Bool := false
  reboot : Bool := false
  recovery : Bool := false
  refused : Bool := false
  aDone : Bool := false
  aborted : Bool := false
  stepAt : Dword := 0
  failHighSince : Option Dword := none
  enIo : Bool := false
  enSram : Bool := false
  enSerdes : Bool := false
  enCore : Bool := false
  millivolt : List (Nat × Nat) := []
  avs : List (Nat × AvsReq) := []
  samples : List Nat := []
  overCount : Nat := 0
  temps : List (Nat × BitVec 16) := []
  alert : Byte := 0
  smbLive : Bool := false
  dieDown : List Nat := []
  dieUp : List Nat := []
  dieQueue : List Nat := []
  dieOff : List Nat := []
  retained : Retained := {}
deriving DecidableEq, Repr

/-- The pins whose level the model keeps (Table 15.11). -/
structure Pins where
  vddAux : Bool := false
  resetN : Bool := false
  pwrFailN : Bool := false
  perst0 : Bool := false
  perst1 : Bool := false
  trstN : Bool := false
deriving DecidableEq, Repr

/-- The JTAG TAP (R500): held in Test-Logic-Reset, and its instruction. -/
structure Jtag where
  held : Bool := true
  op : JtagOp := .idcode
deriving DecidableEq, Repr

/-- A Tally pass of a Loom die channel (R464, R466): whether one is under way, waits for the next pick start, or is to be started
again there, and the bytes it has read. -/
structure TallyPass where
  busy : Bool := false
  pending : Bool := false
  retry : Bool := false
  got : List Byte := []
deriving DecidableEq, Repr

/-! ## Undefined bytes -/

/-- Which bytes are undefined (R67, R176): the bytes written since they were last made undefined, the granules that were
carry when picks started and are shed now, and the granules made carry while undefined with the generation they keep.
A granule is g × 128 + i; the take-up of core g is 32,768 + g. `base` is the generation at the last power-on, which
defines every byte (R529). -/
structure Undefs where
  base : Nat := 0
  written : List Nat := []
  still : List Nat := []
  kept : List (Nat × Nat) := []
deriving DecidableEq, Repr

/-- The whole machine. -/
structure State where
  pending : List Instr := []
  regs : List (Nat × Dword) := []
  mem : List Host.Cell := []
  badPar : List Nat := []
  undefs : Undefs := {}
  low : List LowHalf := []
  latches : List Latch := []
  cores : List (Nat × Core) := []
  td0 : Treadle := {}
  td1 : Treadle := {}
  ports : List (Nat × Port) := []
  sds : List (Nat × Selvedge) := []
  heddle : Heddle := {}
  overseer : Overseer := {}
  temple : Temple := {}
  power : Power := {}
  pins : Pins := {}
  jtag : Jtag := {}
  tallies : List (Nat × TallyPass) := []
  logs : List (Nat × DieLog) := []
  statusDue : List (BitVec 16) := []
  out : List Output := []
  free : Nat := 0
deriving DecidableEq, Repr

/-- The machine before a power-on (15 Table 15.3 OFF; every register at its reset value, every queue empty). -/
def State.reset : State := {}

/-- Why a command could fault the model: never raised, the block has no fault (INVENTORY.md, Faults). Safe. -/
inductive Fault where
  /-- Raised by no meaning; the type is not empty only so that the host's outcome can name it. Safe. -/
  | none
deriving DecidableEq, Repr

/-- Why the model refuses a command. -/
inductive Refusal where
  /-- The row has no meaning yet (its arm of exec says so). Safe: the machine stops. -/
  | notModelled (mnemonic : String)
deriving DecidableEq, Repr

end Sys2Proof.Machine
end

