-- ==== Sys2Proof/Machine/Ops.lean ====
section
/-! DEFINITION. The named operations over the register file, the tables of cores, ports, spools and logs, the memory with its
undefined bytes (02 R67, 05 R176) and parity (04 §4.5), the bank and store buffer of a beam (04 §4.1–§4.4), and the event
logs (14 §14.3). Every meaning is written over them. -/

namespace Sys2Proof.Machine

/-! ## Registers -/

/-- A register's value. -/
def State.getReg (s : State) (a : Nat) : Dword := sget regReset s.regs a
/-- A register set. -/
def State.setReg (s : State) (a : Nat) (v : Dword) : State := { s with regs := sset regReset s.regs a v }
/-- A register changed. -/
def State.modReg (s : State) (a : Nat) (f : Dword → Dword) : State := s.setReg a (f (s.getReg a))
/-- A saturating 32-bit counter raised by n (Table 0.8, the maps' "saturating"). -/
def State.count (s : State) (a n : Nat) : State := if n = 0 then s else s.modReg a fun v => satAdd v n
/-- A wrapping 32-bit counter raised by n. -/
def State.countWrap (s : State) (a n : Nat) : State :=
  s.modReg a fun v => BitVec.ofNat 64 ((v.toNat + n) % 2 ^ 32)

/-- The weft counter (R46). -/
def State.weft (s : State) : Nat := (s.getReg 0xC2000000).toNat
/-- The ns since an instant of the weft counter, which wraps (R46). -/
def State.since (s : State) (t : Dword) : Nat := (s.getReg 0xC2000000 - t).toNat
/-- The weft counter has reached an instant (R46): it lies at or up to 2^63 ns behind it. -/
def State.reached (s : State) (t : Dword) : Bool := s.since t < 2 ^ 63
/-- The pick number (R53). -/
def State.pickNum (s : State) : Word := BitVec.ofNat 32 (s.getReg 0xC2000038).toNat
/-- The pick epoch (R53). -/
def State.pickEpoch (s : State) : BitVec 16 := BitVec.ofNat 16 (s.getReg 0xC200003C).toNat
/-- The pick identity as epoch × 2^32 + number (R53). -/
def State.pickId (s : State) : Dword := BitVec.ofNat 64 (s.pickEpoch.toNat * 2 ^ 32 + s.pickNum.toNat)
/-- HDL_PICK_STATUS.ACTIVE. -/
def State.active (s : State) : Bool := bit (s.getReg 0xC2000024) 0
/-- HDL_PWR_STATE.STATE (Table 15.3). -/
def State.pwrState (s : State) : Nat := fld (s.getReg 0xC2001104) 2 0
/-- Pick period in µs (R50). -/
def State.period (s : State) : Nat := fld (s.getReg 0xC2000028) 19 0
/-- Core clock in MHz (R492). -/
def State.fcore (s : State) : Nat := fld (s.getReg 0xC2000044) 11 0

/-! ## Tables -/

/-- A core's micro-state. -/
def State.core (s : State) (g : CoreId) : Core := sget (fun _ => {}) s.cores g.toNat
/-- A core's micro-state set. -/
def State.setCore (s : State) (g : CoreId) (c : Core) : State :=
  { s with cores := sset (fun _ => {}) s.cores g.toNat c }
/-- A core's micro-state changed. -/
def State.modCore (s : State) (g : CoreId) (f : Core → Core) : State := s.setCore g (f (s.core g))
/-- A core register. -/
def State.creg (s : State) (g : CoreId) (o : Nat) : Dword := s.getReg (coreReg g o)
/-- A core register set. -/
def State.setCreg (s : State) (g : CoreId) (o : Nat) (v : Dword) : State := s.setReg (coreReg g o) v
/-- A saturating core counter raised. -/
def State.ccount (s : State) (g : CoreId) (o n : Nat) : State := s.count (coreReg g o) n

/-- A Treadle die. -/
def State.td (s : State) (td : Td) : Treadle := if td = 0 then s.td0 else s.td1
/-- A Treadle die set. -/
def State.setTd (s : State) (td : Td) (t : Treadle) : State := if td = 0 then { s with td0 := t } else { s with td1 := t }
/-- A spool's logic. -/
def State.spool (s : State) (td : Td) (sp : SpoolId) : Spool := sget (fun _ => {}) (s.td td).spools sp.val
/-- A spool's logic set. -/
def State.setSpool (s : State) (td : Td) (sp : SpoolId) (x : Spool) : State :=
  s.setTd td { s.td td with spools := sset (fun _ => {}) (s.td td).spools sp.val x }
/-- A function of a Treadle die (R337). -/
def State.fn (s : State) (td : Td) (f : Fn) : PcieFn := if f = 0 then (s.td td).fa else (s.td td).fb
/-- A function set. -/
def State.setFn (s : State) (td : Td) (f : Fn) (x : PcieFn) : State :=
  s.setTd td (if f = 0 then { s.td td with fa := x } else { s.td td with fb := x })
/-- A port's micro-state. -/
def State.port (s : State) (p : PortId) : Port := sget (fun _ => {}) s.ports p.val
/-- A port's micro-state set. -/
def State.setPort (s : State) (p : PortId) (x : Port) : State := { s with ports := sset (fun _ => {}) s.ports p.val x }
/-- A Selvedge die's logic. -/
def State.sd (s : State) (n : Sd) : Selvedge := sget (fun _ => {}) s.sds n.val
/-- A Selvedge die's logic set. -/
def State.setSd (s : State) (n : Sd) (x : Selvedge) : State := { s with sds := sset (fun _ => {}) s.sds n.val x }
/-- The Selvedge die of a port (R374). -/
def sdOf (p : PortId) : Sd := Fin.ofNat 4 (p.val / 6)
/-- The log logic of a die. -/
def State.log (s : State) (d : LogDie) : DieLog := sget (fun _ => {}) s.logs d.val
/-- The log logic of a die set. -/
def State.setLog (s : State) (d : LogDie) (x : DieLog) : State := { s with logs := sset (fun _ => {}) s.logs d.val x }
/-- A Loom die Tally channel's pass, by 16 × die + channel. -/
def State.tally (s : State) (d : Die) (n : TallyNo) : TallyPass := sget (fun _ => {}) s.tallies (16 * d.val + n.val)
/-- A Loom die Tally channel's pass set. -/
def State.setTally (s : State) (d : Die) (n : TallyNo) (x : TallyPass) : State :=
  { s with tallies := sset (fun _ => {}) s.tallies (16 * d.val + n.val) x }
/-- Something leaves the package (log entry 2). -/
def State.emit (s : State) (o : Output) : State := { s with out := s.out ++ [o] }
/-- A fresh free value (log entry 3). -/
def State.nextFree (s : State) : State := { s with free := s.free + 1 }

/-! ## Cores and dies that work -/

/-- The Loom die of a core (R2). -/
def dieOf (g : CoreId) : Die := Fin.ofNat 32 (g.toNat / 8)
/-- Local core c of a Loom die. -/
def coreOf (d : Die) (c : Nat) : CoreId := BitVec.ofNat 8 (8 * d.val + c)
/-- The core numbers. -/
def allCores : List CoreId := (List.range 256).map (BitVec.ofNat 8)
/-- The fuses are those of one of the two grades (R1, R3): on an OZ40-240 exactly 16 cores are fused off, at most one on any Loom
die, on an OZ40-256 none. -/
def Fuses.graded (f : Fuses) : Bool :=
  if f.oz240 then
    (List.range 256).countP (fun g => f.cores.getLsbD g) == 16 &&
      (List.range 32).all fun d => decide ((List.range 8).countP (fun c => f.cores.getLsbD (8 * d + c)) ≤ 1)
  else f.cores == 0
/-- Fused off (R3). -/
def State.fusedOff (s : State) (g : CoreId) : Bool := s.temple.fuses.cores.getLsbD g.toNat
/-- A Loom die (0–31) or Selvedge die (32–35) that is powered (R487). -/
def State.dieOn (s : State) (d : Nat) : Bool := !s.power.dieOff.contains d
/-- A working core: not fused off, its die powered (R3, R488). -/
def State.works (s : State) (g : CoreId) : Bool := !s.fusedOff g && s.dieOn (g.toNat / 8)
/-- CORE_RUN.RUN (R517). -/
def State.runs (s : State) (g : CoreId) : Bool := (s.core g).run
/-- Some core of the package runs a deck. -/
def State.anyRuns (s : State) : Bool := s.cores.any fun e => e.2.run
/-- The cores that run a deck, ascending. -/
def State.running (s : State) : List CoreId := (s.cores.filter fun e => e.2.run).map fun e => BitVec.ofNat 8 e.1
/-- CORE_HALT.CODE is not 0 (R134). -/
def State.halted (s : State) (g : CoreId) : Bool := fld (s.creg g 0x100) 7 0 != 0

/-! ## Event logs (R455, R459) -/

/-- An event detected by a die. -/
def State.logEvent (s : State) (d : LogDie) (src : Nat) (code : Nat) (aux : Nat) (data : Dword) : State :=
  let l := s.log d
  let e : Event := ⟨s.getReg 0xC2000000, BitVec.ofNat 16 code, BitVec.ofNat 16 src, s.pickNum, s.pickEpoch,
    BitVec.ofNat 16 aux, data⟩
  s.setLog d { l with now := l.now ++ [e] }
/-- An event of a core, in its Loom die's log. -/
def State.logCore (s : State) (g : CoreId) (code : Nat) (data : Dword) : State :=
  s.logEvent (Fin.ofNat 40 (g.toNat / 8)) g.toNat code 0 data
/-- An event of the Heddle die outside the Overseer. -/
def State.logHdl (s : State) (code aux : Nat) (data : Dword) : State := s.logEvent 38 0x10B code aux data
/-- An event of the Overseer. -/
def State.logOvs (s : State) (code aux : Nat) (data : Dword) : State := s.logEvent 38 0x100 code aux data
/-- An event of a Treadle die. -/
def State.logTd (s : State) (td : Td) (code aux : Nat) (data : Dword) : State :=
  s.logEvent (Fin.ofNat 40 (36 + td.val)) (0x108 + td.val) code aux data
/-- An event of a Selvedge die. -/
def State.logSd (s : State) (n : Sd) (code aux : Nat) (data : Dword) : State :=
  s.logEvent (Fin.ofNat 40 (32 + n.val)) (0x101 + n.val) code aux data
/-- An event of the Temple die. -/
def State.logTpl (s : State) (code aux : Nat) (data : Dword) : State := s.logEvent 39 0x10A code aux data
/-- An event of a Loom die's shared logic. -/
def State.logDie (s : State) (d : Die) (code aux : Nat) (data : Dword) : State :=
  s.logEvent (Fin.ofNat 40 d.val) (0x120 + d.val) code aux data

/-! ## Memory -/

/-- A device address lies in the system reserve of a beam (R167). -/
def inReserve (a : Nat) : Bool := a < 0x80000000 && 0x7F0000 ≤ a % 0x800000
/-- What an unlisted byte reads as: 0 after a power-on (R529), the reserve's contents otherwise (log entry 3). -/
def memReset (a : Nat) : Byte := if inReserve a then Config.reserveByte a else 0
/-- A stored byte. -/
def State.rawByte (s : State) (a : Nat) : Byte := sget memReset s.mem a
/-- A byte stored, whatever may be undefined about it. -/
def State.putByte (s : State) (a : Nat) (b : Byte) : State := { s with mem := sset memReset s.mem a b }
/-- A member added to a rising list of numbers. -/
def addKey : List Nat → Nat → List Nat
  | [], k => [k]
  | a :: t, k => if k < a then k :: a :: t else if k = a then a :: t else a :: addKey t k
/-- Whether a granule (R63) is carry, by the core's own map. -/
def State.carryBit (s : State) (g : CoreId) (i : Nat) : Bool := bit (s.creg g (0x300 + 4 * (i / 32))) (i % 32)
/-- Whether a granule of core t is carry in the copy that core g uses (R314). -/
def State.carryCopy (s : State) (g t : CoreId) (i : Nat) : Bool :=
  match (s.core g).carryOld.lookup (4 * t.toNat + i / 32) with
  | some v => bit v (i % 32)
  | none => s.carryBit t i
/-- The granule or take-up a device address belongs to, for undefined bytes: its core and key. -/
def undefKey (a : Nat) : Option (CoreId × Nat) :=
  if a < 0x80000000 then
    if inReserve a then none else some (BitVec.ofNat 8 (a / 0x800000), a / 0x10000)
  else if a < 0xC0000000 ∧ 0x100000 ≤ (a - 0x80000000) % 0x400000 ∧ (a - 0x80000000) % 0x400000 < 0x200000 then
    some (BitVec.ofNat 8 ((a - 0x80000000) / 0x400000), 32768 + (a - 0x80000000) / 0x400000)
  else none
/-- The generation of the pick start that made a byte undefined, none if the byte is defined (R67, R176, R278). -/
def State.undefGen (s : State) (a : Nat) : Option Nat :=
  match undefKey a with
  | none => none
  | some (g, key) =>
    if s.undefs.written.contains a then none
    else match s.undefs.kept.lookup key with
      | some k => some k
      | none =>
        let gen := if (s.core g).captured then (s.core g).capGen else s.heddle.gen
        if gen ≤ s.undefs.base ∨ s.undefs.still.contains key then none
        else if key < 32768 ∧ s.carryBit g (key % 128) then none
        else some gen
/-- The byte a read returns. -/
def State.byte (s : State) (a : Nat) : Byte :=
  match s.undefGen a with
  | some gen => Config.undefByte gen a
  | none => s.rawByte a
/-- A byte written: it is defined from now on. -/
def State.setByte (s : State) (a : Nat) (b : Byte) : State :=
  let s1 := s.putByte a b
  if (undefKey a).isSome then { s1 with undefs := { s1.undefs with written := addKey s1.undefs.written a } } else s1
/-- Bytes written at rising addresses. -/
def State.setBytes (s : State) (a : Nat) (l : List Byte) : State :=
  (l.zipIdx).foldl (fun s e => s.setByte (a + e.2) e.1) s
/-- n bytes read. -/
def State.bytes (s : State) (a n : Nat) : List Byte := (List.range n).map fun i => s.byte (a + i)

/-! ## Parity of words (R159–R161) -/

/-- The parity word of an address. -/
def wordOf (a : Nat) : Nat := 4 * (a / 4)
/-- The word at the address holds a parity error. -/
def State.badWord (s : State) (a : Nat) : Bool := s.badPar.contains (wordOf a)
/-- The parity of a word is generated anew, or left inverted. -/
def State.setPar (s : State) (a : Nat) (bad : Bool) : State :=
  { s with badPar := if bad then addKey s.badPar (wordOf a) else s.badPar.filter (· != wordOf a) }
/-- Bytes written with the parity of every word they touch generated anew (host writes, R33, R519). -/
def State.hostBytes (s : State) (a : Nat) (l : List Byte) : State :=
  let s1 := s.setBytes a l
  (List.range l.length).foldl (fun s i => s.setPar (a + i) false) s1

/-! ## Banks and the store buffer (R137–R158) -/

/-- The bank of a line (R137). -/
def bankOf (line : Nat) : Nat :=
  let r := line / 32 % 4096
  (line % 32) ^^^ (r % 32) ^^^ (r / 32 % 32) ^^^ (r / 1024 % 4)
/-- Byte i of a line. -/
def lineByte (data : BitVec 512) (i : Nat) : Byte := BitVec.ofNat 8 (data.toNat / 2 ^ (8 * i))
/-- The bytes of a line that the mask names, with their place. -/
def maskedBytes (mask : Dword) (data : BitVec 512) : List (Nat × Byte) :=
  ((List.range 64).filter fun i => bit mask i).map fun i => (i, lineByte data i)
/-- The byte mask of the places listed. -/
def maskOf (l : List (Nat × Byte)) : Dword := l.foldl (fun m e => m ||| BitVec.ofNat 64 (2 ^ (e.1 % 64))) 0
/-- The line whose listed places hold the listed bytes, the later entry of one place last. -/
def dataOf (l : List (Nat × Byte)) : BitVec 512 :=
  l.foldl (fun d e => putFld d (8 * (e.1 % 64) + 7) (8 * (e.1 % 64)) e.2.toNat) 0
/-- Words of a line the mask touches. -/
def maskWords (mask : Dword) : List Nat := (List.range 16).filter fun w => fld mask (4 * w + 3) (4 * w) != 0
/-- The mask covers part of a parity word (R138). -/
def partialMask (mask : Dword) : Bool :=
  (List.range 16).any fun w => fld mask (4 * w + 3) (4 * w) != 0 && fld mask (4 * w + 3) (4 * w) != 15

/-- A write performed in its bank: the bytes, the parity of the words it writes (`bad` names those written with inverted
parity), an armed fault that strikes (R166, R525). -/
def State.bankWrite (s : State) (g : CoreId) (line : Nat) (mask : Dword) (data : BitVec 512) (bad : BitVec 16) : State :=
  let a := beamBase g + 64 * line
  let s1 := (maskedBytes mask data).foldl (fun s e => s.setByte (a + e.1) e.2) s
  (maskWords mask).foldl (fun s w =>
      let hit := (s.core g).inject == some (64 * line + 4 * w)
      let s3 := s.setPar (a + 4 * w) (hit || bad.getLsbD w)
      if hit then s3.modCore g fun c => { c with inject := none } else s3) s1

/-- CORE_PAR_SRC's layout for an error (Table 4.4): 0b01 carry, 0b00 shed, 0b10 reserve. -/
def State.parLayout (s : State) (g : CoreId) (off port : Nat) (rerun valid : Bool) : Dword :=
  let o := wordOf off
  let kind := if 0x7F0000 ≤ o then 2 else if s.carryBit g (o / 65536) then 1 else 0
  BitVec.ofNat 64 (o + 2 ^ 23 * (o / 65536) + 2 ^ 30 * kind + 2 ^ 32 * port + (if rerun then 2 ^ 36 else 0)
    + (if valid then 2 ^ 63 else 0))

/-- A parity error that is only counted (R160, R161, R163): CORE_PAR_ERR and event 0x3002. -/
def State.parCounted (s : State) (g : CoreId) (off port : Nat) : State :=
  (s.ccount g 0x320 1).logCore g 0x3002 (s.parLayout g off port false false)

/-- The words of a line in error in its bank, among those that a mask covers in part (R160). -/
def State.mergeBad (s : State) (g : CoreId) (line : Nat) (mask : Dword) : List Nat :=
  (maskWords mask).filter fun w =>
    fld mask (4 * w + 3) (4 * w) != 15 && s.badWord (beamBase g + 64 * line + 4 * w)
/-- Words as a bit each. -/
def wordBits (l : List Nat) : BitVec 16 := BitVec.ofNat 16 (l.foldl (fun n w => n ||| 2 ^ w) 0)
/-- Parity errors of words of a line that are only counted. -/
def State.countWords (s : State) (g : CoreId) (line port : Nat) (l : List Nat) : State :=
  l.foldl (fun s w => s.parCounted g (64 * line + 4 * w) port) s
/-- The merge read of an entry that covers part of a word: its words in error are counted and kept for the write (R154, R160).
The place of PORT is 0 for an access of no port. -/
def State.mergeRead (s : State) (g : CoreId) (e : SbEntry) : State × BitVec 16 :=
  let l := s.mergeBad g e.line e.mask
  (s.countWords g e.line 0 l, wordBits l)
/-- A store buffer entry written to its bank: the words found in error by its merge read or carried in it keep their inverted
parity (R154, R160). -/
def State.writeEntry (s : State) (g : CoreId) (e : SbEntry) (keep : BitVec 16) : State :=
  s.bankWrite g e.line e.mask e.data (e.bad ||| keep)

/-- An entry leaves the store buffer for its bank at once, merge read and write. It is what a stop of the program and a host
write of an idle core's beam do (R29, R33, R435). -/
def State.drainEntry (s : State) (g : CoreId) (e : SbEntry) : State :=
  let m := match e.merged with
    | some b => (s, b)
    | none => s.mergeRead g e
  let s2 := m.1.writeEntry g e m.2
  s2.modCore g fun c => { c with sbuf := c.sbuf.erase e }

/-- Every store buffer entry for a line drains, in order (R154). -/
def State.drainLine (s : State) (g : CoreId) (line : Nat) : State :=
  (((s.core g).sbuf.filter fun e => e.line == line)).foldl (fun s e => s.drainEntry g e) s

/-- What stands for a byte of a beam once every earlier direct write has reached its bank (R156). -/
def State.beamByte (s : State) (g : CoreId) (off : Nat) : Byte :=
  match ((s.core g).sbuf.reverse.find? fun e => e.line == off / 64 && bit e.mask (off % 64)) with
  | some e => lineByte e.data (off % 64)
  | none => s.byte (beamBase g + off)

/-- The store buffer entries that share a byte with a read of a line (R156). -/
def Core.entriesFor (c : Core) (line : Nat) (used : Dword) : List SbEntry :=
  c.sbuf.filter fun e => e.line == line && e.mask &&& used != 0
/-- How the store buffer answers a read (R156). -/
inductive SbAnswer where
  /-- no entry shares a byte: the read goes to its bank -/
  | bank
  /-- the youngest entry covers every byte that the read uses -/
  | forward (e : SbEntry)
  /-- the read waits until the entries have drained -/
  | wait
deriving DecidableEq, Repr
/-- The answer to a read of a line. -/
def Core.sbAnswer (c : Core) (line : Nat) (used : Dword) : SbAnswer :=
  match (c.entriesFor line used).reverse with
  | [] => .bank
  | y :: _ => if used &&& ~~~y.mask = 0 then .forward y else .wait
/-- The words in error that a read of a line finds (R159): in the entry that is forwarded, or in the bank. -/
def State.readBad (s : State) (g : CoreId) (line : Nat) (used : Dword) : List Nat :=
  match (s.core g).sbAnswer line used with
  | .forward e => (maskWords used).filter fun w => e.bad.getLsbD w
  | _ => (maskWords used).filter fun w => s.badWord (beamBase g + 64 * line + 4 * w)
/-- All the words of a line that stand in error in its bank. -/
def State.lineBad (s : State) (g : CoreId) (line : Nat) : BitVec 16 :=
  wordBits ((List.range 16).filter fun w => s.badWord (beamBase g + 64 * line + 4 * w))

/-- The lines that byte offsets touch, in the order of first touch (R141), each with the bytes used. -/
def touchedLines : List Nat → List (Nat × Dword) → List (Nat × Dword)
  | [], acc => acc
  | o :: t, acc =>
    let l := o / 64
    let b : Dword := BitVec.ofNat 64 (2 ^ (o % 64))
    touchedLines t (if acc.any (fun e => e.1 == l) then acc.map (fun e => if e.1 == l then (l, e.2 ||| b) else e)
      else acc ++ [(l, b)])

/-- Offsets of words in error that a read of the bytes finds, by line order. -/
def State.badOf (s : State) (g : CoreId) (offs : List Nat) : List Nat :=
  (touchedLines offs []).flatMap fun e => (s.readBad g e.1 e.2).map fun w => 64 * e.1 + 4 * w
/-- The bytes read. -/
def State.beamBytes (s : State) (g : CoreId) (offs : List Nat) : List Byte := offs.map (s.beamByte g)

/-- Writes of bytes grouped by line in the order of first touch (R141, R151). -/
def groupLines (l : List (Nat × Byte)) : List (Nat × List (Nat × Byte)) :=
  l.foldl (fun acc e =>
    let n := e.1 / 64
    if acc.any (fun x => x.1 == n) then acc.map (fun x => if x.1 == n then (n, x.2 ++ [(e.1 % 64, e.2)]) else x)
    else acc ++ [(n, [(e.1 % 64, e.2)])]) []
/-! ## Halts (R134, R136) -/

/-- A core halts: the first fault is recorded (Table 3.12) and logged; a later one changes nothing. -/
def State.haltCore (s : State) (g : CoreId) (code slot addr soff : Nat) : State :=
  if s.halted g then s
  else
    let v : Dword := BitVec.ofNat 64 (code % 256 + 256 * (slot % 8) + 4096 * (addr % 2 ^ 19)
      + 2 ^ 32 * min soff 0xFFFFFFFF)
    (s.setCreg g 0x100 v).logCore g 0x2001 v

end Sys2Proof.Machine
end

