-- ==== Sys2Proof/Machine/Operands.lean ====
section
/-! DEFINITION. Operand naming (04 §4.7): descriptors of both forms, element formats, addresses of elements in element order,
bounding intervals, and the operand checks of Table 4.8 with the carry checks of R64, R65 and R314. -/

namespace Sys2Proof.Machine

/-- A descriptor (Tables 4.5 and 4.6): `clean` says that its reserved bits are 0. Sizes are minus 1, strides in bytes. -/
structure Desc where
  form : Nat
  fmt : Nat
  gath : Bool
  base : Nat
  size : List Nat
  stride : List Int
  scale : Nat
  pkg : Nat
  remote : Bool
  clean : Bool
deriving DecidableEq, Repr

/-- An MX format (Table 4.7). -/
def isMx (fmt : Nat) : Bool := fmt == 6 || fmt == 7 || fmt == 8
/-- Element width in bytes, 1 for INT4 whose elements are nibbles (Table 4.7). -/
def fmtBytes (fmt : Nat) : Nat := if fmt = 0xA ∨ fmt = 0xB ∨ fmt = 0xC then 2 else if 0xD ≤ fmt then 4 else 1

/-- The descriptor that 256 bits spell (Tables 4.5, 4.6). -/
def parseDesc (v : Nat) : Desc :=
  let f := fun hi lo => (v / 2 ^ lo) % 2 ^ (hi + 1 - lo)
  let fmt := f 6 2
  if f 1 0 = 2 then
    { form := 2, fmt := fmt, gath := f 7 7 == 1, base := f 63 32, size := [f 79 64, f 95 80, f 111 96, f 127 112],
      stride := [signed 24 (f 151 128), signed 24 (f 175 152), signed 24 (f 199 176), signed 24 (f 223 200)],
      scale := 0, pkg := f 17 8, remote := f 18 18 == 1,
      clean := f 31 19 == 0 && f 255 224 == 0 && (f 18 18 == 1 || f 17 8 == 0) }
  else
    { form := f 1 0, fmt := fmt, gath := f 7 7 == 1, base := f 30 8, size := [f 47 32, f 63 48, f 79 64, f 95 80],
      stride := [signed 24 (f 119 96), signed 24 (f 143 120), signed 24 (f 167 144), signed 24 (f 191 168)],
      scale := f 203 192, pkg := 0, remote := false,
      clean := f 31 31 == 0 && f 255 204 == 0 && (isMx fmt || f 203 192 == 0) }

/-- The descriptor of a handle in a core's descriptor table (R169). -/
def State.desc (s : State) (g : CoreId) (h : Nat) : Desc := parseDesc (leNat (s.bytes (descBase g + 32 * h) 32))
/-- The byte offset in the descriptor table of the first word of a descriptor that fails parity (R162). -/
def State.descError (s : State) (g : CoreId) (h : Nat) : Option Nat :=
  if h < 1536 then
    ((List.range 8).find? fun i => s.badWord (descBase g + 32 * h + 4 * i)).map fun i => 32 * h + 4 * i
  else none

/-- SIZEk. -/
def Desc.sz (d : Desc) (k : Nat) : Nat := d.size.getD k 0
/-- STRIDEk. -/
def Desc.st (d : Desc) (k : Nat) : Int := d.stride.getD k 0
/-- Number of elements. -/
def Desc.count (d : Desc) : Nat := (d.sz 0 + 1) * (d.sz 1 + 1) * (d.sz 2 + 1) * (d.sz 3 + 1)
/-- Element width for alignment and strides. -/
def Desc.e (d : Desc) : Nat := fmtBytes d.fmt
/-- Bytes that two elements take, the packed INT4 among them (Table 4.7). -/
def Desc.pair (d : Desc) : Nat := if d.fmt = 1 then 1 else 2 * d.e
/-- The w of R172: an element's bytes, or the packed bytes of a run of INT4 elements. -/
def Desc.w (d : Desc) : Nat := if d.fmt = 1 then (d.sz 0 + 2) / 2 else d.e
/-- The core that holds the operand: the issuing core, or the one ADDR names. -/
def Desc.core (d : Desc) (g : CoreId) : CoreId := if d.form = 2 then BitVec.ofNat 8 (d.base / 0x800000) else g
/-- Beam offset of element (0, 0, 0, 0). -/
def Desc.off (d : Desc) : Nat := if d.form = 2 then d.base % 0x800000 else d.base

/-- Beam offset, before the run's packing, of element (i0, i1, i2, i3) (R171). -/
def Desc.at (d : Desc) (i0 i1 i2 i3 : Nat) : Nat :=
  ((d.off : Int) + (if d.fmt = 1 then ((i0 / 2 : Nat) : Int) else (i0 : Int) * d.st 0) + i1 * d.st 1 + i2 * d.st 2
    + i3 * d.st 3).toNat
/-- Beam offset of the first byte of element p in element order (R171, R206). -/
def Desc.elem (d : Desc) (p : Nat) : Nat :=
  let n0 := d.sz 0 + 1
  let n1 := d.sz 1 + 1
  let n2 := d.sz 2 + 1
  d.at (p % n0) (p / n0 % n1) (p / (n0 * n1) % n2) (p / (n0 * n1 * n2))
/-- Element p of an INT4 operand is the high nibble of its byte. -/
def Desc.high (d : Desc) (p : Nat) : Bool := d.fmt == 1 && p % (d.sz 0 + 1) % 2 == 1
/-- Bytes of an operand's stream (R315). -/
def Desc.byteCount (d : Desc) : Nat := if d.fmt = 1 then d.count / 2 else d.count * d.e
/-- Offset of byte i of the stream: elements in element order, lowest byte first (R315). -/
def Desc.streamOff (d : Desc) (i : Nat) : Nat :=
  if d.fmt = 1 then d.elem (2 * i) else d.elem (i / d.e) + i % d.e
/-- The offsets of the stream's bytes. -/
def Desc.stream (d : Desc) : List Nat := (List.range d.byteCount).map d.streamOff

/-- The bounding interval (R172), as offsets that may leave the beam. -/
def Desc.interval (d : Desc) : Int × Int :=
  (List.range 4).foldl (fun x k =>
    let t := (d.sz k : Int) * d.st k
    if t < 0 then (x.1 + t, x.2) else (x.1, x.2 + t)) ((d.off : Int), (d.off : Int) + d.w - 1)

/-- A byte range of one core's beam that a command reads or writes (R106, R133). -/
structure Rng where
  core : CoreId
  lo : Int
  hi : Int
  write : Bool
deriving DecidableEq, Repr

/-- Two ranges share a byte and at least one of them is written. -/
def Rng.clash (a b : Rng) : Bool := (a.write || b.write) && a.core == b.core && a.lo ≤ b.hi && b.lo ≤ a.hi

/-- Whether x fails the injectivity test of §4.7. -/
def Desc.notInjective (d : Desc) : Bool :=
  ((List.range 4).foldl (fun (x : Int × Bool) k =>
    if d.sz k > 0 && !(d.fmt == 1 && k == 0) then
      ((x.1 + (d.sz k : Int) * (d.st k).natAbs : Int), x.2 || ((d.st k).natAbs : Int) < x.1)
    else x) ((d.w : Int), false)).2

/-- The granules of a range inside the beam. -/
def granules (lo hi : Int) : List Nat :=
  (List.range (hi.toNat / 65536 + 1 - lo.toNat / 65536)).map fun i => lo.toNat / 65536 + i

/-- One operand of a command as its slot names it (Table 4.8's roles). -/
structure Opnd where
  h : Nat
  dst : Bool := false
  lineOnly : Bool := false
  tensorOnly : Bool := true
  shuttle : Bool := false
  staged : Bool := false
  accept : Nat → Bool := fun _ => true

/-- SCALE of an MX descriptor names no valid scale tensor (R170). -/
def State.badScale (s : State) (g : CoreId) (d : Desc) : Bool :=
  isMx d.fmt && (1536 ≤ d.scale || (s.desc g d.scale).form != 1 || (s.desc g d.scale).fmt != 9)

/-- The codes of Table 4.8 that a descriptor with a valid format earns, region and carry checks included. -/
def State.placeCodes (s : State) (g : CoreId) (o : Opnd) (d : Desc) : List Nat :=
  let iv := d.interval
  let inArea := 0 ≤ iv.1 && iv.2 ≤ 0x7EFFFF && (d.form == 1 || d.base < 0x80000000)
  let t := d.core g
  let region := !inArea || (d.form == 2 && o.tensorOnly) || (d.form == 2 && d.remote && !o.shuttle) ||
    (d.form == 2 && !d.remote && !s.works t)
  let gs := if inArea && !d.remote then granules iv.1 iv.2 else []
  let carry := gs.any fun i => s.carryCopy g t i
  let shed := gs.any fun i => !s.carryCopy g t i
  let e := d.e
  let misaligned := (d.form == 1 && d.base % e != 0) || (d.form == 2 && d.base % e != 0) ||
    (List.range 4).any fun k => d.sz k > 0 && (d.st k).natAbs % e != 0
  let line := (!d.gath && d.fmt != 1 && d.sz 0 > 0 && d.st 0 != (e : Int)) || (d.gath && o.lineOnly)
  let int4 := d.fmt == 1 && (d.st 0 != 0 || d.sz 0 % 2 == 0)
  (if region || (o.dst && o.staged && shed) then [0x05] else []) ++
  (if o.dst && !o.staged && carry then [0x0C] else []) ++
  (if misaligned || line || int4 || (o.dst && d.notInjective) then [0x08] else [])

/-- The codes an operand earns (Table 4.8, R173), its MX scale tensor included. -/
def State.opndCodes (s : State) (g : CoreId) (o : Opnd) : List Nat :=
  if 1536 ≤ o.h then [0x04]
  else
    let d := s.desc g o.h
    if d.form = 0 ∨ d.form = 3 then [0x04]
    else
      let reserved := if d.clean then [] else [0x02]
      if 0x10 ≤ d.fmt then reserved ++ [0x0B]
      else
        let mx := isMx d.fmt
        let sc := s.desc g d.scale
        let scaleCodes :=
          if !mx || d.form == 2 then []
          else if s.badScale g d then [0x04]
          else (if sc.clean then [] else [0x02]) ++ s.placeCodes g { o with accept := fun f => f == 9 } sc
        let mxShape := mx && d.form == 1 && (d.st 0 != 1 || (d.sz 0 + 1) % 32 != 0 ||
          (!s.badScale g d && (sc.sz 0 + 1 != (d.sz 0 + 1) / 32 || sc.sz 1 != d.sz 1 || sc.sz 2 != d.sz 2 ||
            sc.sz 3 != d.sz 3)))
        reserved ++ s.placeCodes g o d ++ (if mxShape then [0x08] else []) ++
          (if (mx && d.form == 2) || !o.accept d.fmt then [0x0B] else []) ++ scaleCodes

/-- The ranges an operand reads or writes (R106, R133): its own and its scale tensor's; none in another package. -/
def State.opndRanges (s : State) (g : CoreId) (o : Opnd) : List Rng :=
  let d := s.desc g o.h
  if d.remote then []
  else
    let r : Rng := { core := d.core g, lo := d.interval.1, hi := d.interval.2, write := o.dst }
    if isMx d.fmt && d.form == 1 then
      let sc := s.desc g d.scale
      [r, { core := g, lo := sc.interval.1, hi := sc.interval.2, write := o.dst }]
    else [r]

end Sys2Proof.Machine
end

