-- ==== Sys2Proof/Machine/Checks.lean ====
section
/-! DEFINITION. The checks of one occupied slot at decode (03 R102–R105, R126; 05 Table 5.4, 06 Tables 6.4, 6.9, 6.12,
07 Table 7.4, 09 R293–R294, 10 Table 10.5): every code the slot earns; the lowest is the one reported (R135). -/

namespace Sys2Proof.Machine

/-- What decode carries of the deck for these checks: whether the card is a prologue card and the WH of the nearest earlier
WV_PASS with KEEP = 0 in the pick's sequence (Table 5.4). -/
structure SlotCtx where
  pro : Bool
  keepWh : Option (BitVec 12)
deriving DecidableEq, Repr

/-- Code if a condition holds. -/
def codeIf (c : Bool) (code : Nat) : List Nat := if c then [code] else []

/-- The float class (§6.2): E4M3, E5M2, BF16, FP16, FP32. -/
def isFloat (f : Nat) : Bool := f == 4 || f == 5 || f == 0xA || f == 0xB || f == 0xE
/-- The integer class (§6.2): INT8, UINT8, INT16, INT32. -/
def isInt (f : Nat) : Bool := f == 2 || f == 3 || f == 0xC || f == 0xD
/-- The bitwise class (§6.2). -/
def isBits (f : Nat) : Bool := f == 0 || f == 2 || f == 3 || f == 0xC || f == 0xD || f == 0xF
/-- The formats stochastic rounding applies to (R260), MX elements apart. -/
def isNarrow (f : Nat) : Bool := f == 4 || f == 5 || f == 0xA || f == 0xB

/-- Batten operations that read no source B (Table 6.3). -/
def btUnary (op : Nat) : Bool := op == 0x47 || op == 0x48 || op == 0x49 || op == 0x4A || op == 0x4B
/-- Batten operations that use KSEL (Table 6.2). -/
def btUsesK (op : Nat) : Bool := op == 0x43 || op == 0x44 || op == 0x4B

/-- The operands a command's slot names, by opcode (Tables 5.2, 5.3, 6.2, 6.5, 6.10, 7.3, 10.2, 10.3, 3.4). -/
def cmdOpnds (op : Dword) : List Opnd :=
  let f := fun hi lo => fld op hi lo
  let line := fun h dst => ({ h := h, dst := dst, lineOnly := true } : Opnd)
  let plain := fun h dst => ({ h := h, dst := dst } : Opnd)
  let shut := fun h dst stg => ({ h := h, dst := dst, staged := stg, shuttle := true, tensorOnly := false } : Opnd)
  let o := f 7 0
  if o = 0x20 then line (f 19 8) false :: (if bit op 45 then [] else [line (f 31 20) false])
  else if o = 0x21 then [line (f 19 8) true]
  else if 0x40 ≤ o ∧ o ≤ 0x51 then
    plain (f 19 8) false :: ((if btUnary o then [] else [plain (f 31 20) false]) ++ [plain (f 43 32) true])
  else if 0x60 ≤ o ∧ o ≤ 0x6A then [plain (f 19 8) false, plain (f 31 20) true]
  else if o = 0x80 ∨ o = 0x81 then [plain (f 19 8) false, plain (f 31 20) true]
  else if o = 0x82 ∨ o = 0x83 then [plain (f 19 8) false, plain (f 31 20) true, plain (f 43 32) false]
  else if o = 0xA0 then [plain (f 19 8) false, plain (f 31 20) true, plain (f 43 32) true]
  else if o = 0xA1 then [plain (f 19 8) true, plain (f 31 20) true]
  else if o = 0xA2 then [plain (f 19 8) false, plain (f 31 20) false, plain (f 43 32) true]
  else if o = 0xA3 then [plain (f 19 8) false, plain (f 31 20) true]
  else if o = 0xC0 then [shut (f 22 11) false false, shut (f 34 23) true (bit op 8)]
  else if o = 0xC1 then [shut (f 22 11) false false, plain (f 34 23) true, shut (f 46 35) true (bit op 8)]
  else if o = 0xE2 then [plain (f 25 14) false]
  else if o = 0xE3 then [plain (f 25 14) true]
  else []

/-- Reserved bits of a slot that are not 0, fields of a condition included (code 0x02). -/
def reservedSet (op : Dword) : Bool :=
  let f := fun hi lo => fld op hi lo
  let o := f 7 0
  if o = 0x20 then f 63 46 != 0 || (bit op 45 && f 31 20 != 0)
  else if o = 0x21 then f 63 33 != 0
  else if 0x40 ≤ o ∧ o ≤ 0x51 then
    f 63 50 != 0 || (btUnary o && f 31 20 != 0) || (!btUsesK o && f 47 44 != 0)
  else if 0x60 ≤ o ∧ o ≤ 0x6A then f 63 37 != 0 || (o != 0x6A && f 35 32 != 0)
  else if o = 0x80 ∨ o = 0x81 then f 63 32 != 0
  else if o = 0x82 ∨ o = 0x83 then f 63 44 != 0
  else if o = 0xA0 then f 63 57 != 0
  else if o = 0xA1 then f 43 32 != 0 || f 63 51 != 0 || (bit op 50 && (bit op 44 || f 48 45 != 0))
  else if o = 0xA2 then f 63 54 != 0
  else if o = 0xA3 then f 48 32 != 0 || f 63 56 != 0
  else if o = 0xC0 then (!bit op 35 && f 46 36 != 0) || (f 53 47 == 0 && f 63 54 != 0)
  else if o = 0xC1 then bit op 63 || (!bit op 47 && f 58 48 != 0)
  else if o = 0xC2 then bit op 8 || f 63 13 != 0
  else if o = 0xE0 then f 63 59 != 0
  else if o = 0xE1 then f 26 19 != 0 || f 63 59 != 0
  else if o = 0xE2 ∨ o = 0xE3 then f 63 26 != 0
  else if o = 0xE4 then f 63 40 != 0
  else false

/-- The opcodes that the engine chapters define (R103, R177, R204, R237, R313, Table 3.4). -/
def opDefined (o : Nat) : Bool :=
  o == 0x20 || o == 0x21 || (0x40 ≤ o && o ≤ 0x51) || (0x60 ≤ o && o ≤ 0x6A) || (0x80 ≤ o && o ≤ 0x83) ||
    (0xA0 ≤ o && o ≤ 0xA3) || (0xC0 ≤ o && o ≤ 0xC2) || (0xE0 ≤ o && o ≤ 0xE4)

/-- Vectors of a pass: M of §5.2. -/
def passM (op : Dword) (x : Desc) : Nat :=
  if bit op 44 then (x.sz 0 + 1) * (x.sz 2 + 1) else x.sz 1 + 1
/-- K of a pass's data. -/
def passK (op : Dword) (x : Desc) : Nat := if bit op 44 then x.sz 1 + 1 else x.sz 0 + 1
/-- The pairs of Table 5.9. -/
def wvPair (a b : Nat) : Bool :=
  ((a == 2 || a == 3) && (b == 2 || b == 3)) || (a == 1 && b == 1) || ((a == 4 || a == 5) && (b == 4 || b == 5)) ||
    ((a == 6 || a == 7) && (b == 6 || b == 7)) || (a == 8 && b == 8) || (a == 0xA && b == 0xA) || (a == 0xB && b == 0xB)

/-- Table 5.4 for a WV_PASS with its data and the weights in use; `r` says which of the two may be measured (R173). -/
def wvPassCodes (op : Dword) (r : Nat → Bool) (x w : Desc) : List Nat :=
  let q := bit op 44
  codeIf (r 1 && !bit op 45 && (w.sz 0 + 1 > 128 || w.sz 1 + 1 > (if w.fmt == 1 then 256 else 128) || w.sz 2 != 0 ||
    w.sz 3 != 0)) 0x08 ++
  codeIf (r 0 && !q && (x.sz 2 != 0 || x.sz 3 != 0)) 0x08 ++
  codeIf (r 0 && q && (x.sz 0 + 1 != (if x.fmt == 1 then 128 else 64 / x.e) || x.sz 3 != 0)) 0x08 ++
  codeIf (r 0 && r 1 && passK op x != w.sz 1 + 1) 0x08 ++
  codeIf (r 0 && (passM op x > 2048 || fld op 42 32 + passM op x > 2048)) 0x08 ++
  codeIf (r 0 && r 1 && !wvPair x.fmt w.fmt) 0x0B

/-- Table 6.4: the checks of the operands that may be measured, `form` saying that the destination has a valid form. -/
def btCodes (op : Dword) (ra rb rd form : Bool) (a b d : Desc) : List Nat :=
  let o := fld op 7 0
  let un := btUnary o
  let fl := isFloat a.fmt && (un || isFloat b.fmt) && isFloat d.fmt
  let it := isInt a.fmt && (un || isInt b.fmt) && isInt d.fmt
  let bw := isBits a.fmt && isBits b.fmt && isBits d.fmt && a.e == b.e && a.e == d.e
  let num := fun f => isFloat f || isInt f
  let ok :=
    if o = 0x43 ∨ o = 0x44 then fl
    else if o = 0x4A then num a.fmt && num d.fmt
    else if o = 0x4C then ((isFloat a.fmt && isFloat b.fmt) || (isInt a.fmt && isInt b.fmt)) && num d.fmt
    else if 0x4D ≤ o ∧ o ≤ 0x4F then bw
    else if o = 0x50 ∨ o = 0x51 then it
    else fl || it
  codeIf (form && bit op 49 && isFloat d.fmt) 0x02 ++ codeIf (form && bit op 48 && !isNarrow d.fmt) 0x02 ++
  codeIf ((ra && rd && a.count != d.count) || (!un && ((rb && rd && b.count != d.count) ||
    (ra && rb && a.count != b.count)))) 0x08 ++
  codeIf (o == 0x4B && fld op 47 44 == 15) 0x08 ++ codeIf (ra && rb && rd && !ok) 0x0B

/-- Table 6.9: the checks of the operands that may be measured, `form` saying that the destination has a valid form. -/
def rdCodes (op : Dword) (rx rd form : Bool) (x d : Desc) : List Nat :=
  let o := fld op 7 0
  let red := 0x60 ≤ o && o ≤ 0x65
  let okFmt := fun f => isFloat f || isInt f
  codeIf (o == 0x6A && 0xD ≤ fld op 35 32) 0x01 ++
  codeIf (form && bit op 36 && !(isNarrow d.fmt || isMx d.fmt)) 0x02 ++
  codeIf (rx && rd && d.count != (if red then (x.sz 1 + 1) * (x.sz 2 + 1) * (x.sz 3 + 1) else x.count)) 0x08 ++
  codeIf (rx && 0x66 ≤ o && o ≤ 0x68 && x.sz 0 + 1 > 4096) 0x08 ++ codeIf (rx && rd && o == 0x69 && d.sz 0 != x.sz 0) 0x08 ++
  codeIf (rx && isInt x.fmt && !(o == 0x60 || o == 0x62 || o == 0x63 || o == 0x65)) 0x0B ++
  codeIf (rd && o == 0x65 && d.fmt != 0xD) 0x0B ++ codeIf (rx && rd && o != 0x65 && isInt d.fmt && isFloat x.fmt) 0x0B ++
  codeIf ((rx && !okFmt x.fmt) || (rd && if o == 0x69 then !isMx d.fmt else !okFmt d.fmt)) 0x0B

/-- Table 6.12: the checks of the operands that may be measured. -/
def hlCodes (op : Dword) (rx rd ri : Bool) (x d i : Desc) : List Nat :=
  let o := fld op 7 0
  let idx := o == 0x82 || o == 0x83
  let oth := if o == 0x82 then d else x
  let ro := if o == 0x82 then rd else rx
  let plane := fun (y : Desc) => y.sz 2 != 0 || y.sz 3 != 0
  codeIf (rx && rd && o == 0x80 && x.count != d.count) 0x08 ++
  codeIf (o == 0x81 && ((rx && (plane x || (x.sz 0 + 1) * x.pair > 512 || (x.sz 1 + 1) * x.pair > 512)) || (rd && plane d) ||
    (rx && rd && (d.sz 0 != x.sz 1 || d.sz 1 != x.sz 0)))) 0x08 ++
  codeIf (idx && ((ri && (i.sz 1 != 0 || plane i)) || (rx && plane x) || (rd && plane d) ||
    (rx && rd && d.sz 0 != x.sz 0) || (ro && ri && oth.sz 1 != i.sz 0))) 0x08 ++
  codeIf ((rx && x.fmt == 1 && x.gath) || (rd && d.fmt == 1 && d.gath) || (ri && idx && i.fmt == 1 && i.gath)) 0x08 ++
  codeIf (rx && rd && (x.fmt != d.fmt || isMx x.fmt || isMx d.fmt || (x.fmt == 1 && o != 0x80))) 0x0B ++
  codeIf (ri && idx && !(i.fmt == 0xD || i.fmt == 0xC || i.fmt == 3)) 0x0B

/-- Table 7.4, by opcode with its operands in slot order: the checks of the operands that may be measured. -/
def cdCodes (op : Dword) (ra rb rc : Bool) (a b c : Desc) : List Nat :=
  let o := fld op 7 0
  let plane := fun (d : Desc) => d.sz 2 != 0 || d.sz 3 != 0
  let odd := fun f => f == 1 || isMx f || f == 9
  if o = 0xA0 then
    codeIf (ra && (a.sz 0 != 3 || plane a || a.gath)) 0x08 ++
    codeIf (rb && (b.sz 0 != 3 || b.sz 1 + 1 > 16384 || plane b)) 0x08 ++
    codeIf (rc && (c.sz 0 != 7 || (rb && c.sz 1 != b.sz 1) || plane c)) 0x08 ++
    codeIf ((ra && a.fmt != 0xE) || (rc && c.fmt != 0xE) || (rb && b.fmt != 0xC)) 0x0B
  else if o = 0xA1 then
    codeIf (rb && (b.sz 0 != 3 || b.sz 1 + 1 > 16384 || plane b)) 0x08 ++
    codeIf (ra && (a.sz 0 != 26 || plane a || (rb && a.sz 1 != b.sz 1))) 0x08 ++
    codeIf (!bit op 50 && bit op 44 == bit op 49) 0x08 ++ codeIf ((rb && b.fmt != 0xC) || (ra && a.fmt != 0xD)) 0x0B
  else if o = 0xA2 then
    let nk := fld op 53 49
    codeIf (ra && (a.sz 0 != 26 || plane a)) 0x08 ++ codeIf (nk == 0 || fld op 48 44 + nk > 27) 0x08 ++
    codeIf ((rb && rc && c.sz 0 + 1 != nk * (b.sz 0 + 1)) || (ra && rc && c.sz 1 != a.sz 1) ||
      (rb && ((b.sz 0 + 1) * b.pair > 512 || plane b)) || (rc && plane c)) 0x08 ++
    codeIf ((ra && a.fmt != 0xD) || (rb && rc && b.fmt != c.fmt) || (rb && odd b.fmt) || (rc && odd c.fmt)) 0x0B
  else
    codeIf ((ra && rb && b.sz 0 != a.sz 0) || (rb && b.sz 3 != 0) || (ra && (plane a || (a.sz 0 + 1) * a.pair > 512))) 0x08 ++
    codeIf ((ra && rb && a.fmt != b.fmt) || (rb && bit op 50 && b.fmt != 0xE) ||
      (rb && !bit op 50 && !(b.fmt == 0xE || b.fmt == 0xA || b.fmt == 0xB))) 0x0B

/-- The Selvedge die that carries this package's own traffic to a package (R399). -/
def State.originSd (s : State) (pkg : Nat) : Option Sd :=
  ([0, 1, 2, 3] : List Sd).find? fun n => fld (s.getReg (slv n (0x10000 + 8 * pkg))) 1 0 == 3

/-- This package's number (R411). -/
def State.pkg (s : State) : Nat := fld (s.getReg 0xC2000100) 9 0

/-- Table 10.5 for a copy or a relay (`ring` none for a copy): the checks of the operands that may be measured. -/
def State.shCodes (s : State) (op : Dword) (rx rd rr : Bool) (x d : Desc) (ring : Option Desc) : List Nat :=
  let noRoute := fun (y : Desc) => y.remote && (y.pkg == s.pkg || (s.originSd y.pkg).isNone)
  codeIf ((rx && rd && x.remote && d.remote) || (rx && noRoute x) || (rd && noRoute d) || (rd && bit op 8 && d.remote)) 0x05 ++
  codeIf (rx && rd && x.byteCount != d.byteCount) 0x08 ++
  (match ring with
    | none => []
    | some r =>
      let c := 64 * 2 ^ fld op 62 59
      let rg2 := (r.sz 0 + 1) * r.pair
      codeIf (fld op 62 59 > 8 || (rr && (r.gath || r.sz 1 != 0 || r.sz 2 != 0 || r.sz 3 != 0 || rg2 % (2 * c) != 0 ||
        rg2 < 4 * c)))
        0x08)

/-- R126 and Table 10.5 for the shuttle slot of a prologue card. -/
def State.prologueCodes (s : State) (g : CoreId) (op : Dword) : List Nat :=
  let x := s.desc g (fld op 22 11)
  let iv := x.interval
  codeIf (fld op 7 0 != 0xC0 || bit op 8 || fld op 53 47 != 0 || x.remote ||
    (granules iv.1 iv.2).any fun i => !s.carryCopy g (x.core g) i) 0x11

/-- A handle names a descriptor of a valid form (R170). -/
def State.formed (s : State) (g : CoreId) (h : Nat) : Bool :=
  h < 1536 && ((s.desc g h).form == 1 || (s.desc g h).form == 2)
/-- A handle names a descriptor of a valid form and format, so that its sizes are measured (R173). -/
def State.measured (s : State) (g : CoreId) (h : Nat) : Bool := s.formed g h && (s.desc g h).fmt < 0x10
/-- All operands are measured. -/
def State.opndsRead (s : State) (g : CoreId) (l : List Opnd) : Bool := l.all fun o => s.measured g o.h

/-- Every code that an occupied slot with a defined opcode of its class earns, the overlap with earlier slots apart. -/
def State.commandCodes (s : State) (g : CoreId) (ctx : SlotCtx) (op : Dword) : List Nat :=
  let o := fld op 7 0
  let os := cmdOpnds op
  let dn := fun (i : Nat) => s.desc g (os.getD i { h := 0 }).h
  let ok := fun (i : Nat) => i < os.length && s.measured g (os.getD i { h := 0 }).h
  let form := fun (i : Nat) => i < os.length && s.formed g (os.getD i { h := 0 }).h
  let sized : List Nat :=
    if o = 0x20 then
      (if bit op 45 then
        (match ctx.keepWh with
          | none => wvPassCodes op (fun i => i == 0 && ok 0) (dn 0) (dn 0)
          | some wh => wvPassCodes op (fun i => if i = 0 then ok 0 else s.measured g wh.toNat) (dn 0) (s.desc g wh.toNat))
      else wvPassCodes op ok (dn 0) (dn 1))
    else if o = 0x21 then
      codeIf (form 0 && bit op 32 && (dn 0).fmt == 0xE) 0x02 ++
      codeIf (ok 0 && ((dn 0).sz 0 + 1 > 128 || (dn 0).sz 2 != 0 || (dn 0).sz 3 != 0 ||
        fld op 30 20 + (dn 0).sz 1 > 2047)) 0x08 ++
      codeIf (ok 0 && !isFloat (dn 0).fmt) 0x0B
    else if 0x40 ≤ o ∧ o ≤ 0x51 then
      (if btUnary o then btCodes op (ok 0) (ok 0) (ok 1) (form 1) (dn 0) (dn 0) (dn 1)
      else btCodes op (ok 0) (ok 1) (ok 2) (form 2) (dn 0) (dn 1) (dn 2))
    else if 0x60 ≤ o ∧ o ≤ 0x6A then rdCodes op (ok 0) (ok 1) (form 1) (dn 0) (dn 1)
    else if 0x80 ≤ o ∧ o ≤ 0x83 then hlCodes op (ok 0) (ok 1) (ok 2) (dn 0) (dn 1) (dn 2)
    else if 0xA0 ≤ o ∧ o ≤ 0xA3 then cdCodes op (ok 0) (ok 1) (ok 2) (dn 0) (dn 1) (dn 2)
    else if o = 0xC0 then s.shCodes op (ok 0) (ok 1) false (dn 0) (dn 1) none
    else if o = 0xC1 then s.shCodes op (ok 0) (ok 2) (ok 1) (dn 0) (dn 2) (some (dn 1))
    else if o = 0xE2 ∨ o = 0xE3 then
      codeIf (ok 0 && ((dn 0).byteCount < 16 || (dn 0).byteCount > 256 || (dn 0).byteCount % 16 != 0)) 0x08
    else []
  let own : List Nat :=
    if o = 0x20 then codeIf (bit op 45 && ctx.keepWh.isNone) 0x04
    else if o = 0xE0 then
      codeIf (fld op 18 8 ≥ 1024 || !s.works (BitVec.ofNat 8 (fld op 26 19))) 0x09
    else if o = 0xE1 then codeIf (fld op 18 8 ≥ 1024) 0x09
    else if o = 0xE2 then codeIf (fld (s.getReg (routeReg g (fld op 13 8))) 63 62 != 2) 0x0A
    else if o = 0xE3 then codeIf (fld (s.getReg (routeReg g (fld op 13 8))) 63 62 != 3) 0x0A
    else []
  codeIf (reservedSet op) 0x02 ++ own ++ os.flatMap (s.opndCodes g) ++ sized ++
    (if ctx.pro && s.opndsRead g os then s.prologueCodes g op else codeIf (ctx.pro && o != 0xC0) 0x11)

/-- The ranges a command reads and writes (R106, R133). -/
def State.commandRanges (s : State) (g : CoreId) (op : Dword) : List Rng :=
  (cmdOpnds op).flatMap (s.opndRanges g)

/-- The class of an opcode is its slot's (Table 3.3). -/
def slotClass (op : Dword) : Nat := fld op 7 5

end Sys2Proof.Machine
end

