-- ==== Sys2Proof/Machine/Track.lean ====
section
/-! DEFINITION. The tracker of a core (10 R311, R312), issued commands of a slot (03 R112), and the notes of a pick's
causes (02 R88). -/

namespace Sys2Proof.Machine

/-! ## The clock and the cycle budget -/

/-- Core clk since the pick start (R528). -/
def State.clk (s : State) : Nat := s.heddle.clk
/-- Core clk since the beginning; every clk that is kept counts so (R9). -/
def State.now (s : State) : Nat := s.heddle.now
/-- The latency between two loom cores (R22): 6 clk and 12 for each bridge crossed. For the core itself what happens is seen in the
clk after it (R283). -/
def meshLat (g h : CoreId) : Nat :=
  let dist := fun (a b : Nat) => max a b - min a b
  let x := g.toNat / 8
  let y := h.toNat / 8
  if g = h then 1 else 6 + 12 * (dist (x % 8) (y % 8) + dist (x / 8) (y / 8))
/-- Clk since the fell window last opened. -/
def State.winClk (s : State) : Nat := s.heddle.winClk
/-- The reserve (R57). -/
def State.reserve (s : State) : Nat := fld (s.getReg 0xC200002C) 23 0
/-- The minimum reserve for a period and a core clock (R57). -/
def minReserve (p f : Nat) : Nat := 256 + ceilDiv (p * f) 65536
/-- B of R56 before the floor at 0: none where it would be below 1. -/
def budgetOf (p f : Nat) (ssc : Bool) (reserve : Nat) : Option Nat :=
  let total := if ssc then p * f * 995 / 1000 else p * f
  if 1024 + reserve + 1 ≤ total then some (total - 1024 - reserve) else none
/-- HDL_PICK_BUDGET (R56, R510). -/
def State.budget (s : State) : Nat :=
  if s.reserve < minReserve s.period s.fcore then 0
  else (budgetOf s.period s.fcore (bit (s.getReg 0xC2000044) 16) s.reserve).getD 0
/-- Length of the fell window in ns (§2.3). -/
def State.winLen (s : State) : Nat := ceilDiv 1024000 s.fcore
/-- The decision deadline D in ns after the opening of the fell window (R80). -/
def State.deadline (s : State) : Nat := ceilDiv 768000 s.fcore

/-- The gather buffers of an engine (Table 4.2). -/
def slotGather (slot : Nat) : List Nat :=
  match slot with
  | 2 => [3, 4]
  | 3 => [6]
  | 4 => [8]
  | 5 => [10]
  | 6 => [12]
  | _ => []

/-! ## The tracker -/

/-- A tracker entry (R312). -/
def Core.trk (c : Core) (e : Nat) : Track := sget (fun _ => {}) c.track e
/-- A tracker entry set. -/
def Core.setTrk (c : Core) (e : Nat) (t : Track) : Core := { c with track := sset (fun _ => {}) c.track e t }
/-- Entries in use. -/
def Core.inUse (c : Core) : List Nat := (c.track.filter fun x => x.2.tr.isSome).map (·.1)
/-- The lowest free entry (R311). -/
def Core.freeEntry (c : Core) : Option Nat := (List.range 64).find? fun e => (c.trk e).tr.isNone
/-- The command of a transfer has issued and has not retired: its card is in flight (R112). -/
def Core.hasCmd (c : Core) (t : Transfer) : Bool := c.cmds.any fun x => x.slot == 6 && x.step == t.step
/-- Transfers with their entry. -/
def Core.transfers (c : Core) : List (Nat × Transfer) :=
  c.track.filterMap fun x => x.2.tr.map fun t => (x.1, t)

/-- The field HIGH of CORE_SH_TRACK keeps the most entries in use of the pick (Table 10.10). -/
def State.trackHigh (s : State) (g : CoreId) : State :=
  let n := (s.core g).inUse.length
  if fld (s.creg g 0x800) 22 16 < n then s.setCreg g 0x800 (putFld (s.creg g 0x800) 22 16 n) else s

/-- A transfer takes the lowest free entry (R311); unchanged if none is free. -/
def State.takeEntry (s : State) (g : CoreId) (op : Dword) (card step : Nat) (pick : Byte) (pro confirmed : Bool) : State :=
  match (s.core g).freeEntry with
  | none => s
  | some e =>
    let c := s.core g
    let gated := fld op 7 0 == 0xC0 && fld op 53 47 != 0
    let t : Transfer :=
      { op := op, card := card, step := step, shu := Fin.ofNat 4 (fld op 10 9), pick := pick,
        phase := if gated then .gated else .ready s.now, issueOrder := c.orderNext, pro := pro, confirmed := confirmed }
    let c1 := { c with orderNext := c.orderNext + 1 }
    (s.setCore g (c1.setTrk e { gen := (c.trk e).gen, tr := some t })).trackHigh g

/-- The entry is freed and its generation advances (R312). -/
def State.freeTrk (s : State) (g : CoreId) (e : Nat) : State :=
  s.modCore g fun c => c.setTrk e { gen := (c.trk e).gen + 1, tr := none }

/-- A command's phase set. -/
def State.setCmd (s : State) (g : CoreId) (step slot : Nat) (ph : CmdPhase) : State :=
  s.modCore g fun c => { c with cmds := c.cmds.map fun x =>
    if x.step == step && x.slot == slot then { x with phase := ph } else x }

/-- A transfer ends: its entry is freed, and the command of its card has been performed (R112, R320). -/
def State.retireTransfer (s : State) (g : CoreId) (e : Nat) : State :=
  match ((s.core g).trk e).tr with
  | none => s
  | some t => (s.freeTrk g e).setCmd g t.step 6 (.running s.now)

/-- The oldest issued command of a slot that its engine has not accepted. -/
def State.nextCmd (s : State) (g : CoreId) (slot : Nat) : Option Cmd :=
  (s.core g).cmds.find? fun x => x.slot == slot && x.phase == .issued
/-- That command if its opcode is the one named. -/
def State.nextOp (s : State) (g : CoreId) (slot opcode : Nat) : Option Cmd :=
  match s.nextCmd g slot with
  | some x => if fld x.op 7 0 = opcode then some x else none
  | none => none

/-- A cause noted in the pick for the vote (R88, Table 2.3). -/
def State.cause (s : State) (code : Nat) (voter : Nat) : State :=
  let x : Cause := { code := BitVec.ofNat 8 code, voter := BitVec.ofNat 10 voter }
  if s.heddle.causes.contains x then s else { s with heddle := { s.heddle with causes := s.heddle.causes ++ [x] } }

end Sys2Proof.Machine
end

