-- ==== Sys2Proof/Machine/Front.lean ====
section
/-! DEFINITION. Parity errors of commands: the re-run of a step and the source error (04 R161, R162; 08 R265–R269; 05 R532),
and the front end of a core: variants, loops, the position of the next card (03 §3.4–§3.7). -/

namespace Sys2Proof.Machine

/-! ## Parity errors found on behalf of a command -/

/-- A cancel of the passes and the drain of a step's commands, in a clk of the array (R267, R532). -/
def Weave.cancelFrom (w : Weave) (first : Nat) : Weave :=
  let gone := w.passes.filter fun p => first ≤ p.step && w.clk ≤ p.last
  let sets := gone.filter fun p => p.f.isSome
  let w1 : Weave :=
    { w with
      passes := w.passes.filter fun p => !(first ≤ p.step && w.clk ≤ p.last)
      drain := match w.drain with | some d => if first ≤ d.step then none else some d | none => none }
  if sets = [] then w1
  else if sets.any fun p => p.d ≤ w.clk then { w1 with active := none, prev := none, lost := some w.clk }
  else { w1 with active := w.prev }
/-- The array with no pass, set or drain (R203): its gating stands, and its NOSET until the next pick start. -/
def Weave.emptied (w : Weave) : Weave :=
  { gated := w.gated, idleClk := w.idleClk, gateSeq := w.gateSeq, noset := w.noset }

/-- The run belongs to one of the commands listed. -/
def Run.ofCmds (r : Run) (l : List Cmd) : Bool :=
  match r.owner with
  | .cmd st sl => l.any fun x => x.step == st && x.slot == sl
  | .send st | .recv st => l.any fun x => x.step == st && x.slot == 7
  | _ => false

/-- The first parity error of a step instance: its unretired commands are cancelled and the step is fetched again, to issue
from t + 32 (R267, R269). `v` is the error in the layout of CORE_PAR_SRC. -/
def State.rerunStep (s : State) (g : CoreId) (si : StepInst) (v : Dword) : State :=
  let t := s.clk
  let c := s.core g
  let gone := c.cmds.filter fun x => si.first ≤ x.step
  let s1 := (c.transfers.filter fun x => si.first ≤ x.2.step && !x.2.pro).foldl (fun s x => s.freeTrk g x.1) s
  let s2 := s1.modCore g fun c =>
    { c with
      cmds := c.cmds.filter fun x => x.step < si.first
      live := c.live.filter fun x => x.1 < si.first
      window := []
      runs := c.runs.filter fun r => !r.ofCmds gone
      gather := c.gather.filter fun e => !gone.any fun x => (slotGather x.slot).contains e.1
      claimed := c.claimed.filter fun x => x.step < si.first
      popped := c.popped.filter fun x => x.step < si.first
      capStop := c.capStop && fld (s.creg g 0x130) 31 0 < si.first
      weave := c.weave.cancelFrom si.first
      front := { c.front with
        run := true, idx := si.mark.idx, loops := si.mark.loops, soff := si.mark.soff, step := si.mark.step
        keepWh := si.mark.keepWh, openDepth := none, fetched := none, loopCard := none, ended := false }
      stepInst := some { si with last := none, rerun := true, replayAt := t + 32, replaying := true } }
  let s3 := ((s2.setCreg g 0x108 (BitVec.ofNat 64 si.first)).ccount g 0x124 1).setCreg g 0x128 (BitVec.ofNat 64 si.first)
  (s3.ccount g 0x320 1).logCore g 0x3001 (putBit v 63 false)

/-- A source error: CORE_PAR_ERR, CORE_PAR_SRC if it is the first, its event, and no further card of the pick
(R161, R164, Table 4.4). `e` is the error in the layout of CORE_PAR_SRC; RERUN says that it was found during a re-run. -/
def State.sourceError (s : State) (g : CoreId) (e : Dword) : State :=
  let v := match (s.core g).stepInst with | some si => putBit e 36 si.rerun | none => e
  let s1 := s.ccount g 0x320 1
  let s2 := if bit (s1.creg g 0x328) 63 then s1 else s1.setCreg g 0x328 v
  ((s2.logCore g 0x2002 v).modCore g fun c => { c with dead := true }).cause 0x05 g.toNat

/-- The step instance that a command belongs to (R117, R265). -/
def Core.inStep (c : Core) (step : Nat) : Option StepInst :=
  match c.stepInst with
  | some si => if si.first ≤ step && (match si.last with | some l => step ≤ l | none => true) then some si else none
  | none => none

/-- A parity error of a command whose error is laid out as `v` once it is a source error (R161). -/
def State.commandParity (s : State) (g : CoreId) (step : Nat) (v : Dword) : State :=
  match (s.core g).inStep step with
  | some si =>
    if si.rerun then s.sourceError g v else s.rerunStep g si v
  | none => s.sourceError g v

/-- A parity error that a beam read of a command finds (R159, R161). -/
def State.beamParity (s : State) (g : CoreId) (step off port : Nat) : State :=
  s.commandParity g step (s.parLayout g off port false true)

/-! ## The front end -/

/-- The front end after a card of its body or deck: loops repeat or end (R114). -/
def unwind : List LoopFrame → Nat → Nat × List LoopFrame
  | [], i => (i, [])
  | f :: t, i =>
    if i ≤ f.last then (i, f :: t)
    else if 0 < f.remaining then (f.first, { f with remaining := f.remaining - 1 } :: t)
    else unwind t i

/-- The front end moved past its card. -/
def FrontEnd.advance (f : FrontEnd) : FrontEnd :=
  let r := unwind f.loops (f.idx + 1)
  { f with idx := r.1, loops := r.2, fetched := none }

/-- Which loop bodies and iterations the next card lies in, as one number (R117). -/
def loopIdent (l : List LoopFrame) : Nat :=
  l.foldl (fun n f => n * 2 ^ 64 + f.first * 2 ^ 40 + f.remaining + 1) 0

/-- The mark that a re-run returns to (R267). -/
def FrontEnd.mark (f : FrontEnd) : FrontMark :=
  { idx := f.idx, loops := f.loops, soff := f.soff, step := f.step, keepWh := f.keepWh }

/-- The shed table entry of a variant (Table 3.9). -/
def State.shedEntry (s : State) (g : CoreId) (v : Nat) : Dword := s.creg g (0x240 + 8 * (v % 8))

/-- The front end at the first card of a variant (R100, R125). -/
def State.frontFor (s : State) (g : CoreId) (v : Nat) : FrontEnd :=
  let e := s.shedEntry g v
  { run := true, idx := fld e 12 0, entry := fld e 12 0, len := fld e 26 13 }

/-- The predicted successor of a variant (R125). -/
def State.predicted (s : State) (g : CoreId) (v : Nat) : Nat :=
  let e := s.shedEntry g v
  if bit e 30 then fld e 29 27 else v

/-- The core issues and decodes: it works, runs a deck, has not halted and has met no source error in the pick; in the picks of
an unresolved fell it runs no deck (R94). -/
def State.sequencing (s : State) (g : CoreId) : Bool :=
  s.works g && (s.core g).run && !s.halted g && !(s.core g).dead && !s.heddle.unresolved

/-- A halt stops the front end as well (R134); the voter's cause is CORE_HALT (R93). -/
def State.halt (s : State) (g : CoreId) (code slot addr soff : Nat) : State :=
  ((s.haltCore g code slot addr soff).modCore g fun c => { c with front := { c.front with run := false } }).cause
    0x06 g.toNat

/-- A pick issues in which the cores may run a deck: it did not start with a fell unresolved (R94). -/
def State.deckPick (s : State) : Bool := s.heddle.phase == .issuing && !s.heddle.unresolvedDue
/-- The number of the pick that a prologue serves (R127, R128): the next one, or the present one where its prologue begins only
after its start, behind an undo (R131). -/
def State.servedPick (s : State) : Byte := BitVec.ofNat 8 (s.pickNum.toNat + if s.deckPick then 0 else 1)
/-- The prologue runs: speculatively, or for the selected variant, with no undo under way (R127, R131). -/
def State.inPrologue (s : State) (g : CoreId) : Bool :=
  let c := s.core g
  s.sequencing g && c.undo.isNone && (c.specRun || c.proRun)

/-- The prologue load of a decoded card starts (R127, R128): it takes an entry and serves its pick. -/
def State.startLoad (s : State) (g : CoreId) (i : Inst) : State :=
  match i.slots.find? fun x => x.1 == 6 with
  | none => s
  | some x => s.takeEntry g x.2 i.card i.step s.servedPick (!s.deckPick) (!(s.core g).specRun)
/-- In each clk of a prologue the load of the first decoded prologue card that has not started starts, once an entry is free
(R127, R131). -/
def State.prologueClk (s : State) (g : CoreId) : State :=
  let c := s.core g
  match c.window.find? fun i => i.pro && !i.started with
  | none => s
  | some i =>
    if s.inPrologue g && i.from' ≤ s.now && c.freeEntry.isSome then
      (s.startLoad g i).modCore g fun c =>
        { c with window := c.window.map fun j => if j.step == i.step then { j with started := true } else j }
    else s

/-! ## Fetch -/

/-- CARD_FETCH (R99, R100, R116): one card, or the halt of a fetch fault. -/
def State.cardFetch (s : State) (g : CoreId) : State :=
  let f := (s.core g).front
  if !s.sequencing g || !f.run || f.ended || f.fetched.isSome || f.loopCard.isSome then s
  else if 8192 ≤ f.idx then s.halt g 0x07 0 0x7FFC0 f.soff
  else if f.entry + f.len ≤ f.idx then s.halt g 0x07 0 (64 * f.idx) f.soff
  else if (List.range 16).any fun w => s.badWord (auxBase g + 64 * f.idx + 4 * w) then
    (s.ccount g 0x320 1).halt g 0x12 0 (64 * f.idx) f.soff
  else s.modCore g fun c => { c with front := { c.front with fetched := some f.idx } }

/-! ## Decode -/

/-- What decode makes of a card. -/
inductive Decoded where
  /-- a fault: code, slot, SOFF -/
  | fault (code slot soff : Nat)
  /-- a descriptor parity error (R162): its offset in the descriptor table -/
  | source (off : Nat)
  /-- an ISSUE instance and the front end after it, before the move to the next card -/
  | inst (i : Inst) (f : FrontEnd)
  /-- a LOOP card -/
  | loop (l : LoopFrame)
  /-- the variant's ENDPICK -/
  | endpick
deriving DecidableEq, Repr

/-- The least of a list of codes. -/
def leastCode : List Nat → Option Nat
  | [] => none
  | a :: t => match leastCode t with | none => some a | some b => some (min a b)

/-- The checks of slots k to 7 in ascending order (R102, R103, R106, R135, R162): the first fault or parity error. -/
def State.slotFault (s : State) (g : CoreId) (ctx : SlotCtx) (mask : Nat) (soff : Nat) :
    List (Nat × Dword) → List Rng → Option Decoded
  | [], _ => none
  | (k, op) :: t, prior =>
    if mask / 2 ^ (k - 1) % 2 = 0 then
      (if op = 0 then s.slotFault g ctx mask soff t prior else some (.fault 0x02 k soff))
    else if slotClass op = 0 then some (.fault 0x01 k soff)
    else if slotClass op ≠ k then some (.fault 0x03 k soff)
    else if !opDefined (fld op 7 0) || (fld op 7 0 == 0x6A && 0xD ≤ fld op 35 32) then some (.fault 0x01 k soff)
    else
      let bads := (cmdOpnds op).filterMap fun o =>
        match s.descError g o.h with
        | some e => some e
        | none =>
          if o.h < 1536 && (s.desc g o.h).form == 1 && isMx (s.desc g o.h).fmt then s.descError g (s.desc g o.h).scale else none
      match reservedSet op, bads with
      | false, b :: _ => some (.source b)
      | _, _ =>
        let rs := s.commandRanges g op
        let clash := rs.any fun r => prior.any fun p => r.clash p
        match leastCode (s.commandCodes g ctx op ++ codeIf clash 0x14) with
        | some code => some (.fault code k soff)
        | none => s.slotFault g ctx mask soff t (prior ++ rs)

/-- The seven slots of a card's bytes. -/
def cardSlots (bytes : List Byte) : List (Nat × Dword) :=
  (List.range 7).map fun i => (i + 1, BitVec.ofNat 64 (leAt bytes (8 * (i + 1)) 8))

/-- Decode of a card at an index (R101–R117, R126, R135). Of several faults of loop and deck structure in one header, and for a
slot other than 6 that a prologue card occupies, R135 names neither an order nor a slot: the least code is reported, with SLOT 0
(DESIGN CHOICE, log entry 41). -/
def State.decodeCard (s : State) (g : CoreId) (bytes : List Byte) : Decoded :=
  let c := s.core g
  let f := c.front
  let h : Dword := BitVec.ofNat 64 (leAt bytes 0 8)
  let rest := (bytes.drop 8).any fun b => b != 0
  let kind := fld h 3 0
  let lastIdx := f.entry + f.len - 1
  if kind = 1 then
    let delta := fld h 27 8
    let soff := f.soff + delta
    let pro := bit h 4
    let rb := bit h 5
    let re := bit h 6
    let ident := loopIdent f.loops
    let mask := fld h 34 28
    let opened := if rb then some ident else f.openDepth
    let marks := (rb && f.openDepth.isSome) || (re && opened != some ident)
    let proBad := pro && (f.sawPlain || f.loops != [] || f.proCount ≥ 16 || mask / 32 * 32 != mask || mask / 64 != 0)
    if bit h 7 || fld h 63 35 != 0 then .fault 0x02 0 soff
    else match leastCode (codeIf proBad 0x11 ++ codeIf marks 0x13) with
      | some code => .fault code 0 soff
      | none =>
        if delta = 0 ∧ f.step ≠ 0 then .fault 0x0F 0 soff
        else if s.budget < soff then .fault 0x0D 0 soff
        else
          let slots := cardSlots bytes
          match s.slotFault g { pro := pro, keepWh := f.keepWh } mask soff slots [] with
          | some d => d
          | none =>
            let used := slots.filter fun x => mask / 2 ^ (x.1 - 1) % 2 == 1
            let wv := (used.find? fun x => x.1 == 1 && fld x.2 7 0 == 0x20 && !bit x.2 45).map (·.2)
            .inst
              { step := f.step, soff := soff, delta := delta, card := f.idx, slots := used, pro := pro, rb := rb, re := re,
                spec := c.specRun, started := false, mark := f.mark, from' := s.now + 1 }
              { f with
                soff := soff, step := f.step + 1, proCount := f.proCount + (if pro then 1 else 0)
                sawPlain := f.sawPlain || !pro, openDepth := if re then none else opened
                keepWh := match wv with | some op => some (BitVec.ofNat 12 (fld op 31 20)) | none => f.keepWh }
  else if kind = 2 then
    let cnt := fld h 39 8
    let body := fld h 52 40
    let last := f.idx + body
    let inner := match f.loops with | [] => false | l :: _ => l.last < last
    if fld h 7 4 != 0 || fld h 63 53 != 0 || rest then .fault 0x02 0 f.soff
    else if 4 ≤ f.loops.length then .fault 0x06 0 f.soff
    else if cnt = 0 ∨ body = 0 ∨ inner = true ∨ lastIdx ≤ last then .fault 0x0E 0 f.soff
    else .loop { first := f.idx + 1, last := last, remaining := cnt - 1 }
  else if kind = 4 then
    if fld h 63 4 != 0 || rest then .fault 0x02 0 f.soff
    else if f.idx ≠ lastIdx then .fault 0x07 0 f.soff
    else if f.openDepth.isSome then .fault 0x13 0 f.soff
    else .endpick
  else .fault 0x01 0 f.soff

/-- A queue that the card's occupied slots need is full (R119, R120), whatever else is wrong with the card. -/
def Core.queueFull (c : Core) (header : Dword) : Bool :=
  fld header 3 0 == 1 && (List.range 7).any fun k => bit header (28 + k) &&
    Config.queueCap ≤ (c.window.filter fun j => j.slots.any fun y => y.1 == k + 1).length

/-- A descriptor that fails its parity at decode (R162, R164): a source error of the pick, or, while a prologue is decoded, of the
pick it serves (R161). Decode stops at the card. -/
def State.descSource (s : State) (g : CoreId) (off : Nat) : State :=
  let v : Dword := BitVec.ofNat 64 (off + 2 ^ 30 * 3 + 2 ^ 32 * 15 + 2 ^ 63)
  let stop := fun (c : Core) => { c with front := { c.front with run := false } }
  if s.deckPick && !s.heddle.decided then (s.sourceError g v).modCore g stop
  else s.modCore g fun c => { stop c with proErr := c.proErr ++ [v] }

/-- CARD_DECODE (R119–R122, R126, R127, R134, R162). -/
def State.cardDecode (s : State) (g : CoreId) : State :=
  let c := s.core g
  match c.front.fetched with
  | none => s
  | some idx =>
    let bytes := s.bytes (auxBase g + 64 * idx) 64
    if !s.sequencing g || !c.front.run || Config.windowCap ≤ c.window.length ||
        c.queueFull (BitVec.ofNat 64 (leAt bytes 0 8)) then s
    else
      match s.decodeCard g bytes with
      | .fault code slot soff => s.halt g code slot (64 * idx) soff
      | .source off => s.descSource g off
      | .loop l => s.modCore g fun c => { c with front := { c.front with fetched := none, loopCard := some l } }
      | .endpick => s.modCore g fun c => { c with front := { c.front with fetched := none, ended := true } }
      | .inst i f => s.modCore g fun c => { c with front := f.advance, window := c.window ++ [i] }

/-- LOOP (R114): the decoded LOOP card is consumed and its body opens. -/
def State.loopOpen (s : State) (g : CoreId) : State :=
  match (s.core g).front.loopCard with
  | none => s
  | some l =>
    s.modCore g fun c =>
      { c with front :=
        { c.front with
          loopCard := none, idx := l.first, loops := l :: c.front.loops, sawPlain := true } }

/-- CARD_FETCH. -/
def execCardFetch (g : CoreId) (s : State) : Host.Outcome State Fault Refusal := .next (s.cardFetch g)
/-- CARD_DECODE. -/
def execCardDecode (g : CoreId) (s : State) : Host.Outcome State Fault Refusal := .next (s.cardDecode g)
/-- LOOP. -/
def execLoop (g : CoreId) (s : State) : Host.Outcome State Fault Refusal := .next (s.loopOpen g)

end Sys2Proof.Machine
end

