-- ==== Sys2Proof/Machine/Bank.lean ====
section
/-! DEFINITION. The ports and banks of a beam, clk by clk (04 §4.2–§4.4): what each port presents (R140–R142), how the banks are
granted (R144, R146, R148), what the store buffer takes and drains (R153–R156), what the gather buffers hold (R149, R150), and
how a wait delays the accesses behind it (R208, R319). -/

namespace Sys2Proof.Machine

/-! ## What a run presents -/

/-- Lines that a port presents in one clk (Table 4.2). -/
def portLines (p : Nat) : Nat := if p = 6 ∨ p = 7 ∨ p = 10 ∨ p = 11 then 2 else if p = 14 then 1 else 4
/-- A port with a gather buffer (R150). -/
def gatherPort (p : Nat) : Bool := [3, 4, 6, 8, 10, 12].contains p
/-- The clk that a run's clk are counted in: the core's, or the weave array's (R183). -/
def Run.time (r : Run) (now aclk : Nat) : Nat := if r.arr then aclk else now
/-- A wait on step x delays step y: under R208 every presentation that the schedule places after it, under R319 its own and
later groups. Bytes that a shuttle holds back (R317) delay only the bytes behind them. -/
def RunStep.delays (chain : Bool) (x y : RunStep) : Bool :=
  x.due < y.due && (chain || (x.kind == .read && x.grp ≤ y.grp) || (x.grp < y.grp && (x.kind != .pass || y.kind == .pass)))
/-- The step is presented in clk t: it is due, and no step that delays it is still waiting. -/
def Run.ready (r : Run) (t : Nat) (y : RunStep) : Bool :=
  y.due + y.late ≤ t && !(r.steps.any fun x => x.due + x.late ≤ t && x.delays r.chain y)
/-- The slot of the engine that a run belongs to. -/
def RunOwner.slot : RunOwner → Option Nat
  | .cmd _ k => some k
  | _ => none
/-- A unit presents the writes of a command only after every write of the command before it (R209). -/
def Core.writeTurn (c : Core) (i : Nat) (r : Run) : Bool :=
  match r.owner.slot with
  | some k => !(c.runs.take i).any fun q => q.owner.slot == some k && q.steps.any fun x => x.kind == .write
  | none => true
/-- A transfer sends staged writes, by its command (STG). -/
def Transfer.staged (t : Transfer) : Bool := bit t.op 8
/-- Staged writes of a transfer wait in its shuttle until those of the shuttle's earlier transfers have been accepted (R317). -/
def State.stagedTurn (s : State) (a : AckTo) : Bool :=
  let c := s.core a.core
  match (sget (fun _ => {}) c.track a.entry : Track).tr with
  | none => true
  | some t => !(c.track.any fun y => match y.2.tr with
      | some u => u.shu == t.shu && u.issueOrder < t.issueOrder && u.staged && u.moved.isNone
      | none => false)
/-- A step's bytes may leave: staged ones in their shuttle's order. -/
def State.passTurn (s : State) (r : Run) : Bool :=
  match r.owner, r.dest with
  | .leg a _, .fell | .leg a _, .mesh _ true => s.stagedTurn a
  | _, _ => true
/-- Step y of run i is presented in this clk. -/
def State.stepReady (s : State) (g : CoreId) (i : Nat) (r : Run) (y : RunStep) : Bool :=
  let c := s.core g
  r.ready (r.time s.now c.weave.clk) y && (match y.kind with
    | .read => true
    | .write => c.writeTurn i r
    | .pass => s.passTurn r)

/-- Which list a presented access stands in: step j of run i, or item j of pass i on WA_WGT or WA_ACT. -/
inductive AccKey where
  | run (i j : Nat)
  | feed (wgt : Bool) (i j : Nat)
deriving DecidableEq, Repr

/-- A presented access: where it stands, its port, the access, whether it fills the gather buffer. -/
structure Pres where
  key : AccKey
  port : Nat
  acc : Acc
  fill : Bool
deriving DecidableEq, Repr

/-- The runs of a core with their places, those of SH_R and SH_W in the order of R318, sync accesses last (R300). -/
def Core.runsFor (c : Core) (port : Nat) : List (Run × Nat) :=
  if port = 12 ∨ port = 13 then
    let sync := fun (r : Run) => match r.owner with | .send _ | .recv _ => true | _ => false
    let sh := c.runs.zipIdx.filter fun x => !sync x.1
    (sh.mergeSort fun a b => a.1.order ≤ b.1.order) ++ c.runs.zipIdx.filter fun x => sync x.1
  else c.runs.zipIdx
/-- The accesses that the runs of a core have for a port in this clk, in order (R141, R318). -/
def State.runPres (s : State) (g : CoreId) (port : Nat) : List Pres :=
  ((s.core g).runsFor port).flatMap fun x => (x.1.steps.zipIdx).flatMap fun y =>
    if y.1.port == port && y.1.kind != .pass && s.stepReady g x.2 x.1 y.1 then
      y.1.accs.map fun a => { key := .run x.2 y.2, port := port, acc := a, fill := y.1.gath && gatherPort port }
    else []
/-- The feed of the passes on WA_ACT or WA_WGT, oldest pass first: every item whose clk has come, and whose k-row has a free
place in its queue of two lines (R180, R181, R184). -/
def feedPres (wgt : Bool) (clk : Nat) : List (FeedItem × Nat × Nat) → List Nat → List Pres
  | [], _ => []
  | (x, i, j) :: t, held =>
    let full : Bool := match x.kRow with | some k => decide (2 ≤ held.countP fun h => h == k) | none => false
    if clk < x.due ∨ full then []
    else x.accs.map (fun a => { key := .feed wgt i j, port := if wgt then 1 else 0, acc := a, fill := false }) ++
      feedPres wgt clk t (match x.kRow with | some k => k :: held | none => held)
/-- The items of the feed of all passes with their places. -/
def Weave.items (w : Weave) (wgt : Bool) : List (FeedItem × Nat × Nat) :=
  w.passes.zipIdx.reverse.flatMap fun p => ((if wgt then p.1.wgt else p.1.act).zipIdx).map fun x => (x.1, p.2, x.2)
/-- The accesses waiting at a port in this clk. -/
def State.pres (s : State) (g : CoreId) (port : Nat) : List Pres :=
  let w := (s.core g).weave
  (if port = 0 then feedPres false w.clk (w.items false) [] else if port = 1 then feedPres true w.clk (w.items true) []
    else []) ++ s.runPres g port
/-- Of those, the ones that the port presents in this clk: at most its lines per clk, up to the first that names a bank that an
earlier one names (R140, R142). -/
def presented : Nat → List Nat → List Pres → List Pres
  | _, _, [] => []
  | n, banks, x :: t =>
    if n = 0 ∨ banks.contains (bankOf x.acc.line) then [] else x :: presented (n - 1) (bankOf x.acc.line :: banks) t
/-- What a port presents in this clk beside what it has already had granted in it. -/
def State.presents (s : State) (g : CoreId) (port : Nat) : List Pres :=
  let had := ((s.core g).portsUsed.filter fun e => e.1 == port).map (·.2)
  presented (portLines port - had.length) had (s.pres g port)

/-! ## The grants of one clk (R144) -/

/-- The outcome of a clk at the banks of a core: the banks taken, the reads answered, the writes performed, the writes that
enter the store buffer, its entries that are granted, the writes held, whether an access lost its bank, whether a read waited
for the store buffer. -/
structure Arb where
  used : List Nat
  reads : List Pres := []
  writes : List Pres := []
  enters : List Pres := []
  drains : List SbEntry := []
  held : List Pres := []
  lost : Bool := false
  wait : Bool := false
deriving DecidableEq, Repr

/-- The store buffer offers to each bank the oldest entry that it holds for that bank (R154). -/
def Arb.drain (a : Arb) (l : List SbEntry) : Arb :=
  l.foldl (fun a e => if e.out || a.used.contains (bankOf e.line) then a
    else { a with used := bankOf e.line :: a.used, drains := a.drains ++ [e] }) a
/-- The accesses that a port presents (R146, R153, R155, R156). A write whose line has an entry, or that covers part of a
parity word, enters the store buffer and asks for no bank. -/
def Arb.port (c : Core) : List Pres → Arb → Arb
  | [], a => a
  | x :: t, a =>
    let b := bankOf x.acc.line
    match x.acc.data with
    | none =>
      (match c.sbAnswer x.acc.line x.acc.mask with
        | .forward _ => Arb.port c t { a with reads := a.reads ++ [x] }
        | .wait => Arb.port c t { a with wait := true }
        | .bank =>
          if a.used.contains b then Arb.port c t { a with lost := true }
          else Arb.port c t { a with used := b :: a.used, reads := a.reads ++ [x] })
    | some _ =>
      let forced := x.acc.must || partialMask x.acc.mask || c.sbuf.any (fun e => e.line == x.acc.line) ||
        a.enters.any fun y => y.acc.line == x.acc.line
      if !forced && !a.used.contains b then Arb.port c t { a with used := b :: a.used, writes := a.writes ++ [x] }
      else if Config.storeBufferCap ≤ c.sbuf.length + a.enters.length then
        { a with lost := a.lost || !forced, held := a.held ++ [x] }
      else Arb.port c t { a with lost := a.lost || !forced, enters := a.enters ++ [x] }

/-- The lines of a fell buffer that drain in this clk: the first of each slice (R83). -/
def slicesHead : List FellLine → List Nat → List FellLine
  | [], _ => []
  | x :: t, banks => if banks.contains (bankOf x.line) then slicesHead t banks else x :: slicesHead t (bankOf x.line :: banks)
/-- The lines that drain now. -/
def Core.draining (c : Core) : List FellLine := slicesHead c.drainFell []

/-- The grants of this clk at a core, SVC apart (R144). -/
def State.arb (s : State) (g : CoreId) : Arb :=
  let c := s.core g
  let a0 : Arb := { used := (c.draining.map fun x => bankOf x.line) ++ c.banksUsed }
  let full := decide (Config.storeBufferCap ≤ c.sbuf.length)
  let a1 := if full then a0.drain c.sbuf else a0
  let a2 := (List.range 14).foldl (fun a p => Arb.port c (s.presents g p) a) a1
  if full then a2 else a2.drain c.sbuf
/-- SVC takes a bank only in a clk in which no other access wants it (R148). -/
def State.svcFree (s : State) (g : CoreId) (bank : Nat) : Bool := !(s.arb g).used.contains bank

/-! ## Performing them -/

/-- Accesses made: they leave their steps and items; an item that has all its lines notes the clk. -/
def Core.made (c : Core) (l : List Pres) (now : Nat) : Core :=
  let rest := fun (k : AccKey) (accs : List Acc) => accs.filter fun x => !l.any fun y => y.key == k && y.acc.line == x.line
  let feed := fun (wgt : Bool) (i : Nat) (items : List FeedItem) => items.mapIdx fun j x =>
    let accs := rest (.feed wgt i j) x.accs
    { x with accs := accs, at' := if x.at'.isNone && accs.isEmpty then some now else x.at' }
  { c with
    runs := c.runs.mapIdx fun i r => { r with steps := r.steps.mapIdx fun j x =>
      { x with accs := rest (.run i j) x.accs } }
    weave := { c.weave with passes := c.weave.passes.mapIdx fun i p =>
      { p with act := feed false i p.act, wgt := feed true i p.wgt } } }
/-- Writes held by a full store buffer: they wait for a place in it (R155). -/
def Core.holdWrites (c : Core) (l : List Pres) : Core :=
  { c with runs := c.runs.mapIdx fun i r => { r with steps := r.steps.mapIdx fun j x =>
      { x with accs := x.accs.map fun y =>
          if l.any fun z => z.key == .run i j && z.acc.line == y.line then { y with must := true } else y } } }
/-- A gather buffer. -/
def Core.gatherOf (c : Core) (port : Nat) : List GatherLine := sget (fun _ => []) c.gather port
/-- A gather buffer set. -/
def Core.setGather (c : Core) (port : Nat) (l : List GatherLine) : Core :=
  { c with gather := sset (fun _ => []) c.gather port l }
/-- A line granted to a gathered read enters the buffer 3 clk later, when the port receives it (R145, R150). The list keeps the
lines on their way as well. -/
def Core.fillGather (c : Core) (port : Nat) (x : GatherLine) : Core :=
  let l := c.gatherOf port ++ [x]
  c.setGather port (l.drop (l.length - 32))
/-- The lines that a gather buffer holds in a clk: the last 16 that have arrived, so that a new one takes the place of the entry
filled earliest (R150). -/
def Core.gatherHeld (c : Core) (port now : Nat) : List GatherLine :=
  let l := (c.gatherOf port).filter fun e => e.at' ≤ now
  l.drop (l.length - 16)
/-- The gather buffers of an engine's ports emptied (R150). -/
def Core.emptyGather (c : Core) (ports : List Nat) : Core := ports.foldl (fun c p => c.setGather p []) c

/-- The parity bits that come with a line: those of the entry that is forwarded, or of the bank (R150, R159). -/
def State.lineParity (s : State) (g : CoreId) (line : Nat) (used : Dword) : BitVec 16 :=
  match (s.core g).sbAnswer line used with
  | .forward e => e.bad
  | _ => s.lineBad g line
/-- The selected outcomes of a clk performed (R145): reads fill the gather buffers, writes and granted entries reach their banks,
lost writes enter the store buffer. -/
def State.perform (s : State) (g : CoreId) (a : Arb) : State :=
  let now := s.now
  let s1 := s.modCore g fun c =>
    let c1 := a.reads.foldl (fun c x =>
      if x.fill then c.fillGather x.port { line := x.acc.line, bad := s.lineParity g x.acc.line x.acc.mask, at' := now + 3 }
      else c) c
    { (c1.made (a.reads ++ a.writes ++ a.enters) now).holdWrites a.held with
      banksUsed := (((a.reads.filter fun x => c.sbAnswer x.acc.line x.acc.mask = .bank) ++ a.writes).map fun x => bankOf x.acc.line)
        ++ a.drains.map (fun e => bankOf e.line) ++ c.banksUsed
      portsUsed := ((a.reads ++ a.writes ++ a.enters).map fun x => (x.port, bankOf x.acc.line)) ++ c.portsUsed }
  let s2 := a.drains.foldl (fun s e =>
    if partialMask e.mask && e.merged.isNone then
      let m := s.mergeRead g e
      m.1.modCore g fun c => { c with sbuf := c.sbuf.map fun x => if x == e then { x with merged := some m.2 } else x }
    else (s.writeEntry g e (e.merged.getD 0)).modCore g fun c =>
      { c with sbuf := c.sbuf.map fun x => if x == e then { x with out := true } else x }) s1
  let s3 := a.writes.foldl (fun s x => s.bankWrite g x.acc.line x.acc.mask (x.acc.data.getD 0) 0) s2
  s3.modCore g fun c => { c with sbuf := c.sbuf ++ a.enters.map fun x =>
    { line := x.acc.line, mask := x.acc.mask, data := x.acc.data.getD 0 } }

/-! ## Steps -/

/-- The words that a read uses and finds in error, as beam offsets. -/
def badOffs (line : Nat) (used : Dword) (bad : BitVec 16) : List Nat :=
  ((maskWords used).filter fun w => bad.getLsbD w).map fun w => 64 * line + 4 * w
/-- A parity error that a read found: for whom, through which port, at which beam offset. -/
structure ReadErr where
  owner : RunOwner
  port : Nat
  off : Nat
deriving DecidableEq, Repr
/-- A step is presented for the first time: a gathered read drops the lines that its gather buffer holds (R149). The answer
names the words in error among those it takes from there (R159). -/
def Core.begin (c : Core) (now : Nat) (owner : RunOwner) (x : RunStep) : RunStep × List ReadErr :=
  if x.begun then (x, [])
  else if x.kind == .read && x.gath && gatherPort x.port then
    let held := c.gatherHeld x.port now
    let hit := fun (a : Acc) => held.find? fun e => e.line == a.line
    ({ x with begun := true, accs := x.accs.filter fun a => (hit a).isNone },
      x.accs.flatMap fun a => match hit a with
        | some e => (badOffs a.line a.mask e.bad).map fun o => { owner := owner, port := x.port, off := o }
        | none => [])
  else ({ x with begun := true }, [])
/-- Every step that is presented for the first time in this clk, with the errors it finds in its gather buffer. -/
def State.beginSteps (s : State) (g : CoreId) : State × List ReadErr :=
  let c := s.core g
  let rs := c.runs.zipIdx.map fun r => (r.1, r.1.steps.map fun x =>
    if s.stepReady g r.2 r.1 x then c.begin s.now r.1.owner x else (x, []))
  (s.modCore g fun c => { c with runs := rs.map fun x => { x.1 with steps := x.2.map (·.1) } },
    rs.flatMap fun x => x.2.flatMap (·.2))
/-- The errors that the reads of a clk find (R159). -/
def State.arbErrs (s : State) (g : CoreId) (a : Arb) : List ReadErr :=
  let c := s.core g
  a.reads.flatMap fun x =>
    let owner : RunOwner := match x.key with
      | .run i _ => ((c.runs[i]?).map (·.owner)).getD (.cmd 0 0)
      | .feed _ i _ => .cmd (((c.weave.passes[i]?).map (·.step)).getD 0) 1
    (s.readBad g x.acc.line x.acc.mask).map fun w => { owner := owner, port := x.port, off := 64 * x.acc.line + 4 * w }

/-- Step y of a run is complete: it has been presented and all its accesses are made. -/
def State.stepDone (s : State) (g : CoreId) (i : Nat) (r : Run) (y : RunStep) : Bool :=
  y.begun && y.accs.isEmpty && s.stepReady g i r y
/-- The bytes that a completed read collects go to the step of its group that writes them or passes them on (R315, R319). -/
def RunStep.fill (bytes : List Byte) (x : RunStep) : RunStep :=
  { x with
    bytes := bytes
    accs := if x.kind == .write then (groupLines (x.dst.zip bytes)).map fun e =>
        { line := e.1, mask := maskOf e.2, data := some (dataOf e.2) } else x.accs }
/-- A run after its steps `done` are complete in its clk t: they are gone, what they delay is late (R208, R319), what they read
has gone on. -/
def Run.after (r : Run) (t : Nat) (done : List RunStep) (bytes : RunStep → List Byte) : Run :=
  { r with steps := (r.steps.filter fun x => !done.contains x).map fun y =>
      let late := done.foldl (fun n x => if x.delays r.chain y then max n (t - x.due) else n) y.late
      let z := { y with late := late }
      match done.find? fun x => x.kind == .read && x.grp == y.grp && !x.src.isEmpty && y.kind != .read with
      | some x => z.fill (bytes x)
      | none => z }

/-! ## Commands at an engine -/

/-- A command accepted: its run begins, and the gather buffers of its engine are empty (R150, R209). -/
def State.accept (s : State) (g : CoreId) (x : Cmd) (hold : Bool) (steps : List RunStep) : State :=
  (s.setCmd g x.step x.slot .waiting).modCore g fun c =>
    { c.emptyGather (slotGather x.slot) with
      runs := c.runs ++ [{ owner := .cmd x.step x.slot, hold := hold, start := s.now, steps := steps }] }
/-- An engine is not free (R209, R222, R236): an accepted command has still to present a read, or, where its unit is held to the
end, any access. -/
def Core.unitBusy (c : Core) (slot : Nat) : Bool :=
  c.runs.any fun r => r.owner.slot == some slot && r.steps.any fun x => r.hold || x.kind == .read

/-! ## The array's feed (R183, R186) -/

/-- The lines of an item have arrived (R145, R180): 3 clk after its last grant at the port, and in the array the clk after. -/
def FeedItem.arrived (x : FeedItem) (now : Nat) : Bool :=
  x.accs.isEmpty && (match x.at' with | none => true | some t => t + 4 ≤ now)
/-- The array needs in this clk what has not arrived (R183). -/
def Weave.stalls (w : Weave) (now : Nat) : Bool :=
  w.passes.any fun p => (p.act ++ p.wgt).any fun x => x.need ≤ w.clk && !x.arrived now
/-- A pass is pending: its first vector has not entered PE row 0 (R186). -/
def Weave.pending (w : Weave) (now : Nat) : Bool :=
  w.passes.any fun p => w.clk < p.d || (w.clk == p.d && w.stalls now)

/-! ## The schedule of an operand (R141, R149, R151) -/

/-- The lines of groups of byte offsets, by group: in gathered mode those that the group touches, in line mode those that no
earlier group touches, with all the bytes that the operand uses in them. -/
def readGroups (gath : Bool) (groups : List (List Nat)) : List (List Acc) :=
  if gath then groups.map fun l => (touchedLines l []).map fun e => { line := e.1, mask := e.2 }
  else
    let all := touchedLines groups.flatten []
    (groups.foldl (fun (a : List (List Acc) × List Nat) l =>
      let new := ((touchedLines l []).map (·.1)).filter fun n => !a.2.contains n
      (a.1 ++ [new.map fun n => { line := n, mask := (all.lookup n).getD 0 }], new ++ a.2)) ([], [])).1
/-- The places of a stream's bytes in groups of at most four lines (R319): in line mode by lines, in the order of first touch; in
gathered mode the longest runs that touch at most four lines and hold at most 256 B. -/
def shGroups (gath : Bool) (offs : List Nat) : List (List Nat) :=
  if gath then
    ((offs.zipIdx.foldl (fun (a : List (List (Nat × Nat))) x => match a with
      | g :: t =>
        if (x.1 / 64 :: g.map fun y => y.1 / 64).eraseDups.length ≤ 4 ∧ g.length < 256 then (x :: g) :: t else [x] :: a
      | [] => [[x]]) []).reverse).map fun g => (g.map (·.2)).reverse
  else
    let lines := (touchedLines offs []).map (·.1)
    (chunks 4 lines.length lines).map fun ls => ((offs.zipIdx).filter fun x => ls.contains (x.1 / 64)).map (·.2)
/-- The reads of a stream on SH_R from clk `start` + 1 on, group by group (R319): each is followed 3 clk later by the step that
`next` makes of its places. -/
def shReads (gath : Bool) (offs : List Nat) (start : Nat) (next : Nat → List Nat → RunStep) : List RunStep :=
  ((shGroups gath offs).zipIdx).flatMap fun x =>
    let src := x.1.map fun i => offs.getD i 0
    [{ kind := .read, port := 12, due := start + 1 + x.2, grp := x.2, gath := gath, src := src
       accs := (touchedLines src []).map fun e => { line := e.1, mask := e.2 } },
     { next x.2 x.1 with grp := x.2 }]
/-- The writes of a stream's bytes on SH_W from clk `start` + 1 on, at most four lines a clk (R298). -/
def shWrites (gath : Bool) (l : List (Nat × Byte)) (start : Nat) : List RunStep :=
  ((shGroups gath (l.map (·.1))).zipIdx).map fun x =>
    { kind := .write, port := 13, due := start + 1 + x.2, grp := x.2
      accs := (groupLines (x.1.map fun i => l.getD i (0, 0))).map fun e =>
        { line := e.1, mask := maskOf e.2, data := some (dataOf e.2) } }
/-- A run of accesses at a core begins; one that reads on SH_R empties the port's gather buffer (R150). -/
def State.addRun (s : State) (g : CoreId) (r : Run) : State :=
  s.modCore g fun c => { (if r.steps.any fun x => x.kind == .read then c.emptyGather [12] else c) with runs := c.runs ++ [r] }

/-- The line writes of groups of bytes, by group: in gathered mode the group's own, in line mode each line once, with the last
group that has bytes of it (log entry 40). -/
def writeGroups (gath : Bool) (groups : List (List (Nat × Byte))) : List (List Acc) :=
  let acc := fun (e : Nat × List (Nat × Byte)) => ({ line := e.1, mask := maskOf e.2, data := some (dataOf e.2) } : Acc)
  if gath then groups.map fun l => (groupLines l).map acc
  else
    let all := groupLines groups.flatten
    (groups.foldr (fun l (a : List (List Acc) × List Nat) =>
      let mine := ((groupLines l).map (·.1)).filter fun n => !a.2.contains n
      ((mine.filterMap fun n => (all.find? fun e => e.1 == n).map acc) :: a.1, mine ++ a.2)) ([], [])).1
/-- The read steps of an operand: group k presented in clk `due k`. -/
def readSteps (port : Nat) (gath : Bool) (groups : List (List Nat)) (due : Nat → Nat) : List RunStep :=
  (readGroups gath groups).zipIdx.map fun x =>
    { kind := .read, port := port, due := due x.2, grp := x.2, gath := gath, accs := x.1 }
/-- The write steps of an operand: group k presented in clk `due k`, raising its flags and counters. -/
def writeSteps (port : Nat) (gath : Bool) (groups : List (List (Nat × Byte))) (due : Nat → Nat)
    (flags : Nat → Nat) (counts : Nat → List (Nat × Nat)) : List RunStep :=
  (writeGroups gath groups).zipIdx.map fun x =>
    { kind := .write, port := port, due := due x.2, grp := x.2, accs := x.1, flags := flags x.2, counts := counts x.2 }

end Sys2Proof.Machine
end

