-- ==== Sys2Proof/Machine/Sync.lean ====
section
/-! DEFINITION. Knots, knot signals and channels (chapter 9): the sync slot's commands KNOT_ADD, KNOT_WAIT, CHAN_SEND,
CHAN_RECV and MARK, and what reaches a core for them. A signal, message, credit or acknowledgement arrives by its command, in the
clk that its latency gives or, where the mesh holds it, in a later one (log entry 8). -/

namespace Sys2Proof.Machine

/-- The pick bits every signal, message and credit carries (R287). -/
def State.pickBits (s : State) : Byte := BitVec.ofNat 8 s.pickNum.toNat
/-- From a drop's squash to the next pick start, what carries the dropped pick's number is discarded (R530). -/
def State.dropped (s : State) : Bool := s.heddle.decided && !s.heddle.committed
/-- A signal, message or credit with these bits is discarded as stale (R287, R530). -/
def State.stale (s : State) (b : Byte) : Bool := b != s.pickBits || s.dropped

/-! ## Knots (§9.1–§9.4) -/

/-- A knot's value. -/
def State.knot (s : State) (g : CoreId) (k : Nat) : Nat := (s.getReg (knotReg g k)).toNat
/-- The condition of a KNOT_WAIT (R289). -/
def waitHolds (k w v : Nat) : Bool := (k + 2 ^ 33 - w % 2 ^ 32 - v % 2 ^ 32) % 2 ^ 32 < 2 ^ 31
/-- The condition on a core's knot, as it stands after the increments applied up to the previous clk (R289). -/
def State.knotReady (s : State) (g : CoreId) (k v : Nat) : Bool :=
  let new := (((s.core g).knotNow.filter fun e => e.1 == k).map (·.2)).sum
  waitHolds ((s.knot g k + 2 ^ 32 - new % 2 ^ 32) % 2 ^ 32) (s.getReg (cursorReg g k)).toNat v
/-- A gated transfer on a knot that issued before a card is pending (R324, R325). -/
def State.gatePending (s : State) (g : CoreId) (k step : Nat) : Bool :=
  (s.core g).transfers.any fun x => x.2.phase == .gated && fld x.2.op 63 54 == k && x.2.step < step
/-- The cursor advanced by VALUE (R289, R324). -/
def State.consume (s : State) (g : CoreId) (k v : Nat) : State := s.countWrap (cursorReg g k) v

/-- A knot signal raised in the count of its pick (Table 9.6, ledger 3). -/
def State.sigCounted (s : State) (sent : Bool) (pick : Byte) : State :=
  let bump := fun (l : List (Nat × Nat)) => sset (fun _ => 0) l pick.toNat (sget (fun _ => 0) l pick.toNat + 1)
  { s with heddle :=
    if sent then { s.heddle with sigSent := bump s.heddle.sigSent }
    else { s.heddle with sigApplied := bump s.heddle.sigApplied } }

/-- The crossing between a loom core and a Selvedge die, through the nearer of its attach dies (R385, Table 1.3). -/
def sdLat (n : Sd) (g : CoreId) : Nat :=
  let dist := fun (a b : Nat) => max a b - min a b
  let d := g.toNat / 8
  let far := fun (x : Nat) => dist (x % 8) (d % 8) + dist (x / 8) (d / 8)
  let x := [1, 5, 25, 29].getD n.val 0
  6 + 12 * (min (far x) (far (x + 1)) + 1)
/-- Something sets out across the mesh between a core and a Selvedge die (R385). -/
def State.cross (s : State) (n : Sd) (g : CoreId) (m : SdMsg) : State :=
  s.setSd n { s.sd n with crossing := (s.sd n).crossing ++ [(s.now + sdLat n g, m)] }

/-- A signal is applied to its knot (R282): the sum is added, its KNOT_ADD or its transfer retires (R284, R285), a remote one
is acknowledged (R397). -/
def State.applySig (s : State) (g : CoreId) (x : KnotSig) : State :=
  let s1 := (s.countWrap (knotReg g x.knot) x.val.toNat).modCore g fun c =>
    { c with knotNow := c.knotNow ++ [(x.knot, x.val.toNat)], appliedNow := c.appliedNow + 1 }
  let s2 := match x.step with
    | some (h, n) => s1.setCmd h n 7 (.running s.now)
    | none => s1
  let s3 := match x.tr with
    | some a =>
      if ((s2.core a.core).trk a.entry).gen = a.gen then s2.retireTransfer a.core a.entry else s2
    | none => s2
  match x.remote with
  | some (n, header) => s3.cross n g (.answer header [])
  | none => s3.sigCounted false x.pick

/-- A signal presented to the knots of a core (R286, R287, R292): stale, held until the pick it serves, applied, queued, or
held at its source until the next clk. -/
def State.presentSig (s : State) (g : CoreId) (x : KnotSig) : State :=
  let c := s.core g
  let next := x.pick == BitVec.ofNat 8 (s.pickNum.toNat + 1) && x.pro
  let held := fun (s : State) => s.modCore g fun c => { c with sigIn := c.sigIn ++ [{ x with due := s.now + 1 }] }
  let queued := fun (s : State) => s.modCore g fun c => { c with knotQueue := c.knotQueue ++ [{ x with pro := next }] }
  let room := c.knotQueue.length < Config.knotQueueCap
  if next then (if room then queued s else held s)
  else if s.stale x.pick then s.ccount g 0x700 1
  else if c.appliedNow < Config.knotsPerClk && (c.knotQueue.filter fun y => !y.pro) = [] then s.applySig g x
  else if room then queued s
  else held s

/-- Rank of a source in the order of R286. -/
def sigRank : SigSrc → Nat
  | .own => 0
  | .shuttle n => 1 + n.val
  | .mesh => 5

/-- The first signal of least rank. -/
def firstSig (l : List KnotSig) : Option KnotSig :=
  l.foldl (fun b x => match b with
    | none => some x
    | some y => if sigRank x.src < sigRank y.src then some x else b) none

/-- KNOT_SIGNAL_ARRIVE (R286): of the signals that have arrived or present again, the one of first rank is presented. -/
def State.signalArrive (s : State) (g : CoreId) : State :=
  match firstSig ((s.core g).sigIn.filter fun x => x.due ≤ s.now) with
  | none => s
  | some x => (s.modCore g fun c => { c with sigIn := c.sigIn.erase x }).presentSig g x

/-- In each clk the queued signals are applied first, at most four (R286). -/
def State.knotClk (s : State) (g : CoreId) : State :=
  let ready := ((s.core g).knotQueue.filter fun y => !y.pro).take Config.knotsPerClk
  let s1 := s.modCore g fun c => { c with appliedNow := 0, knotNow := [], knotQueue := ready.foldl List.erase c.knotQueue }
  ready.foldl (fun s x => s.applySig g x) s1

/-! ## KNOT_ADD and KNOT_WAIT -/

/-- The first sync command of a core that is accepted and not yet performed, if its opcode is the one named and no own increment
is held before the knots (R284, R286). -/
def State.nextSync (s : State) (g : CoreId) (opcode : Nat) : Option Cmd :=
  let c := s.core g
  if c.sigIn.any fun x => x.src == .own then none
  else match c.cmds.find? fun x => x.slot == 7 && x.phase == .accepted with
    | some x => if fld x.op 7 0 = opcode then some x else none
    | none => none
/-- A CHAN_SEND or CHAN_RECV is performed in its issue clk, or in the clk after the sync command before it (R297, R298). -/
def State.syncTurn (s : State) (g : CoreId) : Bool :=
  match (s.core g).syncAt with | some t => t < s.now | none => true
/-- A sync command is performed in this clk. -/
def State.performed (s : State) (g : CoreId) : State := s.modCore g fun c => { c with syncAt := some s.now }

/-- A command of a core has written its last byte by this clk (R283: seen in the clk after the event). -/
def Cmd.acked (x : Cmd) (clk : Nat) : Bool :=
  match x.phase with
  | .running d => d < clk
  | _ => false

/-- The fence of a KNOT_ADD at a step (R283): nothing of an earlier or the same card still writes the target core or has an
unpushed message to a channel of it. -/
def State.fenceOpen (s : State) (g : CoreId) (step : Nat) (t : CoreId) : Bool :=
  let c := s.core g
  let writes := fun (op : Dword) => (s.commandRanges g op).any fun r => r.write && r.core == t
  let sends := fun (op : Dword) =>
    fld op 7 0 == 0xE2 && fld (s.getReg (routeReg g (fld op 13 8))) 59 52 == t.toNat
  let past := fun (t : Transfer) => match t.moved with | some d => d < s.now | none => false
  let moved := fun (x : Cmd) => x.slot == 6 && c.transfers.any fun y => y.2.step == x.step && past y.2
  ((c.cmds ++ c.gone).all fun x => step < x.step || (x.step == step && x.slot == 7) || x.acked s.now || moved x ||
    !(writes x.op || sends x.op)) &&
  (c.transfers.all fun x => x.2.pro || c.hasCmd x.2 || past x.2 || !writes x.2.op)

/-- KNOT_ADD (R284): accepted as a fenced increment. -/
def State.knotAdd (s : State) (g : CoreId) : State :=
  match s.nextOp g 7 0xE0 with
  | none => s
  | some x => s.setCmd g x.step 7 .accepted

/-- KNOT_ADD_SEND (R283, R284): sent once it is the next sync command to perform and its fence is open, in the clk after its issue
at the earliest; it reaches its own core in that clk, another one L clk later. -/
def State.knotAddSend (s : State) (g : CoreId) : State :=
  match s.nextSync g 0xE0 with
  | none => s
  | some x =>
    let t : CoreId := BitVec.ofNat 8 (fld x.op 26 19)
    if x.at' < s.now && s.fenceOpen g x.step t then
      let sig : KnotSig :=
        { knot := fld x.op 18 8, val := BitVec.ofNat 32 (fld x.op 58 27), pick := s.pickBits
          src := if t = g then .own else .mesh, tr := none, step := some (g, x.step), pro := false, remote := none
          due := if t = g then s.now else s.now + meshLat g t }
      (((s.setCmd g x.step 7 .waiting).performed g).modCore t fun c => { c with sigIn := c.sigIn ++ [sig] }).sigCounted
        true s.pickBits
    else s

/-- KNOT_WAIT (R289): the issued wait advances its cursor and retires. -/
def State.knotWait (s : State) (g : CoreId) : State :=
  match s.nextOp g 7 0xE1 with
  | none => s
  | some x =>
    if s.knotReady g (fld x.op 18 8) (fld x.op 58 27) && !s.gatePending g (fld x.op 18 8) x.step then
      (s.consume g (fld x.op 18 8) (fld x.op 58 27)).setCmd g x.step 7 (.running s.now)
    else s

/-- MARK (R459): its TAG is logged. -/
def State.markLog (s : State) (g : CoreId) : State :=
  match s.nextOp g 7 0xE4 with
  | none => s
  | some x => (s.logCore g 0x0001 (BitVec.ofNat 64 (fld x.op 39 8))).setCmd g x.step 7 (.running s.now)

/-! ## Channels (§9.5, §9.6) -/

/-- A route entry. -/
def State.route (s : State) (g : CoreId) (ch : Nat) : Dword := s.getReg (routeReg g ch)
/-- Senders of a receive-end: N = NSEND + 1. -/
def senders (r : Dword) : Nat := fld r 61 60 + 1
/-- The sender at a position: its core and channel (Table 9.3). -/
def senderAt (r : Dword) (i : Nat) : CoreId × Nat :=
  (BitVec.ofNat 8 (fld r (14 * i + 7) (14 * i)), fld r (14 * i + 13) (14 * i + 8))
/-- The credits of a send-end in clk 0 of a pick (R296). -/
def State.firstCredits (s : State) (g : CoreId) (ch : Nat) : List (Nat × Nat) :=
  let r := s.route g ch
  let n := senders (s.route (BitVec.ofNat 8 (fld r 59 52)) (fld r 51 46))
  if fld r 63 62 = 2 then ((List.range 16).filter fun j => j % n == fld r 45 44).map fun j => (j, 0) else []
/-- The credits a send-end holds, each with the clk from which it may be consumed. -/
def State.creditList (s : State) (g : CoreId) (ch : Nat) : List (Nat × Nat) :=
  match (s.core g).send.lookup ch with
  | some l => l
  | none => s.firstCredits g ch
/-- The credits that a CHAN_SEND may consume in this clk (R296). -/
def State.credits (s : State) (g : CoreId) (ch : Nat) : List Nat :=
  ((s.creditList g ch).filter fun e => e.2 ≤ s.now).map (·.1)
/-- The credits of a send-end set. -/
def State.setCredits (s : State) (g : CoreId) (ch : Nat) (l : List (Nat × Nat)) : State :=
  s.modCore g fun c => { c with send := (ch, l) :: c.send.filter fun e => e.1 != ch }
/-- A receive-end. -/
def Core.recvEnd (c : Core) (ch : Nat) : RecvEnd := sget (fun _ => {}) c.recv ch
/-- A receive-end set. -/
def State.setRecv (s : State) (g : CoreId) (ch : Nat) (r : RecvEnd) : State :=
  s.modCore g fun c => { c with recv := sset (fun _ => {}) c.recv ch r }
/-- What a pop sees of a slot in a clk: a message pushed in an earlier one (R305). -/
def RecvEnd.at (r : RecvEnd) (j now : Nat) : Option Filled := r.slots.find? fun x => x.slot == j && x.from' ≤ now
/-- Consecutive filled slots from the head, counted up to the fuel. -/
def RecvEnd.depthFrom (r : RecvEnd) (now : Nat) : Nat → Nat → Nat
  | 0, _ => 0
  | n + 1, j => if (r.at j now).isSome then 1 + r.depthFrom now n (j + 1) else 0
/-- The depth of a receive-end at the start of a clk (§9.6, R305). -/
def RecvEnd.depth (r : RecvEnd) (now : Nat) : Nat := r.depthFrom now 16 r.head

/-- CHAN_SEND (R297): consumes the credit of the lowest slot. -/
def State.chanSend (s : State) (g : CoreId) : State :=
  match s.nextOp g 7 0xE2 with
  | none => s
  | some x =>
    let ch := fld x.op 13 8
    match leastCode (s.credits g ch) with
    | none => s
    | some j =>
      ((s.setCredits g ch ((s.creditList g ch).filter fun e => e.1 != j)).setCmd g x.step 7 .accepted).modCore g fun c =>
        { c with claimed := c.claimed ++ [{ step := x.step, slot := j }] }

/-- The message of a CHAN_SEND with a claimed credit, before its bytes are read (R295, R297). -/
def State.message (s : State) (g : CoreId) (x : Cmd) (y : Claimed) : Msg :=
  { fromCore := g, fromChan := fld x.op 13 8, chan := fld (s.route g (fld x.op 13 8)) 51 46, slot := y.slot, bytes := []
    pick := s.pickBits, step := x.step }
/-- The accesses of a CHAN_SEND performed in this clk (R297, R319): group k is read in clk p + 1 + k and received in clk p + 4 + k. -/
def State.sendRun (s : State) (g : CoreId) (x : Cmd) (y : Claimed) : Run :=
  let d := s.desc g (fld x.op 25 14)
  { owner := .send x.step, dest := .message (BitVec.ofNat 8 (fld (s.route g (fld x.op 13 8)) 59 52)) (s.message g x y)
    order := s.now * 2048 + g.toNat * 8 + 4, chain := false, start := s.now, into := d.stream
    steps := shReads d.gath d.stream s.now fun k places =>
      { kind := .pass, port := 12, due := s.now + 4 + k, dst := places } }
/-- CHAN_SEND_PERFORM (R297): the reads of the message begin on SH_R. -/
def State.chanSendPerform (s : State) (g : CoreId) : State :=
  match s.nextSync g 0xE2 with
  | none => s
  | some x =>
    match (s.core g).claimed.find? fun y => y.step == x.step with
    | none => s
    | some y =>
      if s.syncTurn g then
        (((s.setCmd g x.step 7 .waiting).performed g).modCore g fun c => { c with claimed := c.claimed.erase y }).addRun g
          (s.sendRun g x y)
      else s

/-- MESSAGE_ARRIVE (R287, R295, R297): the first message whose last byte has come is pushed into its slot and acknowledged, or
discarded. -/
def State.messageArrive (s : State) (g : CoreId) : State :=
  match (s.core g).msgIn.find? fun x => x.2 ≤ s.now with
  | none => s
  | some x =>
    let m := x.1
    let s1 := s.modCore g fun c => { c with msgIn := c.msgIn.erase x }
    let r := s.route g m.chan
    let e := (s1.core g).recvEnd m.chan
    if s.stale m.pick then s1.ccount g 0x700 1
    else if fld r 63 62 ≠ 3 ∨ senderAt r (m.slot % senders r) ≠ (m.fromCore, m.fromChan) then s1
    else
      (s1.setRecv g m.chan { e with slots := e.slots ++ [{ slot := m.slot, bytes := m.bytes, from' := s.now + 1 }] }).modCore
        m.fromCore fun c =>
          { c with msgAckIn := c.msgAckIn ++ [{ step := m.step, pick := m.pick, due := s.now + meshLat g m.fromCore }] }

/-- MESSAGE_ACK_ARRIVE (R297): the CHAN_SEND retires. -/
def State.messageAckArrive (s : State) (g : CoreId) : State :=
  match (s.core g).msgAckIn.find? fun x => x.due ≤ s.now with
  | none => s
  | some a =>
    let s1 := s.modCore g fun c => { c with msgAckIn := c.msgAckIn.erase a }
    if s.stale a.pick then s1 else s1.setCmd g a.step 7 (.running s.now)

/-- CHAN_RECV (R296, R298): pops the head slot and returns the credit of the slot 16 above it, sent in the next clk. -/
def State.chanRecv (s : State) (g : CoreId) : State :=
  match s.nextOp g 7 0xE3 with
  | none => s
  | some x =>
    let ch := fld x.op 13 8
    let e := (s.core g).recvEnd ch
    match e.at e.head s.now with
    | none => s
    | some f =>
      let r := s.route g ch
      let peer := senderAt r ((e.head + 16) % senders r)
      let s1 := s.setRecv g ch { head := e.head + 1, slots := e.slots.filter fun y => y.slot != e.head }
      let s2 := (s1.setCmd g x.step 7 .accepted).modCore g fun c =>
        { c with popped := c.popped ++ [{ step := x.step, bytes := f.bytes }] }
      s2.modCore peer.1 fun c =>
        { c with creditIn := c.creditIn ++
          [{ chan := peer.2, slot := e.head + 16, pick := s.pickBits, due := s.now + 1 + meshLat g peer.1 }] }

/-- CHAN_RECV_PERFORM (R298, R299): the popped bytes are written into the landing range through SH_W, from the next clk on. -/
def State.chanRecvPerform (s : State) (g : CoreId) : State :=
  match s.nextSync g 0xE3 with
  | none => s
  | some x =>
    match (s.core g).popped.find? fun y => y.step == x.step with
    | none => s
    | some y =>
      if s.syncTurn g then
        let d := s.desc g (fld x.op 25 14)
        let s1 := if y.bytes.length = d.byteCount then s else s.ccount g 0x708 1
        (((s1.setCmd g x.step 7 .waiting).performed g).modCore g fun c => { c with popped := c.popped.erase y }).addRun g
          { owner := .recv x.step, order := s.now * 2048 + g.toNat * 8 + 4, chain := false, start := s.now
            steps := shWrites d.gath (d.stream.zip y.bytes) s.now }
      else s

/-- CREDIT_ARRIVE (R287, R296): the credit may be consumed from the next clk on. -/
def State.creditArrive (s : State) (g : CoreId) : State :=
  match (s.core g).creditIn.find? fun x => x.due ≤ s.now with
  | none => s
  | some k =>
    let s1 := s.modCore g fun c => { c with creditIn := c.creditIn.erase k }
    if s.stale k.pick then s1.ccount g 0x700 1
    else s1.setCredits g k.chan (s.creditList g k.chan ++ [(k.slot, s.now + 1)])

/-- KNOT_ADD. -/
def execKnotAdd (g : CoreId) (s : State) : Host.Outcome State Fault Refusal := .next (s.knotAdd g)
/-- KNOT_ADD_SEND. -/
def execKnotAddSend (g : CoreId) (s : State) : Host.Outcome State Fault Refusal := .next (s.knotAddSend g)
/-- KNOT_SIGNAL_ARRIVE. -/
def execKnotSignalArrive (g : CoreId) (s : State) : Host.Outcome State Fault Refusal := .next (s.signalArrive g)
/-- KNOT_WAIT. -/
def execKnotWait (g : CoreId) (s : State) : Host.Outcome State Fault Refusal := .next (s.knotWait g)
/-- MARK. -/
def execMark (g : CoreId) (s : State) : Host.Outcome State Fault Refusal := .next (s.markLog g)
/-- CHAN_SEND. -/
def execChanSend (g : CoreId) (s : State) : Host.Outcome State Fault Refusal := .next (s.chanSend g)
/-- CHAN_SEND_PERFORM. -/
def execChanSendPerform (g : CoreId) (s : State) : Host.Outcome State Fault Refusal := .next (s.chanSendPerform g)
/-- MESSAGE_ARRIVE. -/
def execMessageArrive (g : CoreId) (s : State) : Host.Outcome State Fault Refusal := .next (s.messageArrive g)
/-- MESSAGE_ACK_ARRIVE. -/
def execMessageAckArrive (g : CoreId) (s : State) : Host.Outcome State Fault Refusal := .next (s.messageAckArrive g)
/-- CHAN_RECV. -/
def execChanRecv (g : CoreId) (s : State) : Host.Outcome State Fault Refusal := .next (s.chanRecv g)
/-- CHAN_RECV_PERFORM. -/
def execChanRecvPerform (g : CoreId) (s : State) : Host.Outcome State Fault Refusal := .next (s.chanRecvPerform g)
/-- CREDIT_ARRIVE. -/
def execCreditArrive (g : CoreId) (s : State) : Host.Outcome State Fault Refusal := .next (s.creditArrive g)

end Sys2Proof.Machine
end

