-- ==== Sys2Proof/Machine/Sequencer.lean ====
section
/-! DEFINITION. The issue stage (03 §3.3, §3.8): interlocks, issue, retirement, ENDPICK, capture (08 R277), and the
selection of the next variant with its prologue and undo (03 §3.6, §3.7). -/

namespace Sys2Proof.Machine

/-! ## Interlocks (Table 3.11) -/

/-- The commands of a core that have not retired before this clk, those of cards that retire in it included (R110, R112, R132). -/
def State.unretired (s : State) (g : CoreId) : List Cmd :=
  let c := s.core g
  (c.cmds ++ c.gone).filter fun x => !x.acked s.now
/-- The prologue loads in flight whose card has not issued (R128, R129). -/
def Core.proLoads (c : Core) : List Transfer := (c.transfers.map (·.2)).filter fun t => !c.hasCmd t
/-- The ranges of the core's unretired commands and prologue loads (R133). -/
def State.busyRanges (s : State) (g : CoreId) : List Rng :=
  ((s.unretired g).map (·.op) ++ ((s.core g).proLoads.map (·.op))).flatMap (s.commandRanges g)

/-- A command writes a beam of a core of the package (Table 3.11, write scoreboard). -/
def State.writesBeam (s : State) (g : CoreId) (op : Dword) : Bool := (s.commandRanges g op).any fun r => r.write
/-- The unretired commands that write a beam, prologue loads included. -/
def State.writers (s : State) (g : CoreId) : Nat :=
  ((s.unretired g).map (·.op) ++ ((s.core g).proLoads.map (·.op))).countP (s.writesBeam g)

/-- The engine of a slot cannot accept the command in this clk (R186, R191, R192, R209, R236): its earlier command is not
accepted yet, or the engine is not free. -/
def State.engineBusy (s : State) (g : CoreId) (slot : Nat) (op : Dword) : Bool :=
  let c := s.core g
  let w := c.weave
  (s.nextCmd g slot).isSome ||
  (if slot = 1 then
    (if fld op 7 0 = 0x20 then
      w.pending s.now || (match w.drain with
        | some d => fld op 42 32 ≤ d.row + d.rows - 1 && d.row ≤ fld op 42 32 + passM op (s.desc g (fld op 19 8)) - 1
        | none => false)
    else w.drain.isSome)
  else slot ≤ 5 && c.unitBusy slot)

/-- The causes that hold an instance, by code (Table 3.11). -/
def State.holds (s : State) (g : CoreId) (i : Inst) : List Nat :=
  let c := s.core g
  let busy := s.busyRanges g
  let op : Nat → Dword := fun k => ((i.slots.find? fun x => x.1 == k).map (·.2)).getD 0
  let o7 := fld (op 7) 7 0
  let o6 := fld (op 6) 7 0
  let stepHold := match c.stepInst with
    | some si => si.ended || (match si.last with | some l => l < i.step | none => false) ||
        (si.replaying && i.step == si.first && s.clk < si.replayAt)
    | none => false
  codeIf (i.slots.any fun x => (s.commandRanges g x.2).any fun r => busy.any fun b => r.clash b) 1 ++
  codeIf ((i.slots.any fun x => s.writesBeam g x.2) && Config.scoreboardCap ≤ s.writers g) 2 ++
  codeIf (i.slots.any fun x => s.engineBusy g x.1 x.2) 3 ++
  codeIf ((o6 == 0xC0 || o6 == 0xC1) && 64 ≤ c.inUse.length) 4 ++
  codeIf (o7 == 0xE1 && (!s.knotReady g (fld (op 7) 18 8) (fld (op 7) 58 27) ||
    s.gatePending g (fld (op 7) 18 8) i.step)) 5 ++
  codeIf ((o7 == 0xE2 && (s.credits g (fld (op 7) 13 8)) = []) ||
    (o7 == 0xE3 && (c.recvEnd (fld (op 7) 13 8)).depth s.now == 0)) 6 ++
  codeIf c.undo.isSome 7 ++ codeIf stepHold 8

/-- The scheduled clk of the next instance: A of the instance before it plus DELTA (R110). -/
def Core.dueAt (c : Core) (i : Inst) : Nat := (match c.lastIssue with | some (a, _) => a | none => 0) + i.delta

/-- The core works on the cards of the pick: it is not captured, and its variant has been selected (R124, R277). -/
def State.inDeck (s : State) (g : CoreId) : Bool :=
  let c := s.core g
  s.sequencing g && !s.heddle.unresolvedDue && !s.heddle.decided && !c.capStop && !c.captured && c.sel == .idle
/-- The core may issue cards of the pick (R82, R134, R161, R277). -/
def State.issuing (s : State) (g : CoreId) : Bool := s.inDeck g && s.heddle.phase == .issuing

/-- The instance at the head of the window that is past its scheduled clk, with the causes that hold it. -/
def State.headInst (s : State) (g : CoreId) : Option (Inst × List Nat) :=
  match (s.core g).window with
  | [] => none
  | i :: _ =>
    if i.spec || s.now < i.from' || !s.issuing g || s.clk < (s.core g).dueAt i &&
        !(match (s.core g).stepInst with | some si => si.replaying && i.step == si.first | none => false) then none
    else some (i, if i.started then codeIf (s.core g).undo.isSome 7 else s.holds g i)

/-! ## ISSUE -/

/-- The commands that an instance issues. A prologue card whose load has started counts as issued: its command is the load, if that
has not retired (R112, R129). -/
def State.newCmds (s : State) (g : CoreId) (i : Inst) : List Cmd :=
  let c := s.core g
  if i.started then
    (i.slots.filter fun _ => c.transfers.any fun t => t.2.step == i.step).map fun x =>
      { step := i.step, slot := x.1, op := x.2, card := i.card, phase := .waiting, at' := s.now }
  else i.slots.map fun x => { step := i.step, slot := x.1, op := x.2, card := i.card, phase := .issued, at' := s.now }
/-- The step instance after an instance has issued (R117, R265, R267). -/
def Core.stepAfter (c : Core) (i : Inst) (new : List Cmd) : Option StepInst :=
  let last := if i.re then some i.step else none
  let replay := match c.stepInst with | some si => si.rerun && si.replaying && i.step == si.first | none => false
  let si :=
    if replay then c.stepInst.map fun x => { x with replaying := false, last := last }
    else if i.rb then
      some { first := i.step, mark := i.mark, last := last, rerun := false, replayAt := 0, replaying := false }
    else if i.re then c.stepInst.map fun x => { x with last := last }
    else c.stepInst
  if i.re && new = [] then
    si.map fun x => { x with ended := !c.live.any fun y => x.first ≤ y.1 && y.1 ≤ i.step }
  else si

/-- ISSUE (R109, R110, R113, R265, R277): all occupied slots of the head instance issue, or none. -/
def State.issueCard (s : State) (g : CoreId) : State :=
  match s.headInst g with
  | some (i, []) =>
    let a := s.clk
    let cap := s.creg g 0x130
    let stop := (s.core g).firstPick && bit cap 32 && fld cap 31 0 == i.step
    let new := s.newCmds g i
    let s1 := s.modCore g fun c =>
      { c with
        window := c.window.drop 1
        lastIssue := some (a, i.step)
        cmds := c.cmds ++ new.filter fun x => !c.cmds.any fun y => y.step == x.step && y.slot == x.slot
        live := if new = [] then c.live else c.live ++ [(i.step, i.card)]
        stepInst := c.stepAfter i new
        capStop := c.capStop || stop }
    let s2 := s1.setCreg g 0x108 (BitVec.ofNat 64 (i.step + 1))
    let s3 := s2.setCreg g 0x10C (BitVec.ofNat 64 (min (a - i.soff) 0xFFFFFFFF))
    s3.setCreg g 0x110 (BitVec.ofNat 64 ((fld (s.creg g 0x110) 47 0 + 1) % 2 ^ 48))
  | _ => s

/-- In each clk a decoded card held past its scheduled clk is counted with its cause (R132). Of several interlocks that hold it in
one clk, CORE_ILK_LAST names the least code; the spec names none (DESIGN CHOICE, log entry 42). -/
def State.holdClk (s : State) (g : CoreId) : State :=
  match s.headInst g with
  | some (_, a :: l) =>
    (s.ccount g 0x118 1).setCreg g 0x11C (BitVec.ofNat 64 ((leastCode (a :: l)).getD 0))
  | _ => s

/-! ## Retirement -/

/-- Every command of an instance has been performed by this clk (R112). -/
def Core.instDone (c : Core) (clk step : Nat) : Bool :=
  c.cmds.all fun x => x.step != step || (match x.phase with | .running d => d ≤ clk | _ => false)

/-- CARD_RETIRE (R112): the first live instance whose commands are done retires; a step instance with none left ends
(R265). What waits for a retirement sees it from the next clk on (R110). -/
def State.cardRetire (s : State) (g : CoreId) : State :=
  let c := s.core g
  match c.live.find? fun x => c.instDone s.now x.1 with
  | none => s
  | some x =>
    let live := c.live.erase x
    let ended := fun (si : StepInst) => match si.last with
      | some l => !(live.any fun y => si.first ≤ y.1 && y.1 ≤ l)
      | none => false
    s.modCore g fun c =>
      { c with
        cmds := c.cmds.filter fun y => y.step != x.1
        gone := c.gone ++ c.cmds.filter fun y => y.step == x.1
        live := live
        stepInst := c.stepInst.map fun si => { si with ended := si.ended || ended si } }

/-- Every card of the pick has issued and retired by this clk, and no transfer of it is outstanding (R76, R112, R336). -/
def Core.deckDone (c : Core) (now : Nat) : Bool :=
  c.front.ended && c.window.isEmpty && (c.live.all fun x => c.instDone now x.1) && (c.cmds.all fun x => c.instDone now x.step) &&
    c.inUse.isEmpty
/-- ENDPICK (R76, R112, R336): when every earlier instance has retired and no tracker entry is in use the core is done. -/
def State.endPick (s : State) (g : CoreId) : State :=
  let c := s.core g
  if s.inDeck g && c.live = [] && c.deckDone s.now then s.modCore g fun c => { c with done := true } else s

/-- CAPTURE_HIT (R277): everything issued in the first pick has retired and the store buffer is empty; the core stays
captured. A step whose commands a drop squashes never retires them, and gives no HIT. -/
def State.captureHit (s : State) (g : CoreId) : State :=
  let c := s.core g
  if c.run && c.capStop && c.firstPick && !s.dropped && !c.captured && c.live = [] && c.cmds = [] && c.sbuf = [] then
    let s1 := s.setCreg g 0x138 (putBit (s.creg g 0x138) 0 true)
    (s1.modCore g fun c => { c with captured := true, capGen := s.heddle.gen }).logCore g 0x0002
      (BitVec.ofNat 64 (fld (s.creg g 0x130) 31 0))
  else s

/-! ## Selection (R123–R131) -/

/-- CORE_SHED_STATUS's SPEC bit (R125). -/
def State.setSpec (s : State) (g : CoreId) (b : Bool) : State := s.setCreg g 0x204 (putBit (s.creg g 0x204) 7 b)

/-- CORE_SHED_STATUS of a pick that runs a variant (R125): CUR and PRED. -/
def State.curVariant (s : State) (g : CoreId) (v : Nat) : State :=
  s.setCreg g 0x204 (BitVec.ofNat 64 (v % 8 + 16 * (s.predicted g v % 8)))

/-- The selector word is read, or the core halts with 0x10 (R123). -/
def State.shedSelect (s : State) (g : CoreId) : State :=
  let c := s.core g
  let sel := s.creg g 0x200
  let off := 4 * fld sel 22 2
  if c.sel ≠ .due ∨ !s.sequencing g then s
  else if bit sel 31 && !s.carryBit g (off / 65536) then
    (s.halt g 0x10 0 0 0).modCore g fun c => { c with sel := .idle }
  else
    let w := leNat (s.beamBytes g [off, off + 1, off + 2, off + 3])
    let v := if bit sel 31 then w / 2 ^ fld sel 27 23 % 8 else fld sel 30 28
    let s1 := if bit sel 31 then
        (s.badOf g [off, off + 1, off + 2, off + 3]).foldl (fun s o => s.parCounted g o 15) s else s
    if !bit (s.shedEntry g v) 31 then (s1.halt g 0x10 0 0 0).modCore g fun c => { c with sel := .idle }
    else s1.modCore g fun c => { c with sel := .reading v s.now }

/-- The transfers of an undone prologue: those of its loads that have not been confirmed (R130). -/
def Core.specLoads (c : Core) : List (Nat × Transfer) := c.transfers.filter fun x => x.2.pro && !x.2.confirmed
/-- The cores whose acknowledgement an undo awaits: the other cores that hold the sources of the cancelled loads (R130). -/
def State.loadSources (s : State) (g : CoreId) (l : List (Nat × Transfer)) : List CoreId :=
  ((l.map fun x => (s.desc g (fld x.2.op 22 11)).core g).filter fun h => h != g).eraseDups

/-- An undo ends: its length is recorded, and the prologue of the selected variant starts once there is one (R131). -/
def State.undoEnds (s : State) (g : CoreId) : State :=
  match (s.core g).undo with
  | none => s
  | some u =>
    let s1 := s.setCreg g 0x120 (BitVec.ofNat 64 ((s.now - u.start) % 512))
    s1.modCore g fun c => { c with undo := none, proRun := c.sel == .idle && !c.squashing }

/-- A parity error that a prologue load met and that is only counted, because its prologue is undone (R161). -/
def State.parNoted (s : State) (g : CoreId) (v : Dword) : State := (s.ccount g 0x320 1).logCore g 0x3002 (putBit v 63 false)
/-- The signals of cancelled transfers that wait or travel at a core are discarded, neither applied nor counted as stale (R292); the
ledger of their pick counts them (Table 9.6). -/
def State.dropSigs (s : State) (h : CoreId) (gone : List AckTo) : State :=
  let c := s.core h
  let mine := fun (x : KnotSig) => match x.tr with
    | some a => x.pro && gone.any fun b => b.core == a.core && b.entry == a.entry && b.gen == a.gen
    | none => false
  let s1 := s.modCore h fun c =>
    { c with knotQueue := c.knotQueue.filter (fun x => !mine x), sigIn := c.sigIn.filter fun x => !mine x }
  ((c.knotQueue ++ c.sigIn).filter mine).foldl (fun s x => s.sigCounted false x.pick) s1

/-- The loads of a prologue end without effect: their entries are free, their signals discarded (R130, R292). -/
def State.endLoads (s : State) (g : CoreId) (gone : List (Nat × Transfer)) : State :=
  let acks := gone.map fun x => ({ core := g, entry := x.1, gen := ((s.core g).trk x.1).gen, pick := x.2.pick } : AckTo)
  let s1 := gone.foldl (fun s x => s.freeTrk g x.1) s
  (s.cores.map fun e => BitVec.ofNat 8 e.1).foldl (fun s h => s.dropSigs h acks) s1

/-- An undo begins: entries cancelled, tags invalid, decoded entries discarded; the counted errors of its loads (R130, R131,
R161). `front` is how the front end goes on. -/
def State.undoStart (s : State) (g : CoreId) (front : FrontEnd) (v : Nat) : State :=
  let c := s.core g
  let gone := c.specLoads
  let s1 := (c.proErr.foldl (fun s e => s.parNoted g e) s).endLoads g gone
  let s2 := s1.modCore g fun c =>
    { c with
      window := []
      front := front
      specRun := false
      proRun := false
      proWrote := []
      proErr := []
      undo := some { start := s.now, waiting := s.loadSources g gone, variant := v } }
  let s3 := (s2.ccount g 0x208 1).setSpec g false
  if ((s3.core g).undo.map (·.waiting)) = some [] then s3.undoEnds g else s3

/-- The selection of a variant is made (R129–R131): a hit confirms the prologue, a miss undoes it, with none the selected variant's
prologue starts. -/
def State.selected (s : State) (g : CoreId) (v : Nat) : State :=
  let c := s.core g
  let s1 := s.modCore g fun c => { c with sel := .idle, nextVariant := v }
  let s2 := if s.deckPick then s1.curVariant g v else s1
  if c.specRun && c.nextVariant == v then
    (s2.modCore g fun c =>
      { c with
        specRun := false
        proRun := !s.deckPick
        window := c.window.map fun i => { i with spec := false }
        track := c.track.map fun x => (x.1, { x.2 with tr := x.2.tr.map fun t =>
          if t.pro then { t with confirmed := true } else t }) }).setSpec g false
  else if c.specRun then s2.undoStart g (s.frontFor g v) v
  else s2.modCore g fun c => { c with front := s.frontFor g v, window := [], proRun := !s.deckPick && c.undo.isNone }

/-- SELECTOR_READ_DONE (R123, R129–R131): the read has taken its 4 clk. -/
def State.selectorReadDone (s : State) (g : CoreId) : State :=
  match (s.core g).sel with
  | .reading v t => if t + 4 ≤ s.now then s.selected g v else s
  | _ => s

/-- UNDO_CANCEL_ACK (R130): a source core has acknowledged its cancel, which has crossed the mesh both ways. -/
def State.undoCancelAck (s : State) (g src : CoreId) : State :=
  match (s.core g).undo with
  | none => s
  | some u =>
    let w := u.waiting.filter fun h => h != src
    if w.length = u.waiting.length ∨ s.now < u.start + 2 * meshLat g src then s
    else
      let s1 := s.modCore g fun c => { c with undo := some { u with waiting := w } }
      if w = [] then s1.undoEnds g else s1

/-- PROLOGUE_START (R127): after READY in the fell window the speculative prologue of the predicted variant starts. Where the shed
table entry of the predicted variant has VALID = 0 the spec states no prologue, and none starts (DESIGN CHOICE, log entry 43). -/
def State.prologueStart (s : State) (g : CoreId) : State :=
  let c := s.core g
  let v := s.predicted g (fld (s.creg g 0x204) 2 0)
  if s.sequencing g && s.heddle.phase == .window && s.heddle.vote == .ready &&
      (!s.heddle.decided || (s.heddle.committed && c.drainLeft.isSome)) && !c.specRun &&
      c.sel == .idle && c.undo.isNone && !c.captured && c.done && bit (s.shedEntry g v) 31 then
    ((s.modCore g fun c =>
      { c with
        specRun := true, proRun := false, nextVariant := v, window := []
        front := s.frontFor g v }).setCreg g 0x204 (putFld (s.creg g 0x204) 6 4 v)).setSpec g true
  else s

/-- ISSUE. -/
def execIssue (g : CoreId) (s : State) : Host.Outcome State Fault Refusal := .next (s.issueCard g)
/-- CARD_RETIRE. -/
def execCardRetire (g : CoreId) (s : State) : Host.Outcome State Fault Refusal := .next (s.cardRetire g)
/-- ENDPICK. -/
def execEndpick (g : CoreId) (s : State) : Host.Outcome State Fault Refusal := .next (s.endPick g)
/-- CAPTURE_HIT. -/
def execCaptureHit (g : CoreId) (s : State) : Host.Outcome State Fault Refusal := .next (s.captureHit g)
/-- SHED_SELECT. -/
def execShedSelect (g : CoreId) (s : State) : Host.Outcome State Fault Refusal := .next (s.shedSelect g)
/-- SELECTOR_READ_DONE. -/
def execSelectorReadDone (g : CoreId) (s : State) : Host.Outcome State Fault Refusal := .next (s.selectorReadDone g)
/-- UNDO_CANCEL_ACK. -/
def execUndoCancelAck (g src : CoreId) (s : State) : Host.Outcome State Fault Refusal := .next (s.undoCancelAck g src)
/-- PROLOGUE_START. -/
def execPrologueStart (g : CoreId) (s : State) : Host.Outcome State Fault Refusal := .next (s.prologueStart g)

end Sys2Proof.Machine
end

