-- ==== Sys2Proof/Machine/Elem.lean ====
section
/-! DEFINITION. Operands as elements (04 R171, 06 R206, R211): raw codes read and written in element order, the reads of a
command by groups (06 R207, R208), and the conversions of results with the flags of Table 6.1. -/

namespace Sys2Proof.Machine

/-- Raw code of element p. -/
def State.elemCode (s : State) (g : CoreId) (d : Desc) (p : Nat) : Nat :=
  if d.fmt = 1 then
    let b := (s.beamByte g (d.elem p)).toNat
    if d.high p then b / 16 else b % 16
  else leNat ((List.range d.e).map fun i => s.beamByte g (d.elem p + i))
/-- Raw codes of all elements, in element order. -/
def State.elems (s : State) (g : CoreId) (d : Desc) : List Nat := (List.range d.count).map (s.elemCode g d)
/-- Byte offsets of row i of an operand. -/
def Desc.rowOffs (d : Desc) (i : Nat) : List Nat :=
  (List.range (d.sz 0 + 1)).flatMap fun j => (List.range d.e).map fun b => d.at j i 0 0 + b
/-- A row number is in a table's rows (R226, R245). -/
def Desc.inRange (d : Desc) (v : Int) : Bool := 0 ≤ v && v ≤ (d.sz 1 : Int)
/-- A pair of nibbles per byte, low nibble first (Table 4.7). -/
def packNibbles : List Nat → List Nat
  | a :: b :: t => (a % 16 + 16 * (b % 16)) :: packNibbles t
  | [a] => [a % 16]
  | [] => []
/-- The bytes a destination's codes write, with their offsets. -/
def Desc.writes (d : Desc) (codes : List Nat) : List (Nat × Byte) :=
  if d.fmt = 1 then (d.stream).zip ((packNibbles codes).map (BitVec.ofNat 8))
  else (codes.zipIdx).flatMap fun x =>
    ((leBytes d.e x.1).zipIdx).map fun y => (d.elem x.2 + y.2, y.1)

/-- The bytes of n elements of an operand. -/
def Desc.groupLen (d : Desc) (n : Nat) : Nat := if d.fmt = 1 then n / 2 else n * d.e
/-- The bytes of an operand in groups of n elements (R207). -/
def Desc.readBy (d : Desc) (n : Nat) : List (List Nat) := chunks (d.groupLen n) d.byteCount d.stream
/-- The bytes that codes write, in groups of n elements. -/
def Desc.writesBy (d : Desc) (codes : List Nat) (n : Nat) : List (List (Nat × Byte)) :=
  chunks (d.groupLen n) d.byteCount (d.writes codes)

/-- Sticky flags of Table 6.1 raised: each bit OR-ed in (R212). -/
def State.flag (s : State) (g : CoreId) (bits : Nat) : State :=
  if bits = 0 then s else s.setCreg g 0x500 (s.creg g 0x500 ||| BitVec.ofNat 64 bits)

/-- Bit of a flag. -/
def flagBit (b : Bool) (i : Nat) : Nat := if b then 2 ^ i else 0

/-- The rounding of a stochastic element of a command (R263): none without SRND or for a 32-bit destination. -/
def State.srOf (s : State) (g : CoreId) (srnd : Bool) (x : Cmd) (idx : Nat) : Option Nat :=
  if srnd then some (srG (s.core g).pk.toNat x.step x.slot idx) else none

/-- A float result written in a destination format: its code, NaN written, overflow or saturation. `finite` says that the
operands were finite: an infinity that comes of an infinite or zero operand is no overflow, in an FP8 format as in any (R212). -/
def floatOut (fmt : Nat) (sr : Option Nat) (finite : Bool) (r : Num) : Nat × Bool × Bool :=
  let e := (floatFmt fmt).encode (if isNarrow fmt || isMx fmt then sr else none) r
  (e.1, r.isNan, (e.2 && (finite || r.isFin)) || (finite && !r.isFin && !r.isNan))
/-- An integer result written in an integer format: its code and whether it saturated (R215). -/
def intOut (fmt : Nat) (sat : Bool) (v : Int) : Nat × Bool :=
  if sat then
    let c := clampInt (intRange fmt) v
    (unsigned (intBits fmt) c.1, c.2)
  else (unsigned (intBits fmt) v, false)

/-! ## Batten values (R214–R216) -/

/-- A float result of Table 6.3 in FP32. -/
def btFloat (op : Nat) (a b k k1 : Num) : Num :=
  match op with
  | 0x40 => fadd a b
  | 0x41 => fsub a b
  | 0x42 => fmul a b
  | 0x43 => ffma a b k
  | 0x44 => ffma a k b
  | 0x45 => fmax a b
  | 0x46 => fmin a b
  | 0x47 => a.abs
  | 0x48 => a.negate
  | 0x49 => fmax a (.fin false 0 0)
  | 0x4B => fmin (fmax a k) k1
  | _ => a

/-- The low 32 bits of an integer. -/
def w32 (v : Int) : Nat := unsigned 32 v

/-- An exact integer result of Table 6.3 before the 32-bit wrap or saturation. -/
def btInt (op : Nat) (a b k k1 : Int) : Int :=
  match op with
  | 0x40 => a + b
  | 0x41 => a - b
  | 0x42 => a * b
  | 0x45 => max a b
  | 0x46 => min a b
  | 0x47 => a.natAbs
  | 0x48 => -a
  | 0x49 => max a 0
  | 0x4B => min (max a k) k1
  | 0x4D => signed 32 (w32 a &&& w32 b)
  | 0x4E => signed 32 (w32 a ||| w32 b)
  | 0x4F => signed 32 (w32 a ^^^ w32 b)
  | 0x50 => signed 32 (w32 a * 2 ^ (w32 b % 32) % 2 ^ 32)
  | 0x51 => signed 32 (w32 a) / 2 ^ (w32 b % 32)
  | _ => a

/-- The flags of one Batten element: NaN, overflow, saturation. -/
structure BtOut where
  code : Nat
  nan : Bool
  ovf : Bool
  sat : Bool
deriving DecidableEq, Repr

/-- One element of a Batten command: raw codes of A and B in their formats, the constants' bits, SAT, the rounding. -/
def btElem (op fa fb fd : Nat) (sat : Bool) (sr : Option Nat) (k k1 a b : Nat) : BtOut :=
  let na := (floatFmt fa).decode a
  let nb := (floatFmt fb).decode b
  let usesB := !btUnary op
  let usesK := btUsesK op
  let finite := na.isFin && (!usesB || nb.isFin) && (!usesK || (num32 k).isFin) && (op != 0x4B || (num32 k1).isFin)
  let fl := fun (r : Num) =>
    let o := floatOut fd sr finite r
    ({ code := o.1, nan := o.2.1, ovf := o.2.2, sat := false } : BtOut)
  let it := fun (v : Int) (s : Bool) (f : Bool) =>
    let o := intOut fd s v
    ({ code := o.1, nan := false, ovf := false, sat := o.2 || f } : BtOut)
  if op = 0x4A then
    if isFloat fa && isFloat fd then fl na
    else if isFloat fa then it (toIntRne na) true na.isNan
    else if isFloat fd then fl (rn (ofInt (intOf fa a)))
    else it (intOf fa a) sat false
  else if op = 0x4C then
    let gt := if isFloat fa then fgt na nb else decide (intOf fb b < intOf fa a)
    if isFloat fd then fl (.fin false (if gt then 1 else 0) 0) else it (if gt then 1 else 0) sat false
  else if isFloat fa && isFloat fd then fl (btFloat op na nb (num32 k) (num32 k1))
  else
    let v := btInt op (intOf fa a) (intOf fb b) (signed 32 k) (signed 32 k1)
    let c := if sat then clampInt (-(2 ^ 31), 2 ^ 31 - 1) v else (signed 32 (w32 v), false)
    if 0x4D ≤ op ∧ op ≤ 0x4F then it v false false else it c.1 sat c.2

/-- The flags of a list of Batten elements (bits 0–2 of Table 6.1). -/
def btFlags (l : List BtOut) : Nat := flagBit (l.any (·.nan)) 0 + flagBit (l.any (·.ovf)) 1 + flagBit (l.any (·.sat)) 2

/-- The elements that a Batten command writes (R206, R213–R216). -/
def State.btOutputs (s : State) (g : CoreId) (x : Cmd) : List BtOut :=
  let op := fld x.op 7 0
  let a := s.desc g (fld x.op 19 8)
  let b := s.desc g (if btUnary op then fld x.op 19 8 else fld x.op 31 20)
  let d := s.desc g (fld x.op 43 32)
  let k := (s.creg g (0x540 + 4 * fld x.op 47 44)).toNat
  let k1 := (s.creg g (0x540 + 4 * (fld x.op 47 44 + 1))).toNat
  (((s.elems g a).zip (s.elems g b)).zipIdx).map fun e =>
    btElem op a.fmt b.fmt d.fmt (bit x.op 49) (s.srOf g (bit x.op 48) x e.2) k k1 e.1.1 e.1.2

/-- A Batten command accepted (R207–R210): 64 elements a group, Lat 4. No other writer reaches its sources while it runs
(R132), so its elements stand when it is accepted. -/
def State.batten (s : State) (g : CoreId) (opcode : Nat) : State :=
  match s.nextOp g 2 opcode with
  | none => s
  | some x =>
    let a := s.desc g (fld x.op 19 8)
    let b := s.desc g (fld x.op 31 20)
    let d := s.desc g (fld x.op 43 32)
    let t := s.now
    let outs := s.btOutputs g x
    let flags := (chunks 64 outs.length outs).map btFlags
    s.accept g x false
      (readSteps 3 a.gath (a.readBy 64) (fun k => t + 1 + k) ++
        (if btUnary opcode then [] else readSteps 4 b.gath (b.readBy 64) (fun k => t + 1 + k)) ++
        writeSteps 5 d.gath (d.writesBy (outs.map (·.code)) 64) (fun k => t + 8 + k) (flags.getD · 0) (fun _ => []))

end Sys2Proof.Machine
end

