-- ==== Sys2Proof/Machine/Batten.lean ====
section
/-! DEFINITION. The Batten commands (06 §6.2, Table 6.3): one meaning per opcode over State.batten. -/

namespace Sys2Proof.Machine

/-- BT_ADD (0x40). -/
def execBtAdd (g : CoreId) (s : State) : Host.Outcome State Fault Refusal := .next (s.batten g 0x40)
/-- BT_SUB (0x41). -/
def execBtSub (g : CoreId) (s : State) : Host.Outcome State Fault Refusal := .next (s.batten g 0x41)
/-- BT_MUL (0x42). -/
def execBtMul (g : CoreId) (s : State) : Host.Outcome State Fault Refusal := .next (s.batten g 0x42)
/-- BT_FMA (0x43). -/
def execBtFma (g : CoreId) (s : State) : Host.Outcome State Fault Refusal := .next (s.batten g 0x43)
/-- BT_AXPY (0x44). -/
def execBtAxpy (g : CoreId) (s : State) : Host.Outcome State Fault Refusal := .next (s.batten g 0x44)
/-- BT_MAX (0x45). -/
def execBtMax (g : CoreId) (s : State) : Host.Outcome State Fault Refusal := .next (s.batten g 0x45)
/-- BT_MIN (0x46). -/
def execBtMin (g : CoreId) (s : State) : Host.Outcome State Fault Refusal := .next (s.batten g 0x46)
/-- BT_ABS (0x47). -/
def execBtAbs (g : CoreId) (s : State) : Host.Outcome State Fault Refusal := .next (s.batten g 0x47)
/-- BT_NEG (0x48). -/
def execBtNeg (g : CoreId) (s : State) : Host.Outcome State Fault Refusal := .next (s.batten g 0x48)
/-- BT_RELU (0x49). -/
def execBtRelu (g : CoreId) (s : State) : Host.Outcome State Fault Refusal := .next (s.batten g 0x49)
/-- BT_CVT (0x4A). -/
def execBtCvt (g : CoreId) (s : State) : Host.Outcome State Fault Refusal := .next (s.batten g 0x4A)
/-- BT_CLAMP (0x4B). -/
def execBtClamp (g : CoreId) (s : State) : Host.Outcome State Fault Refusal := .next (s.batten g 0x4B)
/-- BT_CMPGT (0x4C). -/
def execBtCmpgt (g : CoreId) (s : State) : Host.Outcome State Fault Refusal := .next (s.batten g 0x4C)
/-- BT_AND (0x4D). -/
def execBtAnd (g : CoreId) (s : State) : Host.Outcome State Fault Refusal := .next (s.batten g 0x4D)
/-- BT_OR (0x4E). -/
def execBtOr (g : CoreId) (s : State) : Host.Outcome State Fault Refusal := .next (s.batten g 0x4E)
/-- BT_XOR (0x4F). -/
def execBtXor (g : CoreId) (s : State) : Host.Outcome State Fault Refusal := .next (s.batten g 0x4F)
/-- BT_SHL (0x50). -/
def execBtShl (g : CoreId) (s : State) : Host.Outcome State Fault Refusal := .next (s.batten g 0x50)
/-- BT_SHRA (0x51). -/
def execBtShra (g : CoreId) (s : State) : Host.Outcome State Fault Refusal := .next (s.batten g 0x51)

end Sys2Proof.Machine
end

