-- ==== Sys2Proof/Machine/Carder.lean ====
section
/-! DEFINITION. The Carder (chapter 7): site tables and their probe sequence (R240), voxelisation (R239, R241, R242), rules
(R243, R244), gathers (R245) and the bird's-eye map (R246, R247), with the counters of Table 7.7. -/

namespace Sys2Proof.Machine

/-! ## Site tables (R240) -/

/-- A key's first slot. -/
def siteHash (vx vy vz : Nat) : Nat :=
  let h := vx ^^^ (vy * 8) ^^^ (vz * 128)
  (h ^^^ (h / 2 ^ 15)) % 32768

/-- The outcome of a probe sequence with the probes made. -/
inductive Probe where
  | empty (slot probes : Nat)
  | found (idx probes : Nat)
  | exhausted (probes : Nat)
deriving DecidableEq, Repr

/-- Probes made. -/
def Probe.count : Probe → Nat
  | .empty _ n => n
  | .found _ n => n
  | .exhausted n => n

/-- The site whose key a slot holds, with its index. -/
def SiteTable.atSlot (t : SiteTable) (slot : Nat) : Option (Site × Nat) := t.sites.zipIdx.find? fun x => x.1.slot == slot
/-- The probe sequence from its i-th slot, `left` probes remaining. -/
def SiteTable.probeFrom (t : SiteTable) (vx vy vz h : Nat) : Nat → Nat → Probe
  | 0, i => .exhausted i
  | left + 1, i =>
    let s := (h + i) % 32768
    match t.atSlot s with
    | none => .empty s (i + 1)
    | some x => if x.1.vx = vx ∧ x.1.vy = vy ∧ x.1.vz = vz then .found x.2 (i + 1) else t.probeFrom vx vy vz h left (i + 1)
/-- The probe sequence of a key. -/
def SiteTable.probe (t : SiteTable) (vx vy vz : Nat) : Probe := t.probeFrom vx vy vz (siteHash vx vy vz) t.limit 0

/-- A core's table. -/
def Core.table (c : Core) (one : Bool) : SiteTable := if one then c.t1 else c.t0
/-- A core's table set. -/
def Core.setTable (c : Core) (one : Bool) (t : SiteTable) : Core := if one then { c with t1 := t } else { c with t0 := t }

/-- What a table-building command counts (Table 7.7) and probes (R250). -/
structure CdCounts where
  skip : Nat := 0
  outside : Nat := 0
  maxp : Nat := 0
  probe : Nat := 0
  full : Nat := 0
  range : Nat := 0
  probes : Nat := 0
deriving DecidableEq, Repr

/-- The counters of Table 7.7 with what a command adds to each. -/
def CdCounts.regs (n : CdCounts) : List (Nat × Nat) :=
  [(0x620, n.skip), (0x624, n.outside), (0x628, n.maxp), (0x62C, n.probe), (0x630, n.full), (0x634, n.range)]

/-- An insert (R240, R244): the table, the counts, and the index where a site was created. -/
def SiteTable.insert (t : SiteTable) (n : CdCounts) (vx vy vz : Nat) : SiteTable × CdCounts × Option Nat :=
  match t.probe vx vy vz with
  | .found _ _ => (t, n, none)
  | .exhausted _ => (t, { n with probe := n.probe + 1 }, none)
  | .empty slot _ =>
    if t.sites.length < t.cap then
      ({ t with sites := t.sites ++ [{ vx := vx, vy := vy, vz := vz, slot := slot }] }, n, some t.sites.length)
    else (t, { n with full := n.full + 1 }, none)

/-- Grid sizes NX, NY, NZ (Table 7.5). -/
def State.grid (s : State) (g : CoreId) : Nat × Nat × Nat :=
  let d := s.creg g 0x618
  (fld d 11 0 + 1, fld d 27 16 + 1, fld d 43 32 + 1)

/-! ## CD_VOXEL (R239, R241, R242) -/

/-- The voxel coordinate of one axis, none outside (R239). -/
def voxelAxis (x org inv : Num) (n : Nat) : Option Nat :=
  let t := fmul (fsub x org) inv
  if t.isFin && !(t.lt (.fin true 0 0)) && t.lt (.fin false n 0) then some (floorInt t).toNat else none

/-- What voxelisation carries from point to point: the table, the accumulators by site, the counts. -/
structure Voxels where
  table : SiteTable
  accs : List (List Num)
  n : CdCounts
deriving DecidableEq, Repr

/-- The accumulator of a site's first point. -/
def accFirst (p : List Num) : List Num :=
  let z := p.getD 2 .nan
  let i := p.getD 3 .nan
  [.fin false 1 0, p.getD 0 .nan, p.getD 1 .nan, z, i, z, z, i]
/-- The accumulator with one more point. -/
def accMore (a p : List Num) : List Num :=
  let f := fun (i : Nat) => a.getD i .nan
  let x := fun (i : Nat) => p.getD i .nan
  [fadd (f 0) (.fin false 1 0), fadd (f 1) (x 0), fadd (f 2) (x 1), fadd (f 3) (x 2), fadd (f 4) (x 3),
    fmax (f 5) (x 2), fmin (f 6) (x 2), fmax (f 7) (x 3)]

/-- One point (R239). -/
def Voxels.point (v : Voxels) (org inv : List Num) (grid : Nat × Nat × Nat) (maxp : Nat) (p : List Num) : Voxels :=
  let ax := fun (i n : Nat) => voxelAxis (p.getD i .nan) (org.getD i .nan) (inv.getD i .nan) n
  if p.any (·.isNan) then { v with n := { v.n with skip := v.n.skip + 1, probes := v.n.probes + 1 } }
  else
    match ax 0 grid.1, ax 1 grid.2.1, ax 2 grid.2.2 with
    | some vx, some vy, some vz =>
      let pr := v.table.probe vx vy vz
      let n := { v.n with probes := v.n.probes + pr.count }
      match pr with
      | .found i _ =>
        let a := v.accs.getD i []
        if maxp = 0 ∨ floorInt (a.getD 0 .nan) < maxp then { v with accs := v.accs.set i (accMore a p), n := n }
        else { v with n := { n with maxp := n.maxp + 1 } }
      | _ =>
        let r := v.table.insert n vx vy vz
        { table := r.1, accs := if r.2.2.isSome then v.accs ++ [accFirst p] else v.accs, n := r.2.1 }
    | _, _, _ => { v with n := { v.n with outside := v.n.outside + 1, probes := v.n.probes + 1 } }

/-- The codes of a site list of M rows (R242). -/
def siteRows (t : SiteTable) (m : Nat) : List Nat :=
  (List.range m).flatMap fun o => match t.sites[o]? with
    | some x => [x.vx, x.vy, x.vz, 1]
    | none => [0, 0, 0, 0]

/-- Lines that destinations touch (L_w of Table 7.6). -/
def linesOf (l : List Desc) : Nat := (l.map fun d => (touchedLines d.stream []).length).sum
/-- The line writes of a destination in order (R141, R151, R248): each line once, or by groups of 128 B. -/
def Desc.lineWrites (d : Desc) (codes : List Nat) : List Acc :=
  let l := d.writes codes
  (if d.gath then writeGroups true (chunks 128 l.length l) else writeGroups true [l]).flatten
/-- The write steps of destinations, two lines per clk from clk `at'` on, no clk later than their L_w lines allow (R249, R250). -/
def cdWrites (at' lw : Nat) (accs : List Acc) : List RunStep :=
  (chunks 2 accs.length accs).zipIdx.map fun x =>
    { kind := .write, port := 11, due := at' + min x.2 (ceilDiv lw 2 - 1), grp := x.2, accs := x.1 }
/-- The counters of a command rise with its last write, so that a cancel counts nothing twice (R251, R252). -/
def countLast (n : CdCounts) (steps : List RunStep) : List RunStep :=
  steps.take (steps.length - 1) ++ (steps.drop (steps.length - 1)).map fun x => { x with counts := n.regs }
/-- A Carder command accepted; a command with nothing to write counts at once (R236, R251). -/
def State.carder (s : State) (g : CoreId) (x : Cmd) (n : CdCounts) (steps : List RunStep) : State :=
  let s1 := if steps = [] then n.regs.foldl (fun s e => s.ccount g e.1 e.2) s else s
  s1.accept g x true (countLast n steps)

/-- What voxelisation has made of the first points of a list, with the probes made before each of them. -/
def State.voxels (s : State) (g : CoreId) (op : Dword) : Voxels × List Nat :=
  let pd := s.desc g (fld op 19 8)
  let sl := s.desc g (fld op 31 20)
  let num := fun (o : Nat) => num32 (s.creg g o).toNat
  let v0 : Voxels := { table := { sites := [], cap := sl.sz 1 + 1, limit := fld op 48 45 + 1 }, accs := [], n := {} }
  (List.range (pd.sz 1 + 1)).foldl (fun (v : Voxels × List Nat) i =>
    (v.1.point [num 0x600, num 0x604, num 0x608] [num 0x60C, num 0x610, num 0x614] (s.grid g) (fld op 56 49)
      ((List.range 4).map fun j => num32 (s.elemCode g pd (4 * i + j))), v.2 ++ [v.1.n.probes])) (v0, [])

/-- CD_VOXEL (R239–R242, R250): point i is read in the clk after those of the probes before it; the last write comes in clk
a + 8 + U + ceil(L_w / 2). -/
def State.cdVoxel (s : State) (g : CoreId) : State :=
  match s.nextOp g 5 0xA0 with
  | none => s
  | some x =>
    let pd := s.desc g (fld x.op 19 8)
    let sl := s.desc g (fld x.op 31 20)
    let fd := s.desc g (fld x.op 43 32)
    let m := sl.sz 1 + 1
    let r := s.voxels g x.op
    let v := r.1
    let feats := (List.range m).flatMap fun o => match v.accs[o]? with
      | some a => a.map bits32
      | none => List.replicate 8 0
    let t := s.now
    let s1 := s.modCore g fun c => c.setTable (bit x.op 44) v.table
    s1.carder g x v.n
      (readSteps 10 pd.gath (pd.readBy 4) (fun k => t + 1 + r.2.getD k 0) ++
        cdWrites (t + 9 + v.n.probes) (linesOf [sl, fd]) (sl.lineWrites (siteRows v.table m) ++ fd.lineWrites feats))

/-! ## CD_RULES (R243, R244) -/

/-- Neighbour k of a site if it lies inside the grid. -/
def neighbour (grid : Nat × Nat × Nat) (x : Site) (k : Nat) : Option (Nat × Nat × Nat) :=
  let cx := x.vx + k % 3
  let cy := x.vy + k / 3 % 3
  let cz := x.vz + k / 9
  if 1 ≤ cx ∧ cx ≤ grid.1 ∧ 1 ≤ cy ∧ cy ≤ grid.2.1 ∧ 1 ≤ cz ∧ cz ≤ grid.2.2 then some (cx - 1, cy - 1, cz - 1) else none

/-- The dilated table of R243 with its counts. -/
def dilate (grid : Nat × Nat × Nat) (src : SiteTable) (m limit : Nat) : SiteTable × CdCounts :=
  src.sites.foldl (fun a x => (List.range 27).foldl (fun a k => match neighbour grid x k with
    | some (cx, cy, cz) =>
      let r := a.1.insert a.2 cx cy cz
      (r.1, r.2.1)
    | none => a) a) ({ sites := [], cap := m, limit := limit }, {})

/-- The map row of an output site, −1 where no neighbour is a site of the source table. -/
def mapRow (grid : Nat × Nat × Nat) (src : SiteTable) (o : Option Site) : List Nat :=
  (List.range 27).map fun k => match o with
    | none => 0xFFFFFFFF
    | some x => match neighbour grid x k with
      | none => 0xFFFFFFFF
      | some (cx, cy, cz) => match src.probe cx cy cz with
        | .found i _ => i
        | _ => 0xFFFFFFFF

/-- CD_RULES; its last write comes at the bound of Table 7.6 (log entry 22). -/
def State.cdRules (s : State) (g : CoreId) : State :=
  match s.nextOp g 5 0xA1 with
  | none => s
  | some x =>
    let md := s.desc g (fld x.op 19 8)
    let sl := s.desc g (fld x.op 31 20)
    let src := (s.core g).table (bit x.op 49)
    let m := sl.sz 1 + 1
    let supp := bit x.op 50
    let limit := fld x.op 48 45 + 1
    let grid := s.grid g
    let built := if supp then (src, ({ full := src.sites.length - m } : CdCounts)) else dilate grid src m limit
    let maps := (List.range m).flatMap fun o => mapRow grid src built.1.sites[o]?
    let s1 := if supp then s else s.modCore g fun c => c.setTable (bit x.op 44) built.1
    s1.carder g x built.2
      (cdWrites (s.now + 17 + (if supp then 0 else 27 * src.cap * limit) + 7 * m * src.limit) (linesOf [sl, md])
        (sl.lineWrites (siteRows built.1 m) ++ md.lineWrites maps))

/-! ## CD_GATHER (R245) -/

/-- The beam with bytes written that stand before all others: how one command sees what it has written itself. -/
def State.overlay (s : State) (g : CoreId) (l : List (Nat × Byte)) : State :=
  s.modCore g fun c => { c with sbuf := c.sbuf ++ (groupLines l).map fun e =>
    { line := e.1, mask := maskOf e.2, data := dataOf e.2 } }
/-- The rows that CD_GATHER writes, one after another, each from what stands when it is read (R152, R245, R248). -/
def State.gatherRows (s : State) (g : CoreId) (fd dd : Desc) : Nat → List (List Int) → List (Nat × Byte)
  | _, [] => []
  | o, vs :: t =>
    let row := fun (v : Int) => if fd.inRange v then s.beamBytes g (fd.rowOffs v.toNat)
      else List.replicate ((fd.sz 0 + 1) * fd.e) 0
    let l := (dd.rowOffs o).zip (vs.flatMap row)
    l ++ (s.overlay g l).gatherRows g fd dd (o + 1) t

/-- CD_GATHER; its last write comes at the bound of Table 7.6: the map, the feature rows, the destination (log entry 22). -/
def State.cdGather (s : State) (g : CoreId) : State :=
  match s.nextOp g 5 0xA2 with
  | none => s
  | some x =>
    let md := s.desc g (fld x.op 19 8)
    let fd := s.desc g (fld x.op 31 20)
    let dd := s.desc g (fld x.op 43 32)
    let k0 := fld x.op 48 44
    let nk := fld x.op 53 49
    let m := md.sz 1 + 1
    let vals := (List.range m).map fun o => (List.range nk).map fun j =>
      signed 32 (s.elemCode g md (27 * o + k0 + j))
    let t := s.now
    let pace := ceilDiv ((fd.sz 0 + 1) * fd.e) 128 + 1
    let lm := ceilDiv (linesOf [md]) 2
    let maps := readSteps 10 md.gath (md.readBy 32) fun k => t + 1 + min k (lm - 1)
    let rows := (vals.flatten.zipIdx).flatMap fun e =>
      if fd.inRange e.1 then readSteps 10 true [fd.rowOffs e.1.toNat] fun _ => t + 8 + lm + e.2 * pace else []
    let bytes := s.gatherRows g fd dd 0 vals
    let accs := if dd.gath then writeGroups true (chunks 128 bytes.length bytes) else writeGroups true [bytes]
    s.carder g x { range := vals.flatten.countP fun v => !fd.inRange v && v != -1 }
      (maps ++ rows ++ cdWrites (t + 17 + lm + m * nk * pace) (linesOf [dd]) accs.flatten)

/-! ## CD_BEV (R246, R247) -/

/-- One element of the map with a feature (R246). -/
def bevElem (fmt : Nat) (sum : Bool) (m f : Nat) : Nat :=
  let a := (floatFmt fmt).decode m
  let b := (floatFmt fmt).decode f
  ((floatFmt fmt).encode none (if sum then fadd a b else fmax a b)).1

/-- The cell of a site, none outside the features or the map. -/
def bevCell (op : Dword) (fd dd : Desc) (x : Site) (i : Nat) : Option (Nat × Nat) :=
  let cx := x.vx / 2 ^ fld op 53 52
  let cy := x.vy / 2 ^ fld op 55 54
  if fd.sz 1 < i ∨ dd.sz 1 < cx ∨ dd.sz 2 < cy then none else some (cx, cy)
/-- Byte offsets of a map cell's channels. -/
def cellOffs (dd : Desc) (x y : Nat) : List Nat :=
  (List.range (dd.sz 0 + 1)).flatMap fun c => (List.range dd.e).map fun b => dd.at c x y 0 + b
/-- Elements of bytes. -/
def codesOf (e : Nat) (l : List Byte) : List Nat := (chunks e l.length l).map leNat

/-- What CD_BEV writes for its sites one after another (R246, R247): each cell row from what stands before it. -/
def State.bevRows (s : State) (g : CoreId) (op : Dword) (fd dd : Desc) : List (Nat × (Nat × Nat)) → List (List (Nat × Byte))
  | [] => []
  | e :: t =>
    let offs := cellOffs dd e.2.1 e.2.2
    let out := ((codesOf dd.e (s.beamBytes g offs)).zip (codesOf dd.e (s.beamBytes g (fd.rowOffs e.1)))).map fun p =>
      bevElem dd.fmt (bit op 50) p.1 p.2
    let l := offs.zip (out.flatMap (leBytes dd.e))
    l :: (s.overlay g l).bevRows g op fd dd t

/-- CD_BEV (R246–R249): the clear, then site after site the feature row, the cell row and its write; no gather buffer serves a
cell row. The pace is that of the bound of Table 7.6 (log entry 22), so a cell's write comes before its next read. -/
def State.cdBev (s : State) (g : CoreId) : State :=
  match s.nextOp g 5 0xA3 with
  | none => s
  | some x =>
    let fd := s.desc g (fld x.op 19 8)
    let dd := s.desc g (fld x.op 31 20)
    let tb := (s.core g).table (bit x.op 49)
    let clr := bit x.op 51
    let sites := tb.sites.zipIdx.filterMap fun e => (bevCell x.op fd dd e.1 e.2).map fun c => (e.2, c)
    let zeros := List.replicate dd.count 0
    let lw := linesOf [dd]
    let t := s.now
    let rows := (if clr then s.overlay g (dd.writes zeros) else s).bevRows g x.op fd dd sites
    let b := ceilDiv ((fd.sz 0 + 1) * fd.e) 64
    let base := fun (i : Nat) => t + 16 + (if clr then ceilDiv lw 2 else 0) + i * (2 * b + 6)
    s.carder g x { range := tb.sites.length - sites.length }
      ((if clr then cdWrites (t + 1) lw (dd.lineWrites zeros) else []) ++
        ((sites.zip rows).zipIdx).flatMap fun e =>
          readSteps 10 true [fd.rowOffs e.1.1.1] (fun _ => base e.2 + 1) ++
          readSteps 10 false [cellOffs dd e.1.1.2.1 e.1.1.2.2] (fun _ => base e.2 + 1 + b) ++
          writeSteps 11 true [e.1.2] (fun _ => base (e.2 + 1)) (fun _ => 0) (fun _ => []))

/-- CORE_CD_SITES (Table 7.7). -/
def State.cdSites (s : State) (g : CoreId) : Dword :=
  BitVec.ofNat 64 ((s.core g).t0.sites.length + 2 ^ 16 * (s.core g).t1.sites.length)

/-- CD_VOXEL (0xA0). -/
def execCdVoxel (g : CoreId) (s : State) : Host.Outcome State Fault Refusal := .next (s.cdVoxel g)
/-- CD_RULES (0xA1). -/
def execCdRules (g : CoreId) (s : State) : Host.Outcome State Fault Refusal := .next (s.cdRules g)
/-- CD_GATHER (0xA2). -/
def execCdGather (g : CoreId) (s : State) : Host.Outcome State Fault Refusal := .next (s.cdGather g)
/-- CD_BEV (0xA3). -/
def execCdBev (g : CoreId) (s : State) : Host.Outcome State Fault Refusal := .next (s.cdBev g)

end Sys2Proof.Machine
end

