-- ==== Sys2Proof/Machine/Heald.lean ====
section
/-! DEFINITION. The Heald commands (06 §6.4): copies, transposes, gathers and scatters (R225–R229). -/

namespace Sys2Proof.Machine

/-- The descriptors of a Heald command: source, destination, index. -/
def State.hlDescs (s : State) (g : CoreId) (x : Cmd) : Desc × Desc × Desc :=
  (s.desc g (fld x.op 19 8), s.desc g (fld x.op 31 20), s.desc g (fld x.op 43 32))
/-- The group of the unit in elements (R207). -/
def hlGroup (d : Desc) : Nat := if d.fmt = 1 then 512 else 256 / d.e

/-- HL_COPY (R206–R208): element p of the source to element p of the destination, Lat 2. -/
def State.hlCopy (s : State) (g : CoreId) : State :=
  match s.nextOp g 4 0x80 with
  | none => s
  | some x =>
    let d := s.hlDescs g x
    let n := hlGroup d.1
    let t := s.now
    s.accept g x false
      (readSteps 8 d.1.gath (d.1.readBy n) (fun k => t + 1 + k) ++
        writeSteps 9 d.2.1.gath (d.2.1.writesBy (s.elems g d.1) n) (fun k => t + 6 + k) (fun _ => 0) (fun _ => []))

/-- The index in the source of element p of a transposed tile. -/
def transposed (sd dd : Desc) (p : Nat) : Nat := p / (dd.sz 0 + 1) + p % (dd.sz 0 + 1) * (sd.sz 0 + 1)
/-- HL_TRANSPOSE (R229): destination element (i, j) is source element (j, i); the tile is read in line mode, one row per clk,
and written one row per clk. -/
def State.hlTranspose (s : State) (g : CoreId) : State :=
  match s.nextOp g 4 0x81 with
  | none => s
  | some x =>
    let sd := (s.hlDescs g x).1
    let dd := (s.hlDescs g x).2.1
    let rr := sd.sz 1 + 1
    let t := s.now
    let codes := (List.range dd.count).map fun p => s.elemCode g sd (transposed sd dd p)
    s.accept g x false
      (readSteps 8 false (sd.readBy (sd.sz 0 + 1)) (fun k => t + 1 + k) ++
        writeSteps 9 dd.gath (dd.writesBy codes (dd.sz 0 + 1)) (fun k => t + rr + 4 + k) (fun _ => 0) (fun _ => []))

/-! ## Indexed rows (R226–R228) -/

/-- The index values of an index tensor. -/
def State.indices (s : State) (g : CoreId) (ix : Desc) : List Int := (s.elems g ix).map (intOf ix.fmt)
/-- The groups of 256 B of row i of an operand (R228). -/
def Desc.rowBy (d : Desc) (i : Nat) : List (List Nat) :=
  let l := d.rowOffs i
  chunks 256 l.length l
/-- The clk from the acceptance on in which group m of row i of an indexed command is presented, c groups a row: its index
group has been received before (R228, log entry 22). -/
def rowAt (c i m : Nat) : Nat := 5 + i * c + m
/-- The reads of the index tensor (R228): groups of 64 entries, the first in the clk after the acceptance, a later one with the
first row of the group before it. A group that is read counts its indices out of range and sets HL_OOR with them (R226). -/
def State.indexSteps (s : State) (g : CoreId) (ix : Desc) (oor : Int → Bool) (c : Nat) : List RunStep :=
  let bad := (chunks 64 (ix.sz 0 + 1) (s.indices g ix)).map fun l => l.countP oor
  ((readSteps 8 ix.gath (ix.readBy 64) (fun k => s.now + (if k = 0 then 1 else rowAt c (64 * (k - 1)) 0))).zip bad).map
    fun x => if x.2 = 0 then x.1 else { x.1 with flags := flagBit true 6, counts := [(0x508, x.2)] }
/-- Steps of a row, group m of row i presented in its clk, `late` clk behind the reads. -/
def rowSteps (kind : StepKind) (port : Nat) (gath : Bool) (now late c i : Nat) (l : List (List Acc)) : List RunStep :=
  l.zipIdx.map fun x =>
    { kind := kind, port := port, due := now + rowAt c i x.2 + late, grp := i * c + x.2, gath := gath, accs := x.1 }

/-- HL_GATHER (R226, R228): row i of the destination is row idx[i] of the table, or zeros. -/
def State.hlGather (s : State) (g : CoreId) : State :=
  match s.nextOp g 4 0x82 with
  | none => s
  | some x =>
    let sd := (s.hlDescs g x).1
    let dd := (s.hlDescs g x).2.1
    let ix := (s.hlDescs g x).2.2
    let idx := s.indices g ix
    let c := (dd.rowBy 0).length
    let t := s.now
    let reads := idx.zipIdx.flatMap fun e =>
      if sd.inRange e.1 then rowSteps .read 8 sd.gath t 0 c e.2 (readGroups sd.gath (sd.rowBy e.1.toNat)) else []
    let data := idx.zipIdx.flatMap fun e => (dd.rowBy e.2).zipIdx.map fun l =>
      l.1.zip (if sd.inRange e.1 then s.beamBytes g ((sd.rowBy e.1.toNat).getD l.2 []) else l.1.map fun _ => 0)
    let writes := ((writeGroups dd.gath data).zipIdx).map fun l =>
      ({ kind := .write, port := 9, due := t + rowAt c 0 l.2 + 5, grp := l.2, accs := l.1 } : RunStep)
    s.accept g x false (s.indexSteps g ix (fun v => !sd.inRange v) c ++ reads ++ writes)

/-- HL_SCATTER (R226–R228): row idx[i] of the table is source row i, in index order. -/
def State.hlScatter (s : State) (g : CoreId) : State :=
  match s.nextOp g 4 0x83 with
  | none => s
  | some x =>
    let sd := (s.hlDescs g x).1
    let dd := (s.hlDescs g x).2.1
    let ix := (s.hlDescs g x).2.2
    let idx := s.indices g ix
    let c := (sd.rowBy 0).length
    let t := s.now
    let offs := (List.range (sd.sz 1 + 1)).flatMap sd.rowBy
    let reads := ((readGroups sd.gath offs).zipIdx).map fun l =>
      ({ kind := .read, port := 8, due := t + rowAt c 0 l.2, grp := l.2, gath := sd.gath, accs := l.1 } : RunStep)
    let writes := idx.zipIdx.flatMap fun e =>
      if dd.inRange e.1 then
        rowSteps .write 9 false t 5 c e.2 (writeGroups dd.gath (((sd.rowBy e.2).zip (dd.rowBy e.1.toNat)).map fun l =>
          l.2.zip (s.beamBytes g l.1)))
      else []
    s.accept g x false (s.indexSteps g ix (fun v => !dd.inRange v) c ++ reads ++ writes)

/-- HL_COPY (0x80). -/
def execHlCopy (g : CoreId) (s : State) : Host.Outcome State Fault Refusal := .next (s.hlCopy g)
/-- HL_TRANSPOSE (0x81). -/
def execHlTranspose (g : CoreId) (s : State) : Host.Outcome State Fault Refusal :=
  .next (s.hlTranspose g)
/-- HL_GATHER (0x82). -/
def execHlGather (g : CoreId) (s : State) : Host.Outcome State Fault Refusal := .next (s.hlGather g)
/-- HL_SCATTER (0x83). -/
def execHlScatter (g : CoreId) (s : State) : Host.Outcome State Fault Refusal :=
  .next (s.hlScatter g)

end Sys2Proof.Machine
end

