-- ==== Sys2Proof/Machine/Weave.lean ====
section
/-! DEFINITION. The weave array (chapter 5): passes (R180–R190, R196–R198), drains (R191–R193, R199), the activity ramp
(R194, R195) and CORE_WA_STATUS. The array has a clk of its own, which a stall holds (R183): feeds, take-up writes and drain reads
fall in its clk, by R180, R184, R187, R189 and R193. -/

namespace Sys2Proof.Machine

/-! ## Weight sets and products -/

/-- The set of a weight descriptor (R184, R198). -/
def State.loadSet (s : State) (g : CoreId) (w : Desc) : WeightSet :=
  let n := w.sz 0 + 1
  let k := w.sz 1 + 1
  let sc := if isMx w.fmt then s.elems g (s.desc g w.scale) else []
  { fmt := w.fmt, k := k, n := n
    rows := (List.range k).map fun i => (List.range n).map fun j => s.elemCode g w (i * n + j)
    scales := if isMx w.fmt then (List.range k).map fun i => (List.range n).map fun j => sc.getD ((i * n + j) / 32) 0
      else [] }

/-- The value of an element of a floating or MX format (Table 4.7, R198), its scale apart. -/
def waValue (fmt code : Nat) : Num :=
  if fmt = 8 then
    let v := signed 8 code
    .fin (v < 0) v.natAbs (-6)
  else (floatFmt fmt).decode code
/-- The value of an E8M0 scale (R198). -/
def e8m0 (c : Nat) : Num := if c = 0xFF then .nan else .fin false 1 ((c : Int) - 127)
/-- The value of an element with its scale. -/
def waScaled (fmt : Nat) (x : Nat × Nat) : Num :=
  if isMx fmt then (waValue fmt x.1).mul (e8m0 x.2) else waValue fmt x.1

/-- Element index of element k of vector v (§5.2): skewed, or chunk by chunk in queued mode. -/
def dataIndex (queued : Bool) (x : Desc) (v k : Nat) : Nat :=
  let n0 := x.sz 0 + 1
  if queued then v % n0 + n0 * (k + (x.sz 1 + 1) * (v / n0)) else v * n0 + k

/-- The column sum of a vector of data codes with scales by a column of weights, as FP32 bits: over PE rows 0 to 127 in ascending
order, of which those from K on add +0.0 (R184, R196, R197). Several such additions are as one. -/
def columnSum (fx fw : Nat) (l : List ((Nat × Nat) × (Nat × Nat))) : Nat :=
  if isInt fx || fx == 1 then
    bits32 (rn (ofInt (l.foldl (fun n e => n + intOf fx e.1.1 * intOf fw e.2.1) 0)))
  else
    let add := fun (acc : Num) (e : (Nat × Nat) × (Nat × Nat)) => rn (acc.add ((waScaled fx e.1).mul (waScaled fw e.2)))
    let sum := l.foldl add (.fin false 0 0)
    bits32 (if l.length < 128 then rn (sum.add (.fin false 0 0)) else sum)

/-- The column results of a vector for a set, or the 128 zeros of a pass with no active set (R188). -/
def WeightSet.results (w : Option WeightSet) (fx : Nat) (vec : List (Nat × Nat)) : List Nat :=
  match w with
  | none => List.replicate 128 0
  | some w => (List.range w.n).map fun j =>
      columnSum fx w.fmt ((vec.zipIdx).map fun e =>
        (e.1, ((w.rows.getD e.2 []).getD j 0, (w.scales.getD e.2 []).getD j 0)))

/-! ## The take-up (R176) -/

/-- Device address of entry (r, j). -/
def takeAt (g : CoreId) (r j : Nat) : Nat := takeBase g + 512 * r + 4 * j
/-- The FP32 bits of an entry. -/
def State.takeEntryBits (s : State) (g : CoreId) (r j : Nat) : Nat := leNat (s.bytes (takeAt g r j) 4)
/-- An entry written, its parity generated. -/
def State.putTake (s : State) (g : CoreId) (r j v : Nat) : State :=
  (s.setBytes (takeAt g r j) (leBytes 4 v)).setPar (takeAt g r j) false
/-- A row of entries written from column 0. -/
def State.putTakeRow (s : State) (g : CoreId) (r : Nat) (l : List Nat) : State :=
  l.zipIdx.foldl (fun s e => s.putTake g r e.2 e.1) s
/-- The layout of CORE_PAR_SRC of a take-up error (R200). -/
def takeLayout (r j : Nat) : Dword := BitVec.ofNat 64 (512 * r + 4 * j + 2 * 2 ^ 32 + 2 ^ 63)
/-- The errors that a read of entries finds (R200). -/
def State.takeErrs (s : State) (g : CoreId) (step : Nat) (l : List (Nat × Nat)) : List (Nat × Dword) :=
  (l.filter fun e => s.badWord (takeAt g e.1 e.2)).map fun e => (step, takeLayout e.1 e.2)

/-! ## Passes -/

/-- The array's clk per group S (Table 5.6). -/
def State.rampS (s : State) (g : CoreId) : Nat := fld (s.creg g 0x400) 2 0 + 1
/-- The most recent pass that loaded a set, by its feed start. -/
def Weave.lastFeed (w : Weave) : Option Nat := w.passes.findSome? fun p => p.f
/-- Feed start and data start of a pass accepted in clk a of the array with ungating clk u (R187). -/
def Weave.times (w : Weave) (keep : Bool) (a u : Nat) : Option Nat × Nat :=
  let after := match w.passes with | [] => 0 | p :: _ => p.d + p.s * p.m
  if keep then (none, max (max (a + 4) after) u)
  else
    let f := max (max (a + 4) (match w.lastFeed with | some f => f + 128 | none => 0)) u
    (some f, max (f + 1) after)
/-- The array wakes for a pass (R195): the sequence and the ungating clk. -/
def Weave.wake (w : Weave) (a s : Nat) : Weave × Nat :=
  if w.gated = 0 then ({ w with gateSeq := .idle, idleClk := 0 }, 0)
  else
    ({ w with
        gateSeq := match w.gateSeq with | .ungating n => .ungating n | _ => .ungating s
        idleClk := 0 }, a + w.gated * s)

/-- The lines of an operand by runs along dimension 0, each with the scales of its blocks, which ride on the same port
(R141, R173, R184). -/
def State.feedLines (s : State) (g : CoreId) (d : Desc) : List (List Acc) :=
  let data := readGroups false (d.readBy (d.sz 0 + 1))
  if isMx d.fmt then
    let sc := s.desc g d.scale
    (data.zip (readGroups false (sc.readBy (sc.sz 0 + 1)))).map fun e => e.1 ++ e.2
  else data
/-- Two runs to one: an INT4 weight row holds two (R184). -/
def pairLines : List (List Acc) → List (List Acc)
  | a :: b :: t => (a ++ b.filter fun x => !a.any fun y => y.line == x.line) :: pairLines t
  | l => l
/-- The feed of a set (R184): PE row i enters in clk f + i, its lines are presented 4 clk before. -/
def State.weightFeed (s : State) (g : CoreId) (d : Desc) (f : Nat) : List FeedItem :=
  let rows := if d.fmt = 1 then pairLines (s.feedLines g d) else s.feedLines g d
  rows.zipIdx.map fun x => { due := f + x.2 - 4, need := f + x.2, leave := f + x.2, accs := x.1 }
/-- The feed of the data (R180, R181): a vector's lines 4 clk before it enters PE row 0; in queued mode chunk by chunk and k-row by
k-row, from the clk after the acceptance a on, each line until its queue has released its last element. -/
def State.dataFeed (s : State) (g : CoreId) (queued : Bool) (d : Desc) (a d0 sp : Nat) : List FeedItem :=
  let kPe := fun (k : Nat) => if d.fmt = 1 then k / 2 else k
  (s.feedLines g d).zipIdx.map fun x =>
    if queued then
      let k := x.2 % (d.sz 1 + 1)
      let c := x.2 / (d.sz 1 + 1)
      { due := a + 1, need := d0 + sp * (d.sz 0 + 1) * c + kPe k, leave := d0 + sp * (d.sz 0 + 1) * (c + 1) + kPe k
        kRow := some k, accs := x.1 }
    else { due := d0 + sp * x.2 - 4, need := d0 + sp * x.2, leave := d0 + sp * x.2, accs := x.1 }

/-- WV_PASS accepted (R180–R190, R195–R198): its set, its column results, its feeds and its times. The values of its operands stand,
since no other writer reaches them while it runs (R132). -/
def State.wvPassWith (s : State) (g : CoreId) (x : Cmd) : State :=
  let keep := bit x.op 45
  let queued := bit x.op 44
  let xd := s.desc g (fld x.op 19 8)
  let wd := s.desc g (fld x.op 31 20)
  let m := passM x.op xd
  let w0 := (s.core g).weave
  let set := if keep then w0.active else some (s.loadSet g wd)
  let n := match set with | some w => w.n | none => 128
  let sc := if isMx xd.fmt then s.elems g (s.desc g xd.scale) else []
  let cols := (List.range m).map fun v =>
    WeightSet.results set xd.fmt ((List.range (passK x.op xd)).map fun i =>
      let p := dataIndex queued xd v i
      (s.elemCode g xd p, sc.getD (p / 32) 0))
  let woken := w0.wake w0.clk (s.rampS g)
  let t := w0.times keep w0.clk woken.2
  let sp := if xd.e = 2 then 2 else 1
  let p : PassTime :=
    { step := x.step, f := t.1, d := t.2, s := sp, m := m, n := n, last := t.2 + sp * (m - 1) + n + 130
      row := fld x.op 42 32, acc := bit x.op 43, cols := cols, act := s.dataFeed g queued xd w0.clk t.2 sp
      wgt := (match t.1 with | some f => s.weightFeed g wd f | none => []), bad := (match set with | some w => w.bad | none => []) }
  let w1 : Weave :=
    { woken.1 with
      active := set
      prev := if keep then w0.prev else w0.active
      passes := p :: w0.passes
      noset := w0.noset || (keep && set.isNone) }
  ((s.modCore g fun c => { c with weave := w1 }).setCmd g x.step 1 .waiting).ccount g 0x40C (if w0.gated = 0 then 0 else 1)

/-- WV_PASS (R180–R190, R195–R198). -/
def State.wvPass (s : State) (g : CoreId) : State :=
  match s.nextOp g 1 0x20 with
  | none => s
  | some x => s.wvPassWith g x

/-! ## Drains -/

/-- The clk of the last write of an accepted pass to a take-up row (R189). -/
def PassTime.rowLast (p : PassTime) (r : Nat) : Nat :=
  if p.row ≤ r ∧ r < p.row + p.m then p.last - p.s * (p.m - 1 - (r - p.row)) else 0
/-- An FP32 entry in a drain's destination format (R199). -/
def drainCode (fmt : Nat) (sr : Option Nat) (v : Nat) : Nat :=
  if fmt = 0xE then v else ((floatFmt fmt).encode (if isNarrow fmt then sr else none) (num32 v)).1

/-- WV_DRAIN accepted (R192, R193): its rows are read from the next clk on. -/
def State.wvDrain (s : State) (g : CoreId) : State :=
  match s.nextOp g 1 0x21 with
  | none => s
  | some x =>
    let d := s.desc g (fld x.op 19 8)
    let t : DrainTime :=
      { step := x.step, op := x.op, row := fld x.op 30 20, rows := d.sz 1 + 1, done := 0, next := (s.core g).weave.clk + 1 }
    (s.setCmd g x.step 1 .waiting).modCore g fun c =>
      { c with
        weave := { c.weave with drain := some t }
        runs := c.runs ++ [{ owner := .cmd x.step 1, chain := false, arr := true, start := s.now, steps := [] }] }

/-- The run of a drain. -/
def Run.isDrain (r : Run) (step : Nat) : Bool := r.arr && r.owner == .cmd step 1
/-- The writes of drain row i: those of its lines that no later row touches, with what earlier rows left for them (R141, log
entry 40); the rest is left for later. -/
def drainLines (d : Desc) (i : Nat) (left row : List (Nat × Byte)) : List Acc × List (Nat × Byte) :=
  let later := (touchedLines ((List.range (d.sz 1 - i)).flatMap fun k => d.rowOffs (i + 1 + k)) []).map (·.1)
  let all := left ++ row
  ((groupLines (all.filter fun e => !later.contains (e.1 / 64))).map fun e =>
      { line := e.1, mask := maskOf e.2, data := some (dataOf e.2) },
    all.filter fun e => later.contains (e.1 / 64))

/-- One clk of a drain (R191, R193): the next row is read if its passes have written it and TU_OUT holds no write; its entries are
converted, and zeroed with ZERO; its writes are presented 3 clk later. With the state come the parity errors. -/
def State.drainClk (s : State) (g : CoreId) : State × List (Nat × Dword) :=
  let c := s.core g
  let w := c.weave
  match w.drain with
  | none => (s, [])
  | some t =>
    let r := t.row + t.done
    let holds := c.runs.any fun x => x.isDrain t.step && x.steps.any fun y => y.accs.any (·.must)
    if t.rows ≤ t.done ∨ w.clk < t.next ∨ holds ∨ w.passes.any (fun p => w.clk ≤ p.rowLast r) then (s, [])
    else
      let d := s.desc g (fld t.op 19 8)
      let n := d.sz 0 + 1
      let cells := (List.range n).map fun j => (r, j)
      let x : Cmd := { step := t.step, slot := 1, op := t.op, card := 0, phase := .waiting }
      let codes := (List.range n).map fun j =>
        drainCode d.fmt (s.srOf g (bit t.op 32) x (t.done * n + j)) (s.takeEntryBits g r j)
      let row := (d.rowOffs t.done).zip (codes.flatMap (leBytes d.e))
      let left := ((c.runs.find? fun x => x.isDrain t.step).map (·.held)).getD []
      let l := drainLines d t.done left row
      let pace := max 1 (ceilDiv (touchedLines (d.rowOffs t.done) []).length 4)
      let s1 := if bit t.op 31 then cells.foldl (fun s e => s.putTake g e.1 e.2 0) s else s
      (s1.modCore g fun c =>
        { c with
          weave := { c.weave with drain := some { t with done := t.done + 1, next := w.clk + pace } }
          runs := c.runs.map fun x =>
            if x.isDrain t.step then
              { x with held := l.2, steps := x.steps ++ [{ kind := .write, port := 2, due := w.clk + 3, grp := t.done, accs := l.1 }] }
            else x },
        s.takeErrs g t.step cells)

/-! ## One clk of the array (R183, R189, R190) -/

/-- The entries that a pass writes in a clk, with its vectors (R189). -/
def PassTime.entries (p : PassTime) (clk : Nat) : List (Nat × Nat) :=
  (List.range p.m).filterMap fun v =>
    let t := p.d + p.s * v + 131
    if t ≤ clk ∧ clk - t < p.n then some (v, clk - t) else none
/-- A pass stores its entries of this clk: the column result, or the entry plus it (R189, R190). -/
def State.passStore (s : State) (g : CoreId) (p : PassTime) (clk : Nat) : State :=
  (p.entries clk).foldl (fun s e =>
    let r := (p.cols.getD e.1 []).getD e.2 0
    s.putTake g (p.row + e.1) e.2
      (if p.acc then bits32 (fadd (num32 (s.takeEntryBits g (p.row + e.1) e.2)) (num32 r)) else r)) s
/-- The errors that a pass finds in this clk: in the entries it adds to, and, in the clk of its first products, in the registers of
its set (R200, R201). -/
def State.passErrs (s : State) (g : CoreId) (p : PassTime) (clk : Nat) : List (Nat × Dword) :=
  (if p.acc then s.takeErrs g p.step ((p.entries clk).map fun e => (p.row + e.1, e.2)) else []) ++
    (if clk = p.d then p.bad.map fun o => (p.step, s.parLayout g o 1 false true) else [])
/-- One clk of the array: a stall, counted, or the take-up writes, the retirements and the drain's read of the clk. With the state
come the parity errors, by step and layout. -/
def State.weaveClk (s : State) (g : CoreId) : State × List (Nat × Dword) :=
  let w := (s.core g).weave
  if w.stalls s.now then (s.ccount g 0x408 1, [])
  else
    let ps := w.passes.reverse
    let s1 := ps.foldl (fun s p => s.passStore g p w.clk) s
    let s2 := (ps.filter fun p => p.last == w.clk).foldl (fun s p => s.setCmd g p.step 1 (.running s.now)) s1
    let d := s2.drainClk g
    (d.1.modCore g fun c => { c with weave :=
      { c.weave with
        clk := w.clk + 1
        passes := c.weave.passes.map fun p =>
          { p with act := p.act.filter fun x => w.clk < x.leave, wgt := p.wgt.filter fun x => w.clk < x.leave } } },
      ps.flatMap (fun p => s.passErrs g p w.clk) ++ d.2)

/-! ## The activity ramp (R194, R195) -/

/-- The array holds an accepted pass. -/
def Weave.busy (w : Weave) (clk : Nat) : Bool := w.passes.any fun p => clk ≤ p.last
/-- One clk of the ramp: the idle count and the clk to the next group. -/
def Weave.ramp (w : Weave) : Weave :=
  match w.gateSeq with
  | .ungating n => { w with gateSeq := .ungating (n - 1), idleClk := 0 }
  | .gating n => { w with gateSeq := .gating (n - 1), idleClk := w.idleClk + 1 }
  | .idle => { w with idleClk := if w.busy w.clk then 0 else w.idleClk + 1 }

/-- ARRAY_GATE_GROUP (R194): the next group gates when it is due. -/
def State.gateGroup (s : State) (g : CoreId) : State :=
  let w := (s.core g).weave
  let gate := fld (s.creg g 0x400) 15 4
  let due := match w.gateSeq with
    | .idle => gate != 0 && gate ≤ w.idleClk
    | .gating n => n == 0
    | .ungating _ => false
  if due && w.gated < 16 && !w.busy w.clk then
    s.modCore g fun c => { c with weave := { w with gated := w.gated + 1, gateSeq := .gating (s.rampS g) } }
  else s

/-- ARRAY_UNGATE_GROUP (R195): the next group ungates when it is due; with the last one the sequence ends. -/
def State.ungateGroup (s : State) (g : CoreId) : State :=
  let w := (s.core g).weave
  match w.gateSeq with
  | .ungating 0 =>
    s.modCore g fun c =>
      { c with weave :=
        { w with
          gated := w.gated - 1
          gateSeq := if w.gated ≤ 1 then .idle else .ungating (s.rampS g)
          idleClk := 0 } }
  | _ => s

/-- CORE_WA_STATUS (Table 5.7). -/
def State.waStatus (s : State) (g : CoreId) : Dword :=
  let w := (s.core g).weave
  let aset := w.passes.any fun p => p.f.isSome && p.d ≤ w.clk && (match w.lost with | some t => t < p.d | none => true)
  let sset := w.passes.any fun p => match p.f with | some f => f ≤ w.clk && w.clk < p.d | none => false
  BitVec.ofNat 64 (flagBit aset 0 + flagBit sset 1 + flagBit (w.pending s.now) 2 + flagBit w.drain.isSome 3 + 16 * w.gated +
    flagBit w.noset 9)

/-- WV_PASS. -/
def execWvPass (g : CoreId) (s : State) : Host.Outcome State Fault Refusal := .next (s.wvPass g)
/-- WV_DRAIN. -/
def execWvDrain (g : CoreId) (s : State) : Host.Outcome State Fault Refusal := .next (s.wvDrain g)
/-- ARRAY_GATE_GROUP. -/
def execArrayGateGroup (g : CoreId) (s : State) : Host.Outcome State Fault Refusal := .next (s.gateGroup g)
/-- ARRAY_UNGATE_GROUP. -/
def execArrayUngateGroup (g : CoreId) (s : State) : Host.Outcome State Fault Refusal := .next (s.ungateGroup g)

end Sys2Proof.Machine
end

