-- ==== Sys2Proof/Machine/Access.lean ====
section
/-! DEFINITION. Which blocks answer a host access (16 R504, 17 R520), when an RWL register's block is idle (00 R16 and the
idle conditions of the maps), the live value of every register (R11, R507, R514), and the plain write of one by the codes of
Table 0.8 (R12–R16). -/

namespace Sys2Proof.Machine

/-! ## Blocks that answer (Table 16.1) -/

/-- A power-on is under way and has not reached step 8 (Table 16.1). -/
def State.poweringOn (s : State) : Bool :=
  match s.power.seq with
  | .powerOn n => n < 8
  | _ => false
/-- The core clocks run (Table 15.3). -/
def State.clocksRun (s : State) : Bool := 3 ≤ s.pwrState && !s.poweringOn && !s.power.recovery
/-- A core's beam, auxiliary window and registers answer (R4, R474, R504, R520). -/
def State.coreAnswers (s : State) (g : CoreId) : Bool :=
  3 ≤ s.pwrState && !s.poweringOn && !s.power.recovery && s.works g
/-- Whether a block answers host accesses (R504). -/
def State.answers (s : State) : Block → Bool
  | .trd _ => 2 ≤ s.pwrState && !s.poweringOn && !s.power.recovery
  | .hdl => 2 ≤ s.pwrState && !s.poweringOn && !s.power.recovery
  | .tpl => 2 ≤ s.pwrState || s.poweringOn
  | .slv n => 2 ≤ s.pwrState && !s.poweringOn && !s.power.recovery && s.dieOn (32 + n.val)
  | .ldie d => 3 ≤ s.pwrState && !s.poweringOn && !s.power.recovery && s.dieOn d.val
  | .core g => s.coreAnswers g

/-- A Treadle die presents two functions (R337): 2×8 mode; in recovery it is ×16 (R444). -/
def State.twoFns (s : State) (td : Td) : Bool :=
  (if td = 0 then s.temple.settings.bif0 else s.temple.settings.bif1) && !s.power.recovery
/-- Registers that R507 reserves: function b's in ×16 mode, TRD_DROP_UNREPORTED of TD1. -/
def State.hidden (s : State) : Block → Nat → Bool
  | .trd td, o => (o == 0x14 && td != 0) || ((o == 0x20 || (0x120000 ≤ o && o < 0x128100)) && !s.twoFns td)
  | _, _ => false

/-! ## Idle conditions (R16) -/

/-- STATE of HDL_PROG_STATUS reads IDLE (R433). -/
def State.progState (s : State) : Nat := fld (s.getReg 0xC2000234) 2 0
/-- STATE of a spool reads STOPPED (Table 11.3). -/
def State.spoolState (s : State) (td : Td) (sp : SpoolId) : Nat := fld (s.getReg (spoolReg td sp 0x24)) 1 0
/-- The block of an RWL register is idle. -/
def State.idleAt (s : State) : Block → Nat → Bool
  | .trd td, o =>
    if 0x1000 ≤ o ∧ o < 0x2000 then s.spoolState td (Fin.ofNat 64 ((o - 0x1000) / 0x40)) == 0 else !s.active
  | .hdl, o => if 0x200 ≤ o ∧ o < 0x238 then s.progState == 0 else !s.active
  | .tpl, _ => !s.anyRuns
  | .slv n, o =>
    if o < 0x600 then fld (s.getReg (slv n (o / 0x100 * 0x100 + 4))) 2 0 != 5 else !s.anyRuns
  | .ldie d, o => !bit (s.getReg (ldie d (o / 0x40 * 0x40 + 0x28))) 0
  | .core g, _ => !s.runs g

/-! ## Live values -/

/-- The derived value of a register that no one writes: read from what it shows. -/
def State.liveReg (s : State) (b : Block) (o : Nat) : Dword :=
  match b with
  | .core g =>
    match o with
    | 0x00 => BitVec.ofNat 64 (g.toNat + 256 * g.toNat)
    | 0x04 => BitVec.ofNat 64 (flagBit (s.runs g) 0 + flagBit (s.halted g) 1 + flagBit (s.core g).captured 2
        + flagBit (s.core g).inject.isSome 3)
    | 0x12C => 0
    | 0x404 => s.waStatus g
    | 0x638 => s.cdSites g
    | 0x800 =>
      let c := s.core g
      BitVec.ofNat 64 (c.inUse.length + 2 ^ 8 * (c.transfers.countP fun x => x.2.phase == .gated)
        + 2 ^ 16 * fld (s.creg g 0x800) 22 16)
    | _ => s.creg g o
  | .hdl => if o = 0x40 then BitVec.ofNat 64 s.budget else s.getReg (hdl o)
  | .ldie d =>
    match o with
    | 0x00 => BitVec.ofNat 64 (d.val + ((List.range 8).map fun c => flagBit (s.fusedOff (coreOf d c)) (8 + c)).sum)
    | 0x10 =>
      s.getReg (ldie d o) ||| BitVec.ofNat 64 ((List.range 8).map fun c => flagBit (s.works (coreOf d c)) c).sum
    | _ => s.getReg (ldie d o)
  | .trd td =>
    if o = 0 then
      let f := fun (x : PcieFn) => if x.up then x.rate.val + 2 ^ 2 * x.width.toNat else 0
      let t := s.td td
      let two := if td = 0 then s.temple.settings.bif0 else s.temple.settings.bif1
      BitVec.ofNat 64 ((if t.fa.up then 1 else 0) + 2 * f t.fa + 2 ^ 8 * (if t.fb.up then 1 else 0) + 2 ^ 9 * f t.fb
        + 2 ^ 16 * td.val + (if two then 2 ^ 17 else 0))
    else s.getReg (trd td o)
  | .tpl =>
    let f := s.temple.fuses
    if o = 0 then BitVec.ofNat 64 (f.rev.toNat + (if f.oz240 then 2 ^ 8 else 0))
    else if 0x100 ≤ o ∧ o < 0x120 then BitVec.ofNat 64 (fld f.cores (8 * (o - 0x100) + 31) (8 * (o - 0x100)))
    else if o = 0x120 then f.svn
    else if 0x140 ≤ o ∧ o < 0x170 then BitVec.ofNat 64 (fld f.keyHash (8 * (o - 0x140) + 63) (8 * (o - 0x140)))
    else s.getReg (tpl o)
  | .slv n => s.getReg (slv n o)

end Sys2Proof.Machine
end

