-- ==== Sys2Proof/Machine/Packet.lean ====
section
/-! DEFINITION. Packets of the Voxvar fabric (12 §12.6, Tables 12.5 and 12.6) and their routes (12 R399–R404). A shuttle sends
one WRITE per destination line of a beat and one READ_REQ per source line (log entry 24). -/

namespace Sys2Proof.Machine

/-- A packet header (Table 12.5). -/
structure Header where
  type : Nat
  nl : Nat
  masked : Bool
  dpkg : Nat
  tpkg : Nat
  tcore : Nat
  tentry : Nat
  tgen : Nat
  tpick : Nat
  addr : Nat
deriving DecidableEq, Repr

/-- A header's 16 bytes. -/
def Header.bytes (h : Header) : List Byte :=
  leBytes 16 (h.type % 2 ^ 8 + 2 ^ 8 * (h.nl % 8) + (if h.masked then 2 ^ 11 else 0) + 2 ^ 16 * (h.dpkg % 2 ^ 10)
    + 2 ^ 32 * (h.tpkg % 2 ^ 10) + 2 ^ 42 * (h.tcore % 2 ^ 8) + 2 ^ 50 * (h.tentry % 2 ^ 6)
    + 2 ^ 56 * (h.tgen % 2 ^ 16) + 2 ^ 72 * (h.tpick % 2 ^ 8) + 2 ^ 80 * (h.addr % 2 ^ 32)
    + 2 ^ 112 * (h.tgen / 2 ^ 16 % 2 ^ 16))
/-- The header that 16 bytes spell. -/
def parseHeader (l : List Byte) : Header :=
  let v := leNat (l.take 16)
  let f := fun hi lo => (v / 2 ^ lo) % 2 ^ (hi + 1 - lo)
  { type := f 7 0, nl := f 10 8, masked := f 11 11 == 1, dpkg := f 25 16, tpkg := f 41 32, tcore := f 49 42
    tentry := f 55 50, tgen := f 71 56 + 2 ^ 16 * f 127 112, tpick := f 79 72, addr := f 111 80 }

/-- The header is malformed on a virtual channel (R396). -/
def Header.malformed (h : Header) (vc : Fin 2) : Bool :=
  let req := h.type == 1 || h.type == 2 || h.type == 3
  let resp := 0x11 ≤ h.type && h.type ≤ 0x14
  let data := h.type == 1 || h.type == 2 || h.type == 0x11
  !(req || resp) || (req && vc == 1) || (resp && vc == 0) || 4 < h.nl || (data && h.nl == 0) || (!data && h.nl != 0)
/-- Bytes of the packet behind its header (Table 12.6). -/
def Header.dataLen (h : Header) : Nat :=
  if h.type = 1 then h.nl * (if h.masked then 72 else 64) else if h.type = 0x11 then h.nl * 64 else 0
/-- A response header to a request. -/
def Header.reply (h : Header) (type nl : Nat) : Header :=
  { h with type := type, nl := nl, masked := false, dpkg := h.tpkg, addr := 0 }

/-- Bytes appended to a virtual channel of a port (R395). -/
def State.sendBytes (s : State) (p : PortId) (vc : Fin 2) (l : List Byte) : State :=
  let x := s.port p
  s.setPort p (if vc = 0 then { x with tx0 := x.tx0 ++ l } else { x with tx1 := x.tx1 ++ l })
/-- A port of a Selvedge die. -/
def portOf (n : Sd) (k : Nat) : PortId := Fin.ofNat 24 (6 * n.val + k)
/-- The route entry of a Selvedge die for a package (Table 12.7). -/
def State.routeTo (s : State) (n : Sd) (pkg : Nat) : Dword := s.getReg (slv n (0x10000 + 8 * (pkg % 1024)))
/-- Why a Selvedge die is not done, kept at the lowest cause of the pick (R88, R400, R402). -/
def State.sdCause (s : State) (n : Sd) (code : Nat) : State :=
  let x := s.sd n
  let c := match x.causeNow with
    | some b => min b.toNat code
    | none => code
  (s.setSd n { x with causeNow := some (BitVec.ofNat 8 c) }).cause code (0x101 + n.val)
/-- A packet with no usable route is discarded (R400). -/
def State.noRoute (s : State) (n : Sd) (pkg : Nat) : State :=
  let s1 := (s.count (slv n 0x804) 1).sdCause n 0x03
  if (s1.sd n).norouteLogged then s1
  else (s1.setSd n { s1.sd n with norouteLogged := true }).logSd n 0x4004
    (6 * n.val + fld (s.routeTo n pkg) 6 4) (BitVec.ofNat 64 (pkg % 1024))
/-- The port a packet leaves through, none without a usable route. -/
def State.routePort (s : State) (n : Sd) (pkg : Nat) : Option PortId :=
  let r := s.routeTo n pkg
  if bit r 0 && !bit r 3 && fld r 6 4 < 6 then some (portOf n (fld r 6 4)) else none
/-- A packet sent on from a Selvedge die: forwarded, answered or launched. -/
def State.sendPacket (s : State) (n : Sd) (vc : Fin 2) (h : Header) (data : List Byte) : State :=
  match s.routePort n h.dpkg with
  | none => s.noRoute n h.dpkg
  | some p => s.sendBytes p vc (h.bytes ++ data)

/-- The header of a request of a transfer. -/
def State.requestHeader (s : State) (type nl : Nat) (masked : Bool) (dpkg : Nat) (a : AckTo) (addr : Nat) : Header :=
  { type := type, nl := nl, masked := masked, dpkg := dpkg, tpkg := s.pkg, tcore := a.core.toNat, tentry := a.entry
    tgen := a.gen.toNat, tpick := a.pick.toNat, addr := addr }
/-- A request of this package toward another leaves a core for its Selvedge die (R322, R399). -/
def State.request (s : State) (g : CoreId) (h : Header) (data : List Byte) (a : AckTo) : State :=
  match s.originSd h.dpkg with
  | none => s
  | some n => s.cross n g (.request h.bytes data a)
/-- A request of this package at its Selvedge die, which launches it (R399, R404). -/
def State.launch (s : State) (n : Sd) (h : Header) (data : List Byte) (a : AckTo) : State :=
  match s.routePort n h.dpkg with
  | none => s.noRoute n h.dpkg
  | some p =>
    let s1 := s.sendBytes p 0 (h.bytes ++ data)
    s1.setSd n { s1.sd n with launched := (s1.sd n).launched ++ [{ port := p, owner := a }] }

/-- The data of a WRITE of one line: whole, or preceded by its mask (Table 12.6). -/
def lineData (l : List (Nat × Byte)) : Bool × List Byte :=
  let m := maskOf l
  let bytes := leBytes 64 (dataOf l).toNat
  if m = BitVec.allOnes 64 then (false, bytes) else (true, leBytes 8 m.toNat ++ bytes)

end Sys2Proof.Machine
end

