-- ==== Sys2Proof/Machine/Shuttle.lean ====
section
/-! DEFINITION. The shuttles (chapter 10): transfers, gates, cancels and relays, the beats that cross the mesh, staged writes at the
fell buffer (02 §2.6), and acknowledgements (09 R283). The legs of a transfer are runs at the core that holds their bytes (R316,
R319); what their groups have read goes on in State.tick. -/

namespace Sys2Proof.Machine

/-! ## The fell buffer (R70–R74) -/

/-- CORE_FELL_USE for the lines in use (R74). -/
def State.fellUse (s : State) (g : CoreId) : State :=
  let c := s.core g
  let ls := c.fell ++ c.drainFell ++ c.heldFell
  let most := (List.range 32).foldl (fun m b => max m (ls.countP fun x => bankOf x.line == b)) 0
  s.setCreg g 0x310 (BitVec.ofNat 64 (ls.length + 2 ^ 16 * most))

/-- A staged line at the fell buffer: merged into its source's line, given a new line, or discarded with the cause of the
drop (R71–R73). -/
def State.stageLine (s : State) (g : CoreId) (x : FellLine) : State :=
  let c := s.core g
  match c.fell.find? fun y => y.line == x.line with
  | some y =>
    if y.src ≠ x.src then s.cause 0x08 g.toNat
    else
      let whole := fun (w : Nat) => fld x.mask (4 * w + 3) (4 * w) == 15
      let bad := (List.range 16).foldl (fun (b : BitVec 16) w => putBit b w (y.bad.getLsbD w && !whole w)) 0
      let z : FellLine := { y with
        mask := y.mask ||| x.mask, data := dataOf (maskedBytes y.mask y.data ++ maskedBytes x.mask x.data), bad := bad }
      s.modCore g fun c => { c with fell := c.fell.map fun w => if w.line == x.line then z else w }
  | none =>
    if Config.sliceCap ≤ c.fell.countP fun y => bankOf y.line == bankOf x.line then s.cause 0x07 g.toNat
    else
      let b := bankOf x.line
      (s.modCore g fun c => { c with
        fell := c.fell ++ [x], fellAlloc := sset (fun _ => 0) c.fellAlloc b (sget (fun _ => 0) c.fellAlloc b + 1) }).fellUse g

/-- The staged lines of bytes of a source. -/
def fellLines (l : List (Nat × Byte)) (src : FellSrc) : List FellLine :=
  (groupLines l).map fun e => { line := e.1, mask := maskOf e.2, data := dataOf e.2, bad := 0, src := src }

/-- A captured core's mesh port discards a beat that would write its beam or fell buffer (R278). -/
def State.captureDiscard (s : State) (g : CoreId) : State :=
  let v := s.creg g 0x138
  s.setCreg g 0x138 (putFld v 31 16 (satAdd16 (fld v 31 16) 1))

/-! ## Transfers: their parts -/

/-- Handles of a transfer's source, ring and destination (Tables 10.2 and 10.3). -/
def Transfer.srcH (t : Transfer) : Nat := fld t.op 22 11
/-- The ring of a relay. -/
def Transfer.ringH (t : Transfer) : Nat := fld t.op 34 23
/-- Relay, not copy. -/
def Transfer.relay (t : Transfer) : Bool := fld t.op 7 0 == 0xC1
/-- The destination. -/
def Transfer.dstH (t : Transfer) : Nat := if t.relay then fld t.op 46 35 else fld t.op 34 23
/-- The completion signal: SIDE and SKNOT, none without SIG. -/
def Transfer.sig (t : Transfer) : Option (Bool × Nat) :=
  if t.relay then (if bit t.op 47 then some (bit t.op 48, fld t.op 58 49) else none)
  else if bit t.op 35 then some (bit t.op 36, fld t.op 46 37) else none
/-- Whom the acknowledgements of a part of a transfer go to. -/
def State.ackTo (s : State) (g : CoreId) (e : Nat) (t : Transfer) (part : Nat) : AckTo :=
  { core := g, entry := e, gen := ((s.core g).trk e).gen, pick := t.pick, part := part }
/-- The transfer of an entry changed. -/
def State.modTr (s : State) (g : CoreId) (e : Nat) (f : Transfer → Transfer) : State :=
  s.modCore g fun c => c.setTrk e { c.trk e with tr := (c.trk e).tr.map f }
/-- The transfer an acknowledgement names is live (R312). -/
def State.live (s : State) (a : AckTo) : Bool :=
  match ((s.core a.core).trk a.entry).tr with
  | some t => ((s.core a.core).trk a.entry).gen == a.gen && t.pick == a.pick
  | none => false
/-- Writes of a part that are not acknowledged. -/
def Transfer.owes (t : Transfer) (part : Nat) : Nat := sget (fun _ => 0) t.unacked part
/-- Writes of a part begun. -/
def Transfer.owe (t : Transfer) (part n : Nat) : Transfer :=
  { t with unacked := sset (fun _ => 0) t.unacked part (t.owes part + n) }
/-- A write of a part acknowledged. -/
def Transfer.paid (t : Transfer) (part : Nat) : Transfer :=
  { t with unacked := sset (fun _ => 0) t.unacked part (t.owes part - 1) }
/-- Nothing of a transfer is outstanding. -/
def Transfer.settled (t : Transfer) : Bool := t.unacked == [] && t.toSend == 0 && t.reads.isEmpty

/-! ## Legs (R315, R316, R319, R329) -/

/-- A leg of a transfer: where its bytes come from and go to, by descriptor, stream offsets first byte and count, staged. -/
structure Leg where
  src : Desc
  dst : Desc
  srcAt : Nat
  dstAt : Nat
  count : Nat
  staged : Bool

/-- Offsets of a leg's source bytes. -/
def Leg.from' (l : Leg) : List Nat := (List.range l.count).map fun i => l.src.streamOff (l.srcAt + i)
/-- Offsets of a leg's destination bytes. -/
def Leg.into (l : Leg) : List Nat := (List.range l.count).map fun i => l.dst.streamOff (l.dstAt + i)
/-- Chunk size of a relay. -/
def Transfer.chunkSize (t : Transfer) : Nat := 64 * 2 ^ fld t.op 62 59
/-- The bytes of a relay's ring (Table 10.5). -/
def State.ringBytes (s : State) (g : CoreId) (t : Transfer) : Nat :=
  let r := s.desc g t.ringH
  (r.sz 0 + 1) * r.pair / 2
/-- The leg that is a part of a transfer: part 0 of a copy; parts 2j and 2j + 1 of a relay's chunk j (R329). -/
def State.leg (s : State) (g : CoreId) (t : Transfer) (part : Nat) : Leg :=
  let src := s.desc g t.srcH
  let dst := s.desc g t.dstH
  let n := src.byteCount
  if !t.relay then { src := src, dst := dst, srcAt := 0, dstAt := 0, count := n, staged := t.staged }
  else
    let ring := s.desc g t.ringH
    let at' := part / 2 * t.chunkSize
    let rg := s.ringBytes g t
    let m := min t.chunkSize (n - at')
    if part % 2 = 0 then { src := src, dst := ring, srcAt := at', dstAt := at' % rg, count := m, staged := false }
    else { src := ring, dst := dst, srcAt := at' % rg, dstAt := at', count := m, staged := t.staged }

/-- Bytes in beats of 64 (R323). -/
def beatsOf (l : List (Nat × Byte)) : List (List (Nat × Byte)) := chunks 64 l.length l
/-- The place of a transfer started in a clk in the order of R318. -/
def startOrder (clk : Nat) (g : CoreId) (n : Fin 4) : Nat := clk * 2048 + g.toNat * 8 + n.val
/-- Lines that staged bytes touch, by the beats or groups that carry them. -/
def stagedCount (l : List (List Nat)) : Nat := (l.map fun x => (touchedLines x []).length).sum

/-- A leg begins (R316, R319, R322, R329). Its request reaches the core that holds the source L clk after the issuing core sends it;
group k is read there from the next clk on. -/
def State.runLeg (s : State) (g : CoreId) (e : Nat) (t : Transfer) (part : Nat) : State :=
  let l := s.leg g t part
  let a := s.ackTo g e t part
  let hs := l.src.core g
  let hd := l.dst.core g
  let a0 := s.now + if hs = g then 0 else meshLat g hs
  let gath := l.src.gath
  let run := fun (dest : RunDest) (next : Nat → List Nat → RunStep) =>
    ({ owner := .leg a t.shu, dest := dest, order := startOrder s.now g t.shu, chain := false, start := s.now
       into := l.into, steps := shReads gath l.from' a0 next } : Run)
  let pass := fun (at' : Nat) (k : Nat) (places : List Nat) =>
    ({ kind := .pass, port := 12, due := a0 + at' + k, dst := places } : RunStep)
  if l.src.remote then
    let lines := (touchedLines l.from' []).map (·.1)
    let base := l.src.base / 0x800000 * 0x800000
    let s1 := lines.foldl (fun s n => s.request g (s.requestHeader 2 1 false l.src.pkg a (base + 64 * n)) [] a) s
    s1.modTr g e fun t => { t with
      reads := t.reads ++ (List.range lines.length).map fun i => (part, i)
      got := [], gotNext := 0
      firstOut := if t.firstOut.isSome then t.firstOut else some (s.getReg (hdl 0)) }
  else if l.dst.remote then
    (s.addRun hs (run (.pkg (BitVec.ofNat 10 l.dst.pkg) (l.dst.base / 0x800000 * 0x800000)) (pass 4))).modTr g e fun t =>
      { t with toSend := t.toSend + ceilDiv l.count 64 }
  else if hs = hd then
    (if l.staged then
      (s.addRun hs (run .fell (pass 5))).modTr g e fun t =>
        t.owe part (stagedCount ((shGroups gath l.from').map fun x => x.map fun i => l.into.getD i 0))
    else
      (s.addRun hs (run .none fun k places =>
        { kind := .write, port := 13, due := a0 + 5 + k, dst := places.map fun i => l.into.getD i 0 })).modTr g e fun t =>
          t.owe part 1)
  else
    (s.addRun hs (run (.mesh hd l.staged) (pass 4))).modTr g e fun t =>
      t.owe part (if l.staged then stagedCount (chunks 64 l.count l.into) else ceilDiv l.count 64)

/-- The completion signal sent (R285, R320, R398), or the transfer retired if it has none. -/
def State.finish (s : State) (g : CoreId) (e : Nat) (t : Transfer) : State :=
  let d := s.desc g t.dstH
  let a := s.ackTo g e t 0
  let s0 := s.modTr g e fun t => { t with moved := some s.now, sigSent := true }
  match t.sig with
  | none => s0.retireTransfer g e
  | some (side, k) =>
    let here := side || d.core g == g && !d.remote
    if !side && d.remote then
      s0.request g (s.requestHeader 3 0 false d.pkg a ((d.core g).toNat + 2 ^ 8 * k)) [] a
    else
      let h := if here then g else d.core g
      let x : KnotSig :=
        { knot := k, val := 1, pick := t.pick, src := if here then .shuttle t.shu else .mesh, tr := some a, step := none
          pro := t.pro, remote := none, due := if here then s.now else s.now + meshLat g h }
      (s0.modCore h fun c => { c with sigIn := c.sigIn ++ [x] }).sigCounted true t.pick

/-- The run of a part is still under way at its source core. -/
def State.legRuns (s : State) (g : CoreId) (e : Nat) (t : Transfer) (part : Nat) (reads : Bool) : Bool :=
  let a := s.ackTo g e t part
  ((s.core ((s.leg g t part).src.core g)).runs.any fun r => match r.owner with
    | .leg b _ => b == a && (!reads || r.steps.any fun x => x.kind == .read)
    | _ => false) || t.reads.any fun x => x.1 == part
/-- A relay's next first leg may begin (R329): its chunks run in order, and the chunk that its ring bytes held last has been read. -/
def State.leg1Ready (s : State) (g : CoreId) (e : Nat) (t : Transfer) : Bool :=
  let j := t.leg1
  let q := s.ringBytes g t / t.chunkSize
  j * t.chunkSize < (s.desc g t.srcH).byteCount && (j == 0 || !s.legRuns g e t (2 * (j - 1)) false) &&
    (j < q || (j - q < t.leg2 && !s.legRuns g e t (2 * (j - q) + 1) true))
/-- A relay's next second leg may begin (R329): its chunks run in order, and every write of its first leg has been acknowledged. -/
def State.leg2Ready (s : State) (g : CoreId) (e : Nat) (t : Transfer) : Bool :=
  let j := t.leg2
  j < t.leg1 && (j == 0 || !s.legRuns g e t (2 * (j - 1) + 1) false) && !s.legRuns g e t (2 * j) false && t.owes (2 * j) == 0
/-- A started transfer goes on: legs that may begin do (R329), and one with nothing left completes. -/
def State.advance (s : State) (g : CoreId) (e : Nat) : State :=
  match ((s.core g).trk e).tr with
  | none => s
  | some t =>
    match t.phase with
    | .started _ =>
      let s1 := if t.relay && s.leg1Ready g e t then
          (s.modTr g e fun t => { t with leg1 := t.leg1 + 1 }).runLeg g e t (2 * t.leg1)
        else if !t.relay && t.leg1 == 0 then (s.modTr g e fun t => { t with leg1 := 1 }).runLeg g e t 0
        else s
      let s2 := match ((s1.core g).trk e).tr with
        | some u => if u.relay && s1.leg2Ready g e u then
            (s1.modTr g e fun t => { t with leg2 := t.leg2 + 1 }).runLeg g e u (2 * u.leg2 + 1)
          else s1
        | none => s1
      (match ((s2.core g).trk e).tr with
        | some u =>
          if u.settled && !u.sigSent && (!u.relay || (u.leg1 == u.leg2 && (s.desc g u.srcH).byteCount ≤ u.leg1 * u.chunkSize))
            then s2.finish g e u else s2
        | none => s2)
    | _ => s

/-! ## Commands of slot 6 -/

/-- SH_COPY and SH_RELAY (R311): the transfer takes the lowest free entry. -/
def State.shTake (s : State) (g : CoreId) (opcode : Nat) : State :=
  match s.nextOp g 6 opcode with
  | none => s
  | some x =>
    match (s.core g).freeEntry with
    | none => s
    | some _ => (s.takeEntry g x.op x.card x.step s.pickBits false true).setCmd g x.step 6 .waiting

/-- A transfer was pending at the start of a clk (R324, R326): it still waits at its gate, or has become ready in this clk. -/
def Transfer.pendingAt (t : Transfer) (now : Nat) : Bool :=
  t.phase == .gated || (fld t.op 53 47 != 0 && t.phase == .ready (now + 1))
/-- The transfers of the masked shuttles that a cancel finds pending, in issue order (R326). -/
def Core.cancelled (c : Core) (mask now : Nat) : List (Nat × Transfer) :=
  (c.transfers.filter fun x => x.2.pendingAt now && mask / 2 ^ x.2.shu.val % 2 == 1).mergeSort
    fun a b => a.2.issueOrder ≤ b.2.issueOrder
/-- The last start of a shuttle set. -/
def Core.setStart (c : Core) (n : Fin 4) (clk : Nat) : Core :=
  { c with shuStart := (n.val, clk) :: c.shuStart.filter fun e => e.1 != n.val }

/-- SH_CANCEL (R326): a transfer that has become ready in this clk has advanced its cursor already. -/
def State.shCancel (s : State) (g : CoreId) : State :=
  match s.nextOp g 6 0xC2 with
  | none => s
  | some x =>
    let gone := (s.core g).cancelled (fld x.op 12 9) s.now
    let s1 := gone.foldl (fun s y =>
      ((if y.2.phase == .gated then s.consume g (fld y.2.op 63 54) (fld y.2.op 53 47) else s).retireTransfer g y.1).modCore g
        fun c => c.setStart y.2.shu s.now) s
    (s1.setCmd g x.step 6 (.running s.now)).ccount g 0x808 gone.length

/-- GATE_READY (R324): the first pending gate of its knot opens, and its cursor advances. -/
def State.gateReady (s : State) (g : CoreId) (e : Nat) : State :=
  match ((s.core g).trk e).tr with
  | none => s
  | some t =>
    let k := fld t.op 63 54
    let earlier := (s.core g).transfers.any fun y =>
      y.2.phase == .gated && fld y.2.op 63 54 == k && y.2.issueOrder < t.issueOrder
    if t.phase == .gated && !earlier && s.knotReady g k (fld t.op 53 47) then
      (s.consume g k (fld t.op 53 47)).modTr g e fun t => { t with phase := .ready (s.now + 1) }
    else s

/-- A prologue load's reads are held until the source core's drain ends (R84, R127). -/
def State.loadHeld (s : State) (g : CoreId) (t : Transfer) : Bool :=
  t.pro && ((s.heddle.phase == .window && !s.heddle.decided) || (s.core ((s.desc g t.srcH).core g)).drainLeft.isSome)
/-- TRANSFER_START (R317): in its shuttle's order, in the clk after the start before it at the earliest. -/
def State.transferStart (s : State) (g : CoreId) (e : Nat) : State :=
  let c := s.core g
  match (c.trk e).tr with
  | none => s
  | some t =>
    let earlier := c.transfers.any fun y => y.2.shu == t.shu && y.2.issueOrder < t.issueOrder &&
      (match y.2.phase with | .started _ => false | _ => true)
    let free := match c.shuStart.lookup t.shu.val with | some b => b < s.now | none => true
    match t.phase with
    | .ready a =>
      if earlier || !free || s.loadHeld g t || s.now < a then s
      else
        ((s.modTr g e fun t => { t with phase := .started s.now }).modCore g fun c => c.setStart t.shu s.now).advance g e
    | _ => s

/-! ## Abandoned transfers (R331–R334) -/

/-- The package a remote transfer reaches. -/
def State.remotePkg (s : State) (g : CoreId) (t : Transfer) : Nat :=
  let x := s.desc g t.srcH
  if x.remote then x.pkg else (s.desc g t.dstH).pkg
/-- CORE_SH_FAIL for an abandoned transfer (Table 10.10): 1 TIMEOUT, 2 REFUSED, 3 LINK_LOST. -/
def State.failWord (s : State) (g : CoreId) (e : Nat) (t : Transfer) (cause : Nat) : Dword :=
  BitVec.ofNat 64 (cause + 2 ^ 4 * e + 2 ^ 10 * s.remotePkg g t + 2 ^ 20 * (64 * t.card % 2 ^ 19) + 2 ^ 63)
/-- The shuttle abandons a transfer. Its command never retires, so the core is not done in the pick (R331). -/
def State.abandon (s : State) (g : CoreId) (e cause : Nat) : State :=
  match ((s.core g).trk e).tr with
  | none => s
  | some t =>
    let v := s.failWord g e t cause
    let s0 := if (s.core g).hasCmd t then s else
        s.modCore g fun c => { c with cmds := c.cmds ++
          [{ step := t.step, slot := 6, op := t.op, card := t.card, phase := .waiting, at' := s.now }] }
    let s1 := (s0.freeTrk g e).ccount g 0x80C 1
    let s2 := if bit (s1.creg g 0x810) 63 then s1 else s1.setCreg g 0x810 v
    let s3 := s2.logCore g 0x2003 v
    if cause = 1 then s3.modCore g fun c => { c with timedOut := c.timedOut ++ [(s.ackTo g e t 0, v)] } else s3
/-- REFUSED or LINK_LOST in the clk in which the timer expired (R333): what was reported as TIMEOUT is reported as that. -/
def State.recause (s : State) (a : AckTo) (cause : Nat) : State :=
  match (s.core a.core).timedOut.find? fun x => x.1 == { a with part := 0 } with
  | none => s
  | some x =>
    let v := putFld x.2 3 0 cause
    let s1 := if s.creg a.core 0x810 = x.2 then s.setCreg a.core 0x810 v else s
    let d : LogDie := Fin.ofNat 40 (a.core.toNat / 8)
    let l := s1.log d
    s1.setLog d { l with now := l.now.map fun y =>
      if y.code.toNat == 0x2003 && y.src.toNat == a.core.toNat && y.data == x.2 then { y with data := v } else y }
/-- REFUSED or LINK_LOST reaches the shuttle of a transfer (R333). -/
def State.linkFailed (s : State) (a : AckTo) (cause : Nat) : State :=
  if s.live a then s.abandon a.core a.entry cause else s.recause a cause
/-- A response or acknowledgement of another package is missing (R332): bytes still to be sent, lines not read, lines of a write or a
signal not acknowledged. -/
def State.awaits (s : State) (g : CoreId) (t : Transfer) : Bool :=
  let far := (s.desc g t.dstH).remote
  t.toSend != 0 || !t.reads.isEmpty || (far && t.unacked.any fun x => x.1 % 2 == 1 || !t.relay) ||
    (far && t.sigSent && match t.sig with | some (side, _) => !side | none => false)
/-- TRANSFER_TIMEOUT (R332). -/
def State.transferTimeout (s : State) (g : CoreId) (e : Nat) : State :=
  match ((s.core g).trk e).tr with
  | none => s
  | some t =>
    match t.firstOut with
    | none => s
    | some f =>
      if s.awaits g t && 1000 * fld (s.getReg (hdl 0x11C)) 15 0 ≤ (s.getReg (hdl 0) - f).toNat then s.abandon g e 1 else s

/-! ## Beats (R25, R28, R323) -/

/-- Slots of a class in a rotation clk of a preset (Table 10.6). -/
def slotsOf (preset c : Nat) (cls : SlotClass) : Nat :=
  let svc := if c = 15 then 1 else 0
  match cls with
  | .service => svc
  | .remote => (if preset = 3 then 2 else 1) - svc
  | .read =>
    match preset with
    | 0 => 1 + (if c % 2 = 0 then 1 else 0)
    | 1 => 2 + (if c % 4 = 0 then 1 else 0)
    | 2 => if c % 4 = 0 then 0 else 1
    | _ => 1
  | .write =>
    match preset with
    | 0 => 1 + (if c % 2 = 0 then 0 else 1)
    | 1 => if c % 4 = 0 then 0 else 1
    | 2 => 2 + (if c % 4 = 0 then 1 else 0)
    | _ => 1
/-- A slot of the class lies in the present clk at a core and has not been used (R25, R321). -/
def State.slotFree (s : State) (g : CoreId) (cls : SlotClass) : Bool :=
  (s.core g).slotsUsed.countP (· == cls) < slotsOf (fld (s.creg g 0x10) 1 0) (s.clk % 16) cls
/-- A slot used (R25). -/
def State.useSlot (s : State) (g : CoreId) (cls : SlotClass) : State :=
  s.modCore g fun c => { c with slotsUsed := cls :: c.slotsUsed }

/-- The entry of least order. -/
def leastBy {α : Type} (key : α → Nat) (l : List α) : Option α :=
  l.foldl (fun b x => match b with
    | none => some x
    | some y => if key x < key y then some x else b) none

/-- The transfer of a beat has not ended. -/
def State.beatLive (s : State) (b : BeatBody) : Bool := match b with | .writes _ _ a _ => s.live a | _ => true
/-- The transfer of a remote beat has not ended. -/
def State.remoteLive (s : State) (b : RemoteBody) : Bool := match b with | .write _ _ a => s.live a | _ => true
/-- A remote beat leaves its core (R322, R332, R395): one WRITE for each line that it writes, or READ_DATA with its last beat. -/
def State.remoteLeave (s : State) (g : CoreId) (b : RemoteBody) : State :=
  match b with
  | .write pkg l a =>
    let lines := groupLines l
    let s1 := lines.foldl (fun s x =>
      let d := lineData x.2
      s.request g (s.requestHeader 1 1 d.1 pkg.toNat a (64 * x.1)) d.2 a) s
    s1.modTr a.core a.entry fun t => { t.owe a.part lines.length with
      toSend := t.toSend - 1
      firstOut := if t.firstOut.isSome then t.firstOut else some (s.getReg (hdl 0)) }
  | .answer n h data => match data with | some d => s.cross n g (.answer h d) | none => s
/-- MESH_BEAT_SEND (R322, R323): the beat of the earliest-started transfer that is ready leaves in a write or remote slot. A beat of
a transfer that has ended is not sent. -/
def State.meshBeatSend (s : State) (g : CoreId) (cls : SlotClass) : State :=
  if !s.slotFree g cls then s
  else
    match cls with
    | .write =>
      let s0 := s.modCore g fun c => { c with meshOut := c.meshOut.filter fun b => s.beatLive b.body }
      (match leastBy (·.order) ((s0.core g).meshOut.filter fun b => b.due ≤ s.now) with
      | none => s0
      | some b =>
        ((s0.useSlot g .write).modCore g fun c => { c with meshOut := c.meshOut.erase b }).modCore b.dst fun c =>
          { c with beatsIn := c.beatsIn ++ [{ b with due := s.now + meshLat g b.dst }] })
    | .remote =>
      let s0 := s.modCore g fun c => { c with remoteOut := c.remoteOut.filter fun b => s.remoteLive b.body }
      (match leastBy (·.order) ((s0.core g).remoteOut.filter fun b => b.due ≤ s.now) with
      | none => s0
      | some b => ((s0.useSlot g .remote).modCore g fun c => { c with remoteOut := c.remoteOut.erase b }).remoteLeave g b.body)
    | _ => s

/-- A beat lands at a core (R297, R323, R397): it is sent to the fell buffer or presented on SH_W in the next clk, or completes a
message. A captured core discards what would write its beam or its fell buffer (R278). -/
def State.landBeat (s : State) (g : CoreId) (b : Beat) : State :=
  let write := fun (owner : RunOwner) (l : List (Nat × Byte)) =>
    s.addRun g { owner := owner, order := b.order, chain := false, start := s.now
                 steps := [{ kind := .write, port := 13, due := s.now + 1, dst := l.map (·.1)
                             accs := (groupLines l).map fun e =>
                               { line := e.1, mask := maskOf e.2, data := some (dataOf e.2) } }] }
  match b.body with
  | .message m => match m with
    | some x => s.modCore g fun c => { c with msgIn := c.msgIn ++ [(x, s.now)] }
    | none => s
  | .writes staged l a shu =>
    if (s.core g).captured then s.captureDiscard g
    else if staged then
      s.modCore g fun c => { c with stagedIn := c.stagedIn ++ (fellLines l (.shuttle a.core shu)).map fun x =>
        { fell := x, ack := some a, due := s.now + 1 } }
    else write (.beat a) l
  | .packet n h l => if (s.core g).captured then s.captureDiscard g else write (.packet n h) l

/-- The landing queue of a class. -/
def Core.landQ (c : Core) (k : Nat) : List Beat := (c.landing.lookup k).getD []
/-- The landing queue of a class set. -/
def Core.setLandQ (c : Core) (k : Nat) (l : List Beat) : Core :=
  { c with landing := sset (fun _ => []) c.landing k l }
/-- The number of a class. -/
def classNum : SlotClass → Nat
  | .read => 0
  | .write => 1
  | .remote => 2
  | .service => 3

/-- Beats of ended transfers that have reached a core are discarded, without a slot (R130); at the core that issued the transfer they
are stale responses (R312). -/
def State.dropDead (s : State) (g : CoreId) (cls : SlotClass) : State :=
  let here := fun (b : Beat) => b.cls == cls && b.due ≤ s.now
  let dead := fun (b : Beat) => !s.beatLive b.body
  let c := s.core g
  let q := c.landQ (classNum cls)
  let gone := (c.beatsIn.filter fun b => here b && dead b) ++ q.filter dead
  let own := gone.countP fun b => match b.body with | .writes _ _ a _ => a.core == g | _ => false
  (s.modCore g fun c =>
    { c.setLandQ (classNum cls) (q.filter fun b => !dead b) with
      beatsIn := c.beatsIn.filter fun b => !(here b && dead b) }).ccount g 0x804 own
/-- MESH_BEAT_LAND (R28, R305, R323): the oldest beat of the class lands in a slot of it: one that waits in the landing queue, or
one that has just reached the port. Without a slot it waits in the queue, or, if that is full, at the previous router. -/
def State.meshBeatLand (s : State) (g : CoreId) (cls : SlotClass) : State :=
  let s0 := s.dropDead g cls
  let c := s0.core g
  let k := classNum cls
  let q := c.landQ k
  let arrival := c.beatsIn.find? fun b => b.cls == cls && b.due ≤ s.now
  let free := s0.slotFree g cls
  match q, arrival with
  | x :: t, _ =>
    if free && x.due ≤ s.now then ((s0.useSlot g cls).modCore g fun c => c.setLandQ k t).landBeat g x
    else match arrival with
      | some b => if q.length < Config.landingCap then
            s0.modCore g fun c => { c.setLandQ k (q ++ [{ b with due := s.now + 1 }]) with beatsIn := c.beatsIn.erase b }
          else s0
      | none => s0
  | [], some b =>
    if free then ((s0.useSlot g cls).modCore g fun c => { c with beatsIn := c.beatsIn.erase b }).landBeat g b
    else s0.modCore g fun c => { c.setLandQ k [{ b with due := s.now + 1 }] with beatsIn := c.beatsIn.erase b }
  | [], none => s0

/-! ## Staged writes and acknowledgements -/

/-- An acknowledgement at its transfer (R283): one write less outstanding. -/
def State.acked (s : State) (a : AckTo) : State :=
  (s.modTr a.core a.entry fun t => t.paid a.part).advance a.core a.entry
/-- A write at a core has been accepted (R283): its acknowledgement sets out. -/
def State.sendAck (s : State) (g : CoreId) (a : AckTo) : State :=
  s.modCore a.core fun c =>
    { c with acksIn := c.acksIn ++ [{ ack := a, due := s.now + meshLat g a.core, own := g == a.core }] }

/-- STAGED_WRITE_ARRIVE (R72, R73, R278): the first staged line that has come is staged or discarded, and acknowledged. -/
def State.stagedArrive (s : State) (g : CoreId) : State :=
  match (s.core g).stagedIn.find? fun x => x.due ≤ s.now with
  | none => s
  | some x =>
    let s1 := s.modCore g fun c => { c with stagedIn := c.stagedIn.erase x }
    let dead := match x.ack with | some a => !s.live a | none => false
    if dead then s1
    else if (s.core g).captured then s1.captureDiscard g
    else
      let s2 := s1.stageLine g x.fell
      match x.ack with
      | none => s2
      | some a => s2.sendAck g a

/-- WRITE_ACK_ARRIVE (R283, R312): the first acknowledgement whose clk has come; one that has crossed the mesh and finds no transfer
of its tag is stale. -/
def State.writeAckArrive (s : State) (g : CoreId) : State :=
  match (s.core g).acksIn.find? fun x => x.due ≤ s.now with
  | none => s
  | some x =>
    let s1 := s.modCore g fun c => { c with acksIn := c.acksIn.erase x }
    if s.live x.ack then s1.acked x.ack else if x.own then s1 else s1.ccount g 0x804 1

/-- SH_COPY. -/
def execShCopy (g : CoreId) (s : State) : Host.Outcome State Fault Refusal := .next (s.shTake g 0xC0)
/-- SH_RELAY. -/
def execShRelay (g : CoreId) (s : State) : Host.Outcome State Fault Refusal := .next (s.shTake g 0xC1)
/-- SH_CANCEL. -/
def execShCancel (g : CoreId) (s : State) : Host.Outcome State Fault Refusal := .next (s.shCancel g)
/-- GATE_READY. -/
def execGateReady (g : CoreId) (e : Entry) (s : State) : Host.Outcome State Fault Refusal := .next (s.gateReady g e.val)
/-- TRANSFER_START. -/
def execTransferStart (g : CoreId) (e : Entry) (s : State) : Host.Outcome State Fault Refusal :=
  .next (s.transferStart g e.val)
/-- TRANSFER_TIMEOUT. -/
def execTransferTimeout (g : CoreId) (e : Entry) (s : State) : Host.Outcome State Fault Refusal :=
  .next (s.transferTimeout g e.val)
/-- MESH_BEAT_SEND. -/
def execMeshBeatSend (g : CoreId) (cls : SlotClass) (s : State) : Host.Outcome State Fault Refusal :=
  .next (s.meshBeatSend g cls)
/-- MESH_BEAT_LAND. -/
def execMeshBeatLand (g : CoreId) (cls : SlotClass) (s : State) : Host.Outcome State Fault Refusal :=
  .next (s.meshBeatLand g cls)
/-- STAGED_WRITE_ARRIVE. -/
def execStagedWriteArrive (g : CoreId) (s : State) : Host.Outcome State Fault Refusal := .next (s.stagedArrive g)
/-- WRITE_ACK_ARRIVE. -/
def execWriteAckArrive (g : CoreId) (s : State) : Host.Outcome State Fault Refusal := .next (s.writeAckArrive g)

end Sys2Proof.Machine
end

