-- ==== Sys2Proof/Machine/Datapath.lean ====
section
/-! DEFINITION. One clk of a core's datapath: the accesses of its ports are granted and made (04 §4.2–§4.4), the groups that are
complete go on (06 R208, 10 R319), the weave array moves on by one clk of its own (05 R183), and the parity errors found in the clk
reach their commands (04 R159–R164). -/

namespace Sys2Proof.Machine

/-! ## Accesses that are no longer made -/

/-- A run writes the beam for the mesh port or for another core. -/
def Run.outside (r : Run) (g : CoreId) : Bool :=
  (r.steps.any fun x => x.kind == .write) && (match r.owner with | .leg a _ => a.core != g | .beat _ | .packet _ _ => true | _ => false)
/-- The accesses of transfers that have ended stop (R328), and a captured core's beam takes no write from outside (R278, R279). -/
def State.stopRuns (s : State) (g : CoreId) : State :=
  let c := s.core g
  let stays := fun (r : Run) => match r.owner with
    | .leg a _ | .beat a => s.live a
    | _ => true
  let gone := if c.captured then c.runs.filter fun r => stays r && r.outside g else []
  gone.foldl (fun s _ => s.captureDiscard g)
    (s.modCore g fun c => { c with runs := c.runs.filter fun r => stays r && !gone.contains r })

/-! ## What a group passes on (R297, R316, R323, R397) -/

/-- The beats of a stream that are complete, in order: 64 bytes each, the last one shorter; with the places of their bytes. -/
def Run.beats : Nat → Run → Run × List (List (Nat × Byte))
  | 0, r => (r, [])
  | n + 1, r =>
    let places := (List.range (min 64 (r.into.length - r.next))).map fun i => r.next + i
    let got := places.filterMap fun i => (r.held.lookup i).map fun b => (i, b)
    if places = [] ∨ got.length < places.length then (r, [])
    else
      let rest := Run.beats n { r with next := r.next + places.length }
      (rest.1, got :: rest.2)
/-- The message or data that a run has read whole. -/
def Run.whole (r : Run) : List Byte := (List.range r.into.length).map fun i => (r.held.lookup i).getD 0
/-- A run sends the beats that are complete (R323): they are ready in the clk after their last line was received. -/
def State.sendBeats (s : State) (g : CoreId) (r : Run) : State × Run :=
  let x := Run.beats (r.into.length / 64 + 1) r
  let last := x.1.next == r.into.length && !x.2.isEmpty
  let into := fun (l : List (Nat × Byte)) => l.map fun e => (r.into.getD e.1 0, e.2)
  let mesh := fun (h : CoreId) (l : List BeatBody) => s.modCore g fun c => { c with meshOut := c.meshOut ++ l.map fun b =>
    { cls := .read, dst := h, due := s.now + 1, body := b, order := r.order } }
  let remote := fun (l : List RemoteBody) => s.modCore g fun c => { c with remoteOut := c.remoteOut ++ l.map fun b =>
    { due := s.now + 1, body := b, order := r.order } }
  let marks := x.2.zipIdx.map fun e => last && e.2 + 1 == x.2.length
  (match r.dest, r.owner with
    | .mesh h staged, .leg a shu => mesh h (x.2.map fun l => .writes staged (into l) a shu)
    | .pkg n base, .leg a _ => remote (x.2.map fun l => .write n ((into l).map fun e => (base + e.1, e.2)) a)
    | .message h m, _ =>
      if h = g then
        (if last then s.modCore g fun c => { c with msgIn := c.msgIn ++ [({ m with bytes := x.1.whole }, s.now + 1)] } else s)
      else mesh h (marks.map fun b => .message (if b then some { m with bytes := x.1.whole } else none))
    | .answer, .packet n h => remote (marks.map fun b => .answer n h (if b then some x.1.whole else none))
    | _, _ => s, x.1)
/-- The bytes of a group go on (R319): to the core's own fell buffer, which they reach in this clk, or into the beats of the run. -/
def State.passOn (s : State) (g : CoreId) (r : Run) (y : RunStep) : State × Run :=
  match r.dest, r.owner with
  | .fell, .leg a shu =>
    let ls := fellLines ((y.dst.zip y.bytes).map fun e => (r.into.getD e.1 0, e.2)) (.shuttle a.core shu)
    (s.modCore g fun c => { c with stagedIn := c.stagedIn ++ ls.map fun x => { fell := x, ack := some a, due := s.now + 1 } }, r)
  | _, _ => s.sendBeats g { r with held := r.held ++ y.dst.zip y.bytes }

/-! ## Steps and runs that are complete -/

/-- The flags and counters of a completed step (R211, R226). -/
def State.stepMarks (s : State) (g : CoreId) (y : RunStep) : State :=
  y.counts.foldl (fun s e => s.ccount g e.1 e.2)
    (if y.flags = 0 then s else s.setCreg g 0x500 (s.creg g 0x500 ||| BitVec.ofNat 64 y.flags))
/-- A write of a prologue load counts as a write of the pick that the load serves (R128). -/
def State.noteLoad (s : State) (g : CoreId) (r : Run) (y : RunStep) : State :=
  let pro := match r.owner with
    | .leg a _ | .beat a => (match ((s.core a.core).trk a.entry).tr with | some t => t.pro && s.live a | none => false)
    | _ => false
  if pro && y.kind == .write then
    s.modCore g fun c => { c with proWrote := (y.dst.map fun o => beamBase g + o) ++ c.proWrote }
  else s
/-- The last step of a run is complete: a command has been performed, a write of a transfer is acknowledged, a line of a packet has
been written (R112, R236, R250, R283, R397). -/
def State.runEnds (s : State) (g : CoreId) (r : Run) : State :=
  match r.owner with
  | .cmd st sl =>
    let s1 := s.setCmd g st sl (.running s.now)
    if sl = 5 then s1.setCreg g 0x63C (BitVec.ofNat 64 ((s.now - r.start) % 2 ^ 32)) else s1
  | .leg a _ => if r.dest = .none then s.sendAck g a else s
  | .beat a => s.sendAck g a
  | .send _ => s
  | .recv st => s.setCmd g st 7 (.running s.now)
  | .packet n h => if r.dest = .none then s.cross n g (.written h) else s
/-- A run has nothing more to do; that of a drain goes on until its last row has been read (R192). -/
def Core.runOver (c : Core) (r : Run) : Bool :=
  r.steps.isEmpty && (match c.weave.drain with | some t => !r.isDrain t.step || t.rows ≤ t.done | none => true)
/-- A run of a core after its steps of this clk: those that are complete have gone on. `old` is the state before the writes of
the clk, whose bytes its reads answer (R145), `s0` the state after its grants. -/
def State.runClk (s0 old : State) (g : CoreId) (p : State × List Run) (e : Run × Nat) : State × List Run :=
  let done := e.1.steps.filter fun y => s0.stepDone g e.2 e.1 y
  let s1 := done.foldl (fun s y => (s.stepMarks g y).noteLoad g e.1 y) p.1
  let x := (done.filter fun y => y.kind == .pass).foldl (fun (q : State × Run) y => q.1.passOn g q.2 y) (s1, e.1)
  (x.1, p.2 ++ [x.2.after (e.1.time s0.now (s0.core g).weave.clk) done fun y => old.beamBytes g y.src])
/-- Every run of a core in this clk; those that are over end. -/
def State.runsClk (s old : State) (g : CoreId) : State :=
  let x := (s.core g).runs.zipIdx.foldl (s.runClk old g) (s, [])
  let c := x.1.core g
  let ended := x.2.filter c.runOver
  let drained := ended.any fun r => match c.weave.drain with | some t => r.isDrain t.step | none => false
  let s1 := x.1.modCore g fun c =>
    { c with
      runs := x.2.filter fun r => !c.runOver r
      weave := if drained then { c.weave with drain := none } else c.weave }
  ended.foldl (fun s r => s.runEnds g r) s1

/-! ## Parity errors of the clk (R159–R161, R164, R531) -/

/-- A command has not retired and has not been cancelled. -/
def Core.holdsCmd (c : Core) (step slot : Nat) : Bool := c.cmds.any fun x => x.step == step && x.slot == slot
/-- An error of a command, laid out as `v` once it is a source error; of one that an error before it has cancelled it is only
counted. -/
def State.cmdErr (s : State) (g : CoreId) (step slot : Nat) (v : Dword) : State :=
  if (s.core g).holdsCmd step slot then s.commandParity g step v else s.parNoted g v
/-- An error that a beam read found, by the owner of the read (R159, R161, R164): that of a prologue load is kept for the pick that
the load serves, laid out by the core that holds the word. -/
def State.readErr (s : State) (g : CoreId) (x : ReadErr) : State :=
  let v := s.parLayout g x.off x.port false true
  match x.owner with
  | .cmd st sl => s.cmdErr g st sl v
  | .send st | .recv st => s.cmdErr g st 7 v
  | .leg a _ | .beat a =>
    (match ((s.core a.core).trk a.entry).tr with
      | some t =>
        if !s.live a then s.parCounted g x.off x.port
        else if t.pro then s.modCore a.core fun c => { c with proErr := c.proErr ++ [v] }
        else s.cmdErr a.core t.step 6 v
      | none => s.parCounted g x.off x.port)
  | .packet _ _ => s.parCounted g x.off x.port

/-- The buffer that a command of a slot reads when it writes its results: the row buffer of a Reed command that reads its source
more than once, the tile buffer of a transpose, the Carder store (R232, R253). -/
def bufOf (op : Dword) : Option (BufKind × Nat) :=
  let o := fld op 7 0
  if 0x66 ≤ o ∧ o ≤ 0x69 then some (.row, 6) else if o = 0x81 then some (.tile, 8)
  else if 0xA0 ≤ o ∧ o ≤ 0xA3 then some (.carder, 11) else none
/-- The layout of an error that arose in such a buffer: the read port and the beam offset of the word from which the value came
(R232), or the offset in the Carder store, shed, of granule 0 (R253). -/
def State.bufLayout (s : State) (g : CoreId) (e : BufKind × Nat) (port : Nat) : Dword :=
  if e.1 = .carder then BitVec.ofNat 64 (wordOf e.2 + 2 ^ 32 * port + 2 ^ 63) else s.parLayout g e.2 port false true
/-- The commands that write in this clk check the buffers they read: a failing word is reported once (R531). -/
def State.bufErrs (s : State) (g : CoreId) : State :=
  let c := s.core g
  c.runs.foldl (fun s r => match r.owner with
    | .cmd st sl =>
      if r.steps.any fun y => y.kind == .write && y.begun then
        (match (c.cmds.find? fun x => x.step == st && x.slot == sl).bind fun x => bufOf x.op with
          | none => s
          | some b => ((s.core g).badBuf.filter fun e => e.1 == b.1).foldl (fun s e =>
              (s.modCore g fun c => { c with badBuf := c.badBuf.erase e }).cmdErr g st sl (s.bufLayout g e b.2)) s)
      else s
    | _ => s) s

/-! ## The drain of a fell buffer (R83, R160) -/

/-- A line of a fell buffer written to its bank: a word that is corrupt in the line, or that the line covers in part and that is
corrupt in its bank, keeps its inverted parity and is counted. -/
def State.drainLineOf (s : State) (g : CoreId) (x : FellLine) : State :=
  let a := beamBase g + 64 * x.line
  let corrupt := (maskWords x.mask).filter fun w =>
    x.bad.getLsbD w || (fld x.mask (4 * w + 3) (4 * w) != 15 && s.badWord (a + 4 * w))
  (s.countWords g x.line 0 corrupt).bankWrite g x.line x.mask x.data (wordBits corrupt)
/-- One clk of a drain: one line of each slice is written, and one clk less is left. -/
def State.drainClkOf (s : State) (g : CoreId) : State :=
  let c := s.core g
  let ls := c.draining
  let s1 := ls.foldl (fun s x => s.drainLineOf g x) s
  s1.modCore g fun c =>
    { c with drainFell := c.drainFell.filter fun x => !ls.contains x, drainLeft := c.drainLeft.map fun n => n - 1 }

/-! ## One clk of a core -/

/-- The registers of the bank (R146, R155, R156): a clk in which an access lost its bank, in which a write was held, in which a read
waited for the store buffer. -/
def State.bankCounts (s : State) (g : CoreId) (a : Arb) (lost : Bool) : State :=
  ((s.ccount g 0x314 (if lost then 1 else 0)).ccount g 0x318 (if a.held = [] then 0 else 1)).ccount g 0x31C
    (if a.wait then 1 else 0)
/-- The accesses of a clk at a core, those that its commands have made in it apart, with the errors that they find. -/
def State.accessClk (s : State) (g : CoreId) : State × List ReadErr :=
  let b := s.beginSteps g
  let a := b.1.arb g
  let errs := b.2 ++ b.1.arbErrs g a
  let s1 := ((b.1.perform g a).drainClkOf g).bankCounts g a a.lost
  (s1.runsClk b.1 g, errs)
/-- What a clk leaves behind: written entries leave the store buffer, and the records of the clk are cleared. -/
def Core.endClk (c : Core) : Core :=
  { c with
    sbuf := c.sbuf.filter fun e => !e.out
    banksUsed := []
    portsUsed := []
    slotsUsed := []
    timedOut := []
    inject := c.injectDue.getD c.inject
    injectDue := none
    gone := []
    stepInst := match c.stepInst with | some si => if si.ended then none else some si | none => none
    weave := c.weave.ramp }
/-- A relay's legs go on as its writes are acknowledged and its ring is read (R329). -/
def State.relaysClk (s : State) (g : CoreId) : State :=
  ((s.core g).transfers.filter fun x => x.2.relay).foldl (fun s x => s.advance g x.1) s
/-- The end of a clk at a core. -/
def State.coreClk (s : State) (g : CoreId) : State :=
  let x := (s.stopRuns g).accessClk g
  let w := x.1.weaveClk g
  let s1 := x.2.foldl (fun s e => s.readErr g e) w.1
  let s2 := w.2.foldl (fun s e => s.cmdErr g e.1 1 e.2) s1
  ((s2.bufErrs g).relaysClk g).modCore g Core.endClk

end Sys2Proof.Machine
end

