-- ==== Sys2Proof/Machine/Beam.lean ====
section
/-! DEFINITION. The beam's own commands (chapter 4): a granted read of a port, a drain of the store buffer, the parity test
fault, and a write of the carry map (02 R63, 10 R314). -/

namespace Sys2Proof.Machine

/-- One grant of this clk performed ahead of the others: the access, and the banks and port that it takes. -/
def Arb.only (reads : List Pres) (drains : List SbEntry) : Arb := { used := [], reads := reads, drains := drains }
/-- BEAM_READ (R140–R146, R156, R159, R161): a line that the port presents in this clk, and that is granted its bank or forwarded, is
read. What is not granted presents again in the next clk. -/
def State.beamRead (s : State) (g : CoreId) (port off : Nat) (mask : Dword) : State :=
  let b := (s.stopRuns g).beginSteps g
  let a := b.1.arb g
  match a.reads.find? fun x => x.port == port && x.acc.line == off / 64 && x.acc.mask == mask with
  | none => s
  | some x =>
    let y := Arb.only [x] []
    (b.2 ++ b.1.arbErrs g y).foldl (fun s e => s.readErr g e) (b.1.perform g y)

/-- STORE_BUFFER_DRAIN (R144, R154, R160): the entry of the bank that is granted in this clk is written to it, or, where it covers
part of a word, has its merge read first. -/
def State.bankDrain (s : State) (g : CoreId) (bank : Nat) : State :=
  let b := (s.stopRuns g).beginSteps g
  match (b.1.arb g).drains.find? fun e => bankOf e.line == bank with
  | none => s
  | some e => b.2.foldl (fun s e => s.readErr g e) (b.1.perform g (Arb.only [] [e]))

/-- PAR_INJECT_ARM (R166, R525): from the next clk on the fault is armed at the word, in place of any armed one. -/
def State.injectArm (s : State) (g : CoreId) (off : Nat) : State :=
  if s.coreAnswers g then s.modCore g fun c => { c with injectDue := some (some (wordOf off)) } else s
/-- PAR_INJECT_DISARM (R525). -/
def State.injectDisarm (s : State) (g : CoreId) : State :=
  if s.coreAnswers g then s.modCore g fun c => { c with injectDue := some none } else s

/-- CARRY_MAP_WRITE (R63, R167, R314): the map of an idle core is set; running cores keep the old word in their copies. A
granule that becomes carry stays as undefined as it was, one that becomes shed as defined (R67). -/
def State.carryMapWrite (s : State) (g : CoreId) (m : Nat) (val : Word) : State :=
  if !s.coreAnswers g || s.runs g then s
  else
    let new : Dword := BitVec.ofNat 64 (if m = 3 then val.toNat % 2 ^ 31 else val.toNat)
    let old := s.creg g (0x300 + 4 * m)
    let key := 4 * g.toNat + m
    let s1 := s.running.foldl (fun s h =>
      if ((s.core h).carryOld.lookup key).isSome then s
      else s.modCore h fun c => { c with carryOld := c.carryOld ++ [(key, old)] }) s
    let us := (List.range 32).foldl (fun (u : Undefs) i =>
      let gran := 128 * g.toNat + 32 * m + i
      let at' := beamBase g + 65536 * (32 * m + i)
      if bit new i && !bit old i then
        match ({ s1 with undefs := { u with written := u.written.filter fun a => a / 65536 != gran } } : State).undefGen at' with
        | some n => { u with kept := u.kept ++ [(gran, n)] }
        | none => u
      else if bit old i && !bit new i then
        match u.kept.lookup gran with
        | some _ => u
        | none => { u with still := addKey u.still gran }
      else u) s1.undefs
    ({ s1 with undefs := us }).setCreg g (0x300 + 4 * m) new

/-- BEAM_READ. -/
def execBeamRead (g : CoreId) (port : Fin 15) (off : BitVec 23) (mask : Dword) (s : State) :
    Host.Outcome State Fault Refusal := .next (s.beamRead g port.val off.toNat mask)
/-- STORE_BUFFER_DRAIN. -/
def execStoreBufferDrain (g : CoreId) (bank : Fin 32) (s : State) : Host.Outcome State Fault Refusal :=
  .next (s.bankDrain g bank.val)
/-- PAR_INJECT_ARM. -/
def execParInjectArm (g : CoreId) (off : BitVec 23) (s : State) : Host.Outcome State Fault Refusal :=
  .next (s.injectArm g off.toNat)
/-- PAR_INJECT_DISARM. -/
def execParInjectDisarm (g : CoreId) (s : State) : Host.Outcome State Fault Refusal := .next (s.injectDisarm g)
/-- CARRY_MAP_WRITE. -/
def execCarryMapWrite (g : CoreId) (m : Fin 4) (val : Word) (s : State) : Host.Outcome State Fault Refusal :=
  .next (s.carryMapWrite g m.val val)

end Sys2Proof.Machine
end

