-- ==== Sys2Proof/Machine/Sha.lean ====
section
/-! DEFINITION. SHA-256 and SHA-384 of FIPS 180-4 (08 R271–R275, 13 R438, R439), over lists of bytes, and the cyclic
redundancy checks of 12 R386, 13 Table 13.8 and 14 Table 14.9. -/

namespace Sys2Proof.Machine

/-- The 80 round constants of SHA-384: the first 64 bits of the fractions of the cube roots of the first primes. Those of
SHA-256 are the upper halves of the first 64. -/
def shaK : List Nat :=
  [0x428A2F98D728AE22, 0x7137449123EF65CD, 0xB5C0FBCFEC4D3B2F, 0xE9B5DBA58189DBBC] ++
  [0x3956C25BF348B538, 0x59F111F1B605D019, 0x923F82A4AF194F9B, 0xAB1C5ED5DA6D8118] ++
  [0xD807AA98A3030242, 0x12835B0145706FBE, 0x243185BE4EE4B28C, 0x550C7DC3D5FFB4E2] ++
  [0x72BE5D74F27B896F, 0x80DEB1FE3B1696B1, 0x9BDC06A725C71235, 0xC19BF174CF692694] ++
  [0xE49B69C19EF14AD2, 0xEFBE4786384F25E3, 0x0FC19DC68B8CD5B5, 0x240CA1CC77AC9C65] ++
  [0x2DE92C6F592B0275, 0x4A7484AA6EA6E483, 0x5CB0A9DCBD41FBD4, 0x76F988DA831153B5] ++
  [0x983E5152EE66DFAB, 0xA831C66D2DB43210, 0xB00327C898FB213F, 0xBF597FC7BEEF0EE4] ++
  [0xC6E00BF33DA88FC2, 0xD5A79147930AA725, 0x06CA6351E003826F, 0x142929670A0E6E70] ++
  [0x27B70A8546D22FFC, 0x2E1B21385C26C926, 0x4D2C6DFC5AC42AED, 0x53380D139D95B3DF] ++
  [0x650A73548BAF63DE, 0x766A0ABB3C77B2A8, 0x81C2C92E47EDAEE6, 0x92722C851482353B] ++
  [0xA2BFE8A14CF10364, 0xA81A664BBC423001, 0xC24B8B70D0F89791, 0xC76C51A30654BE30] ++
  [0xD192E819D6EF5218, 0xD69906245565A910, 0xF40E35855771202A, 0x106AA07032BBD1B8] ++
  [0x19A4C116B8D2D0C8, 0x1E376C085141AB53, 0x2748774CDF8EEB99, 0x34B0BCB5E19B48A8] ++
  [0x391C0CB3C5C95A63, 0x4ED8AA4AE3418ACB, 0x5B9CCA4F7763E373, 0x682E6FF3D6B2B8A3] ++
  [0x748F82EE5DEFB2FC, 0x78A5636F43172F60, 0x84C87814A1F0AB72, 0x8CC702081A6439EC] ++
  [0x90BEFFFA23631E28, 0xA4506CEBDE82BDE9, 0xBEF9A3F7B2C67915, 0xC67178F2E372532B] ++
  [0xCA273ECEEA26619C, 0xD186B8C721C0C207, 0xEADA7DD6CDE0EB1E, 0xF57D4F7FEE6ED178] ++
  [0x06F067AA72176FBA, 0x0A637DC5A2C898A6, 0x113F9804BEF90DAE, 0x1B710B35131C471B] ++
  [0x28DB77F523047D84, 0x32CAAB7B40C72493, 0x3C9EBE0A15C9BEBC, 0x431D67C49C100D4C] ++
  [0x4CC5D4BECB3E42B6, 0x597F299CFC657E2A, 0x5FCB6FAB3AD6FAEC, 0x6C44198C4A475817]

/-- Initial hash value of SHA-256. -/
def shaInit256 : List Nat :=
  [0x6A09E667, 0xBB67AE85, 0x3C6EF372, 0xA54FF53A, 0x510E527F, 0x9B05688C, 0x1F83D9AB, 0x5BE0CD19]
/-- Initial hash value of SHA-384. -/
def shaInit384 : List Nat :=
  [0xCBBB9D5DC1059ED8, 0x629A292A367CD507, 0x9159015A3070DD17, 0x152FECD8F70E5939,
   0x67332667FFC00B31, 0x8EB44A8768581511, 0xDB0C2E0D64F98FA7, 0x47B5481DBEFA4FA4]

/-- The exclusive or of two rotations right and a rotation or shift. -/
def shaMix {w : Nat} (x : BitVec w) (a b c : Nat) (shift : Bool) : BitVec w :=
  x.rotateRight a ^^^ x.rotateRight b ^^^ (if shift then x >>> c else x.rotateRight c)
/-- Rotation amounts of a word width: the functions of the schedule and of the round (FIPS 180-4 §4.1). -/
structure ShaRot where
  s0 : Nat × Nat × Nat
  s1 : Nat × Nat × Nat
  b0 : Nat × Nat × Nat
  b1 : Nat × Nat × Nat
/-- Those of SHA-256. -/
def rot256 : ShaRot := { s0 := (7, 18, 3), s1 := (17, 19, 10), b0 := (2, 13, 22), b1 := (6, 11, 25) }
/-- Those of SHA-384. -/
def rot384 : ShaRot := { s0 := (1, 8, 7), s1 := (19, 61, 6), b0 := (28, 34, 39), b1 := (14, 18, 41) }

/-- The rounds of one block: the schedule slides over the 16 latest words. -/
def shaRounds {w : Nat} (r : ShaRot) : List Nat → List (BitVec w) → List (BitVec w) → List (BitVec w)
  | k :: ks, ws, [a, b, c, d, e, f, g, h] =>
    let x := ws.getD 0 0
    let t1 := h + shaMix e r.b1.1 r.b1.2.1 r.b1.2.2 false + ((e &&& f) ^^^ (~~~e &&& g)) + BitVec.ofNat w k + x
    let t2 := shaMix a r.b0.1 r.b0.2.1 r.b0.2.2 false + ((a &&& b) ^^^ (a &&& c) ^^^ (b &&& c))
    let next := shaMix (ws.getD 14 0) r.s1.1 r.s1.2.1 r.s1.2.2 true + ws.getD 9 0 +
      shaMix (ws.getD 1 0) r.s0.1 r.s0.2.1 r.s0.2.2 true + x
    shaRounds r ks (ws.drop 1 ++ [next]) [t1 + t2, a, b, c, d + t1, e, f, g]
  | _, _, v => v

/-- The words of w / 8 bytes of a block, most significant byte first. -/
def shaWords {w : Nat} (n : Nat) (l : List Byte) : List (BitVec w) :=
  (List.range 16).map fun i => BitVec.ofNat w (beNat (slice l (n * i) n))
/-- The blocks of a padded message in turn; `n` is the bytes of a word. -/
def shaBlocks {w : Nat} (r : ShaRot) (ks : List Nat) (n : Nat) : Nat → List Byte → List (BitVec w) → List (BitVec w)
  | 0, _, v => v
  | m + 1, l, v =>
    shaBlocks r ks n m (l.drop (16 * n)) (List.zipWith (· + ·) v (shaRounds r ks (shaWords n (l.take (16 * n))) v))
/-- A message padded to whole blocks of 16 words (FIPS 180-4 §5.1). -/
def shaPad (n : Nat) (l : List Byte) : List Byte :=
  let z := (16 * n - (l.length + 1 + 2 * n) % (16 * n)) % (16 * n)
  l ++ [0x80] ++ List.replicate z 0 ++ beBytes (2 * n) (8 * l.length)
/-- SHA-256: 32 bytes, byte 0 first. -/
def sha256 (l : List Byte) : List Byte :=
  let p := shaPad 4 l
  let v : List (BitVec 32) := shaBlocks rot256 ((shaK.take 64).map (· / 2 ^ 32)) 4 (p.length / 64) p
    (shaInit256.map (BitVec.ofNat 32))
  v.flatMap fun x => beBytes 4 x.toNat
/-- SHA-384: 48 bytes. -/
def sha384 (l : List Byte) : List Byte :=
  let p := shaPad 8 l
  let v : List (BitVec 64) := shaBlocks rot384 shaK 8 (p.length / 128) p (shaInit384.map (BitVec.ofNat 64))
  (v.take 6).flatMap fun x => beBytes 8 x.toNat

/-- One step of a reflected CRC: the register shifted right by one bit. -/
def crcBit {n : Nat} (poly : BitVec n) (c : BitVec n) : BitVec n := if c.getLsbD 0 then (c >>> 1) ^^^ poly else c >>> 1
/-- One byte of a reflected CRC. -/
def crcByte {n : Nat} (poly : BitVec n) (c : BitVec n) (b : Byte) : BitVec n :=
  (List.range 8).foldl (fun c _ => crcBit poly c) (c ^^^ BitVec.ofNat n b.toNat)
/-- A reflected CRC with all ones as its initial value and final complement. -/
def crcOf {n : Nat} (poly : BitVec n) (l : List Byte) : BitVec n := ~~~(l.foldl (crcByte poly) (BitVec.allOnes n))
/-- CRC-32C (Castagnoli), the reflected polynomial 0x82F63B78. -/
def crc32c (l : List Byte) : BitVec 32 := crcOf 0x82F63B78 l

end Sys2Proof.Machine
end

