-- ==== Sys2Proof/Machine/Tally.lean ====
section
/-! DEFINITION. The Tally channels (14 §14.6): CRCs over committed carry ranges on a Loom die, and over the bytes that a spool
moves on a Treadle die. -/

namespace Sys2Proof.Machine

/-- A CRC that is not reflected, with no final complement (Table 14.9). -/
def crcForward {n : Nat} (poly init : BitVec n) (l : List Byte) : BitVec n :=
  l.foldl (fun c b =>
    (List.range 8).foldl (fun c _ => if c.getLsbD (n - 1) then (c <<< 1) ^^^ poly else c <<< 1)
      (c ^^^ (BitVec.ofNat n b.toNat <<< (n - 8)))) init

/-- The check value of an algorithm (Table 14.9). -/
def tallyCrc (alg : Nat) (l : List Byte) : Dword :=
  match alg with
  | 0 => BitVec.ofNat 64 (crc32c l).toNat
  | 1 => BitVec.ofNat 64 (crcOf (0xEDB88320 : BitVec 32) l).toNat
  | 2 => crcForward (0x42F0E1EBA9EA3693 : BitVec 64) 0 l
  | _ => BitVec.ofNat 64 (crcForward (0x1021 : BitVec 16) 0xFFFF l).toNat

/-- A channel's compare (R467): the status bit, MISS and the event of a mismatch, logged by `ev` with the code. -/
def State.tallyCompare (s : State) (base : Nat) (ev : State → Nat → Dword → State) : State :=
  let v := s.getReg (base + 0x18)
  if v = s.getReg (base + 0x10) then s
  else
    let s1 := (s.modReg (base + 0x28) fun x => putBit x 1 true).count (base + 0x2C) 1
    ev s1 (if bit (s.getReg base) 8 then 0x9801 else 0x9001) v

/-! ## Loom dies -/

/-- First register of a Loom die's channel (R462). -/
abbrev loomTally (d : Die) (n : TallyNo) : Nat := ldie d (0x4000 + 0x40 * n.val)
/-- The range of a channel: its core, first offset, bytes. -/
def State.tallyRange (s : State) (d : Die) (n : TallyNo) : CoreId × Nat × Nat :=
  let b := loomTally d n
  (coreOf d (fld (s.getReg b) 18 16), fld (s.getReg (b + 8)) 22 0, fld (s.getReg (b + 0xC)) 22 0)
/-- The beam offset and the number of the bytes that the next read of a pass takes: at most to the end of a line (R464). -/
def State.tallyNext (s : State) (d : Die) (n : TallyNo) : Option (Nat × Nat) :=
  let t := s.tally d n
  let r := s.tallyRange d n
  let off := r.2.1 + t.got.length
  if t.busy && t.got.length < r.2.2 then some (off, min (64 - off % 64) (r.2.2 - t.got.length)) else none
/-- The next read of a pass waits for the core's service slot (R464). -/
def State.tallyAsk (s : State) (d : Die) (n : TallyNo) : State :=
  match s.tallyNext d n with
  | none => s
  | some _ => s.modCore (s.tallyRange d n).1 fun c => { c with svc := c.svc ++ [.tally d n] }
/-- A read of a pass has been performed: its words in error are counted (R164), and the next read follows. -/
def State.tallyLine (s : State) (g : CoreId) (d : Die) (n : TallyNo) (data : List Byte) (bad : List Nat) : State :=
  let s1 := bad.foldl (fun s o => s.parCounted g o 14) s
  (s1.setTally d n { s1.tally d n with got := (s1.tally d n).got ++ data }).tallyAsk d n
/-- A pass starts, or is refused because a granule is not carry (R466). -/
def State.tallyBegin (s : State) (d : Die) (n : TallyNo) : State :=
  let b := loomTally d n
  let r := s.tallyRange d n
  let grans := if r.2.2 = 0 then [] else
    (List.range ((r.2.1 + r.2.2 - 1) / 65536 + 1)).filter fun i => r.2.1 / 65536 ≤ i
  match grans.find? fun i => 127 ≤ i || !s.carryBit r.1 i with
  | some i =>
    ((s.modReg (b + 0x28) fun x => putBit x 3 true).logDie d 0x9003 n.val (BitVec.ofNat 64 i)).setTally d n {}
  | none => ((s.modReg (b + 0x28) fun x => putBit x 0 true).setTally d n { busy := true }).tallyAsk d n

/-- TALLY_PASS_GO (R464): a ONCE pass now, or at the next pick start if the core runs a deck. -/
def State.tallyGo (s : State) (d : Die) (n : TallyNo) : State :=
  if !s.answers (.ldie d) || fld (s.getReg (loomTally d n)) 5 4 != 2 || (s.tally d n).busy then s
  else if s.runs (s.tallyRange d n).1 then s.setTally d n { s.tally d n with pending := true }
  else s.tallyBegin d n

/-- TALLY_PASS_DONE (R464, R467): once every line has been read, VALUE over the bytes, COUNT, and the compare. -/
def State.tallyDone (s : State) (d : Die) (n : TallyNo) : State :=
  let t := s.tally d n
  if !t.busy || t.got.length < (s.tallyRange d n).2.2 then s
  else
    let b := loomTally d n
    let s1 := ((s.setReg (b + 0x18) (tallyCrc (fld (s.getReg b) 1 0) t.got)).countWrap (b + 0x24) 1).modReg (b + 0x28) fun x =>
      putBit x 0 false
    (s1.setTally d n {}).tallyCompare b fun s c v => s.logDie d c n.val v

/-- Every channel of the Loom dies. -/
def loomChannels : List (Die × TallyNo) :=
  (List.range 512).map fun i => (Fin.ofNat 32 (i / 16), Fin.ofNat 16 i)
/-- At a pick start (R464): SCRUB channels after a taken fell or an abandoned pass, and ONCE passes that waited. -/
def State.tallyPickStart (s : State) (taken : Bool) : State :=
  loomChannels.foldl (fun s c =>
    let mode := fld (s.getReg (loomTally c.1 c.2)) 5 4
    let t := s.tally c.1 c.2
    if mode = 0 ∨ !s.dieOn c.1.val then s
    else if !t.busy && (mode == 1 && (taken || t.retry) || mode == 2 && t.pending) then s.tallyBegin c.1 c.2 else s) s
/-- The reads of a pass that is abandoned are not made. -/
def State.tallyLeave (s : State) (d : Die) (n : TallyNo) : State :=
  s.modCore (s.tallyRange d n).1 fun c =>
    { c with
      svc := c.svc.filter fun x => x != .tally d n
      svcPort := if c.svcPort = some (.tally d n) then none else c.svcPort
      heldReads := c.heldReads.filter fun x => x != .tally d n }
/-- At the opening of the fell window (R466): a pass not completed is abandoned. -/
def State.tallyWindow (s : State) : State :=
  loomChannels.foldl (fun s c =>
    if (s.tally c.1 c.2).busy then
      let b := loomTally c.1 c.2
      (((s.tallyLeave c.1 c.2).modReg (b + 0x28) fun x => putBit (putBit x 0 false) 2 true).logDie c.1 0x9002 c.2.val
        (s.getReg (b + 0x18))).setTally c.1 c.2 { retry := fld (s.getReg b) 5 4 == 1 }
    else s) s

/-! ## Treadle dies -/

/-- First register of a Treadle die's channel. -/
abbrev trdTally (td : Td) (n : TallyNo) : Nat := trd td (0x4000 + 0x40 * n.val)
/-- The stream of a channel. -/
def State.tallyStream (s : State) (td : Td) (n : TallyNo) : TallyStream := sget (fun _ => {}) (s.td td).tally n.val
/-- The stream of a channel set. -/
def State.setTallyStream (s : State) (td : Td) (n : TallyNo) (x : TallyStream) : State :=
  s.setTd td { s.td td with tally := sset (fun _ => {}) (s.td td).tally n.val x }
/-- An armed channel compares once COUNT equals UPTO (R465). -/
def State.tallyCheck (s : State) (td : Td) (n : TallyNo) : State :=
  let b := trdTally td n
  if bit (s.getReg (b + 0x28)) 4 && s.getReg (b + 0x24) == s.getReg (b + 0x20) then
    (s.modReg (b + 0x28) fun x => putBit x 4 false).tallyCompare b fun s c v => s.logTd td c n.val v
  else s
/-- The stream and its count restart; an armed channel with UPTO = 0 compares (R465). -/
def State.tallyRestart (s : State) (td : Td) (n : TallyNo) : State :=
  let b := trdTally td n
  (((s.setTallyStream td n {}).setReg (b + 0x18) (tallyCrc (fld (s.getReg b) 1 0) [])).setReg (b + 0x24) 0).tallyCheck td n
/-- The bytes of a bolt that completed OK join every stream that follows its spool: mode 1 IN, 2 OUT (R465). -/
def State.tallyInclude (s : State) (td : Td) (sp : SpoolId) (mode : Nat) (l : List Byte) : State :=
  ((List.range 16).map (Fin.ofNat 16)).foldl (fun s n =>
    let b := trdTally td n
    let cfg := s.getReg b
    if fld cfg 5 4 = mode ∧ fld cfg 21 16 = sp.val then
      let bytes := (s.tallyStream td n).bytes ++ l
      (((s.setTallyStream td n { bytes := bytes }).setReg (b + 0x18) (tallyCrc (fld cfg 1 0) bytes)).countWrap
        (b + 0x24) 1).tallyCheck td n
    else s) s
/-- TALLY_ARM (R465). -/
def State.tallyArm (s : State) (td : Td) (n : TallyNo) : State :=
  if s.answers (.trd td) then
    (s.modReg (trdTally td n + 0x28) fun x => putBit x 4 true).tallyCheck td n
  else s
/-- TALLY_STREAM_RESET (R465). -/
def State.tallyReset (s : State) (td : Td) (n : TallyNo) : State :=
  if s.answers (.trd td) then s.tallyRestart td n else s
/-- TALLY_CFG_WRITE (R465). -/
def State.tallyCfg (s : State) (td : Td) (n : TallyNo) (val : Word) : State :=
  if s.answers (.trd td) then (s.setReg (trdTally td n) (BitVec.ofNat 64 val.toNat &&& 0x003F0133)).tallyRestart td n else s

/-- TALLY_ARM. -/
def execTallyArm (td : Td) (n : TallyNo) (s : State) : Host.Outcome State Fault Refusal := .next (s.tallyArm td n)
/-- TALLY_STREAM_RESET. -/
def execTallyStreamReset (td : Td) (n : TallyNo) (s : State) : Host.Outcome State Fault Refusal := .next (s.tallyReset td n)
/-- TALLY_CFG_WRITE. -/
def execTallyCfgWrite (td : Td) (n : TallyNo) (val : Word) (s : State) : Host.Outcome State Fault Refusal :=
  .next (s.tallyCfg td n val)
/-- TALLY_PASS_GO. -/
def execTallyPassGo (d : Die) (n : TallyNo) (s : State) : Host.Outcome State Fault Refusal := .next (s.tallyGo d n)
/-- TALLY_PASS_DONE. -/
def execTallyPassDone (d : Die) (n : TallyNo) (s : State) : Host.Outcome State Fault Refusal := .next (s.tallyDone d n)

end Sys2Proof.Machine
end

