-- ==== Sys2Proof/Machine/Provenance.lean ====
section
/-! DEFINITION. The digests of the Temple die (08 §8.5): the deck and carry digests, bolt digests and the package value X,
the history digest H, and the provenance tag of an outbound copy. -/

namespace Sys2Proof.Machine

/-- 32 digest bytes as the value of a 256-bit word, byte 0 least significant (R8). -/
def digestWord (l : List Byte) : BitVec 256 := BitVec.ofNat 256 (leNat l)
/-- The bytes of a digest. -/
def digestBytes (d : BitVec 256) : List Byte := leBytes 32 d.toNat
/-- A digest written into its four 64-bit registers (§8.5). -/
def State.setDigest (s : State) (a : Nat) (d : BitVec 256) : State :=
  (List.range 4).foldl (fun s i => s.setReg (a + 8 * i) (BitVec.ofNat 64 (fld d (64 * i + 63) (64 * i)))) s
/-- A digest read from its registers. -/
def State.digestAt (s : State) (a : Nat) : BitVec 256 :=
  digestWord ((List.range 4).flatMap fun i => leBytes 8 (s.getReg (a + 8 * i)).toNat)

/-- The working cores, ascending. -/
def State.workingCores (s : State) : List CoreId := allCores.filter s.works
/-- The deck record of a core (Table 8.2). -/
def State.deckRecord (s : State) (g : CoreId) : List Byte :=
  let regs := (List.range 4).map (0x300 + 4 * ·) ++ [0x200] ++ (List.range 8).map (0x240 + 8 * ·) ++
    (List.range 16).map (0x540 + 4 * ·) ++ [0x504] ++ (List.range 6).map (0x600 + 4 * ·) ++ [0x618, 0x14]
  leBytes 2 g.toNat ++ s.bytes (auxBase g) 524288 ++ s.bytes (descBase g) 49152 ++
    regs.flatMap (fun o => leBytes 8 (s.creg g o).toNat) ++
    (List.range 64).flatMap fun c => leBytes 8 (s.getReg (routeReg g c)).toNat
/-- The carry record of a core (R271). -/
def State.carryRecord (s : State) (g : CoreId) : List Byte :=
  leBytes 2 g.toNat ++ ((List.range 128).filter (s.carryBit g)).flatMap fun i => s.bytes (beamBase g + 65536 * i) 65536

/-- DIGEST_START (R271): BUSY, unless busy or a core runs a deck. -/
def State.digestStart (s : State) : State :=
  if !s.answers .tpl || s.anyRuns || bit (s.getReg (tpl 0x204)) 0 then s else s.setReg (tpl 0x204) 1
/-- DIGEST_DONE (R271): the deck and carry digests. -/
def State.digestDone (s : State) : State :=
  if bit (s.getReg (tpl 0x204)) 0 then
    let deck := sha256 (leBytes 8 (s.getReg (hdl 0x130)).toNat ++ s.workingCores.flatMap s.deckRecord)
    let carry := sha256 (s.workingCores.flatMap s.carryRecord)
    ((s.setDigest (tpl 0x220) (digestWord deck)).setDigest (tpl 0x240) (digestWord carry)).setReg (tpl 0x204) 0
  else s

/-- The digest of a bolt that delivered its payload (R273). -/
def State.boltDigest (s : State) (td : Td) (sp : SpoolId) (b : Bolt) : BitVec 256 :=
  digestWord (sha256 (leBytes 2 s.pkg ++ leBytes 1 td.val ++ leBytes 2 sp.val ++ leBytes 8 b.hdr.seq.toNat ++
    leBytes 2 b.hdr.tcore.toNat ++ leBytes 4 b.hdr.offset.toNat ++ leBytes 4 b.hdr.len.toNat ++ b.bytes))
/-- BOLT_DIGEST_DONE (R273): the digest of a landed bolt completes and is folded into X. -/
def State.boltDigestDone (s : State) (td : Td) (sp : SpoolId) (seq : Dword) : State :=
  let x := s.spool td sp
  match x.bolts.find? fun b => b.hdr.seq == seq && b.phase == .landed && b.digest.isNone with
  | none => s
  | some b =>
    let d := s.boltDigest td sp b
    let s1 := s.setSpool td sp { x with bolts := x.bolts.map fun y =>
      if y.num == b.num then { y with digest := some d } else y }
    { s1 with heddle := { s1.heddle with xPick := s1.heddle.xPick ^^^ d } }

/-- A pick identity of 48 bits. -/
def ident (epoch num : Nat) : Nat := epoch % 2 ^ 16 * 2 ^ 32 + num % 2 ^ 32
/-- The record of a decided pick joins the queue for H (R274). -/
def State.histAdd (s : State) (outcome : Nat) (x : BitVec 256) : State :=
  { s with temple := { s.temple with histQueue := s.temple.histQueue ++
    [{ num := s.pickNum, epoch := s.pickEpoch, outcome := BitVec.ofNat 8 outcome, x := x }] } }
/-- HISTORY_APPEND (R274, R275): the oldest record, unless it waits for an unresolved fell (outcome 0). -/
def State.historyAppend (s : State) : State :=
  match s.temple.histQueue with
  | [] => s
  | r :: t =>
    if r.outcome = 0 then s
    else
      let h := s.digestAt (tpl 0x2C0)
      let h' := digestWord (sha256 (digestBytes h ++ leBytes 4 r.num.toNat ++ leBytes 2 r.epoch.toNat ++ [r.outcome] ++
        digestBytes r.x))
      let i := ident r.epoch.toNat r.num.toNat
      let s1 := { s with temple := { s.temple with
        histQueue := t, hs := (s.temple.hs.filter fun (e : Nat × BitVec 256) => e.1 != i) ++ [(i, h)] } }
      (s1.setDigest (tpl 0x2C0) h').setReg (tpl 0x2E0) (BitVec.ofNat 64 i)

/-- H_s of a source pick (R275): none while its record waits; a free value if the pick has no record (log entry 3). -/
def State.histBefore (s : State) (b : Bolt) : Option (BitVec 256) :=
  match s.temple.hs.lookup (ident b.hdr.epoch.toNat b.hdr.pick.toNat) with
  | some h => some h
  | none =>
    if s.temple.histQueue.any fun r => r.num == b.hdr.pick && r.epoch == b.hdr.epoch then none
    else some (Config.freeDigest s.free)
/-- The provenance tag of an outbound copy with H_s (R275, Table 8.3). -/
def State.tagOf (s : State) (b : Bolt) (h : BitVec 256) : BitVec 256 :=
  digestWord (sha256 ([0x4F, 0x5A, 0x50, 0x54] ++ leBytes 2 1 ++ leBytes 2 0 ++
    digestBytes (s.digestAt (tpl 0x260)) ++ digestBytes (s.digestAt (tpl 0x280)) ++ digestBytes (s.digestAt (tpl 0x2A0)) ++
    digestBytes h ++ leBytes 4 b.hdr.pick.toNat ++ leBytes 2 b.hdr.epoch.toNat ++ leBytes 2 s.pkg ++
    leBytes 2 b.hdr.tcore.toNat ++ leBytes 2 0 ++ leBytes 4 b.hdr.offset.toNat ++ leBytes 4 b.hdr.len.toNat ++
    leBytes 4 0))

/-- DIGEST_START. -/
def execDigestStart (s : State) : Host.Outcome State Fault Refusal := .next s.digestStart
/-- DIGEST_DONE. -/
def execDigestDone (s : State) : Host.Outcome State Fault Refusal := .next s.digestDone
/-- BOLT_DIGEST_DONE. -/
def execBoltDigestDone (td : Td) (sp : SpoolId) (seq : Dword) (s : State) : Host.Outcome State Fault Refusal :=
  .next (s.boltDigestDone td sp seq)
/-- HISTORY_APPEND. -/
def execHistoryAppend (s : State) : Host.Outcome State Fault Refusal := .next s.historyAppend

end Sys2Proof.Machine
end

