-- ==== Sys2Proof/Machine/Spool.lean ====
section
/-! DEFINITION. Command spools, bolts and tickets (11 §11.3–§11.6): doorbells, fetch, checks, start, payload, completion and
the tickets' order and contents. -/

namespace Sys2Proof.Machine

/-- A spool register. -/
def State.sreg (s : State) (td : Td) (sp : SpoolId) (o : Nat) : Nat := (s.getReg (spoolReg td sp o)).toNat
/-- A spool register set. -/
def State.setSreg (s : State) (td : Td) (sp : SpoolId) (o v : Nat) : State :=
  s.setReg (spoolReg td sp o) (BitVec.ofNat 64 v)
/-- STATE set. -/
def State.setSpoolState (s : State) (td : Td) (sp : SpoolId) (n : Nat) : State :=
  s.modReg (spoolReg td sp 0x24) fun v => putFld v 1 0 n
/-- log2 of bolt slots and of ticket slots. -/
def State.ringSize (s : State) (td : Td) (sp : SpoolId) : Nat × Nat :=
  let c := s.getReg (spoolReg td sp 0x10)
  (fld c 4 0, fld c 12 8)
/-- The spool is a report spool (R351). -/
def State.isReport (s : State) (td : Td) (sp : SpoolId) : Bool := bit (s.getReg (spoolReg td sp 0x10)) 29
/-- The link pair of a Treadle die is bifurcated (R337). -/
def State.bifurcated (s : State) (td : Td) : Bool :=
  if td = 0 then s.temple.settings.bif0 else s.temple.settings.bif1
/-- The function that decodes a spool's page (R343). -/
def State.fnOf (s : State) (td : Td) (sp : SpoolId) : Fn := if s.bifurcated td && 32 ≤ sp.val then 1 else 0
/-- A difference of free-running 32-bit indices. -/
def sub32 (a b : Nat) : Nat := (a + 2 ^ 32 - b % 2 ^ 32) % 2 ^ 32
/-- A difference of pick identities, modulo 2^48 (R356). -/
def sub48 (a b : Nat) : Nat := (a + 2 ^ 48 - b % 2 ^ 48) % 2 ^ 48
/-- a is an earlier identity than b (R356). -/
def earlier48 (a b : Nat) : Bool := 2 ^ 47 ≤ sub48 a b
/-- The spool numbers. -/
def allSpools : List SpoolId := (List.range 64).map (Fin.ofNat 64)
/-- The spool's logic changed. -/
def State.modSpool (s : State) (td : Td) (sp : SpoolId) (f : Spool → Spool) : State := s.setSpool td sp (f (s.spool td sp))

/-! ## Doorbells (R347) and settings (R350, R351, R369) -/

/-- A discarded doorbell is counted. -/
def State.dberr (s : State) (td : Td) (sp : SpoolId) : State := s.count (spoolReg td sp 0x38) 1

/-- TAIL as a fetch sees it: slots that doorbells have covered in this clk are seen from the next clk on (R305). -/
def State.tailSeen (s : State) (td : Td) (sp : SpoolId) : Nat :=
  match (s.spool td sp).rung with
  | some (clk, tail) => if s.clocksRun && clk == s.now then tail.toNat else s.sreg td sp 0x18
  | none => s.sreg td sp 0x18
/-- SPOOL_TAIL_DOORBELL (R305, R347, R351). -/
def State.tailDoorbell (s : State) (td : Td) (fn : Fn) (sp : SpoolId) (val : Word) : State :=
  let d := sub32 val.toNat (s.sreg td sp 0x18)
  if !s.answers (.trd td) || s.fnOf td sp != fn then s
  else if s.spoolState td sp == 1 && !s.isReport td sp && 0 < d &&
      d + sub32 (s.sreg td sp 0x18) (s.sreg td sp 0x20) ≤ 2 ^ (s.ringSize td sp).1 then
    (s.setSreg td sp 0x18 val.toNat).modSpool td sp fun x => { x with rung := some (s.now, BitVec.ofNat 32 (s.tailSeen td sp)) }
  else s.dberr td sp

/-- SPOOL_THEAD_DOORBELL (R347, R361). -/
def State.theadDoorbell (s : State) (td : Td) (fn : Fn) (sp : SpoolId) (val : Word) : State :=
  let x := s.spool td sp
  let done := s.sreg td sp 0x34
  if !s.answers (.trd td) || s.fnOf td sp != fn then s
  else if sub32 val.toNat x.thead.toNat ≤ sub32 done x.thead.toNat then
    let s1 := s.setSpool td sp { x with thead := val }
    if sub32 done val.toNat < 2 ^ (s.ringSize td sp).2 then
      s1.modReg (spoolReg td sp 0x24) fun v => putBit v 8 false
    else s1
  else s.dberr td sp

/-- SPOOL_CFG_WRITE (R351). -/
def State.spoolCfg (s : State) (td : Td) (sp : SpoolId) (val : Word) : State :=
  let size := fld val 4 0
  let tsize := fld val 12 8
  if !s.answers (.trd td) || s.spoolState td sp != 0 || size < 6 || 24 < size || tsize < 6 || 16 < tsize ||
      (bit val 29 && td != 0) then s
  else s.setSreg td sp 0x10 (val.toNat &&& 0x37FF1F1F)

/-- SPOOL_HEAD_WRITE (R369): HEAD, TAIL and RELEASE together. -/
def State.spoolHead (s : State) (td : Td) (sp : SpoolId) (val : Word) : State :=
  if !s.answers (.trd td) || s.spoolState td sp != 0 then s
  else
    (((s.setSreg td sp 0x1C val.toNat).setSreg td sp 0x18 val.toNat).setSreg td sp 0x20 val.toNat).modSpool td sp fun x =>
      { x with rung := none }

/-- SPOOL_ENABLE (R350). -/
def State.spoolEnable (s : State) (td : Td) (sp : SpoolId) : State :=
  if !s.answers (.trd td) then s
  else
    let s1 := s.setSreg td sp 0x14 1
    match s.spoolState td sp with
    | 0 => (s1.setSpoolState td sp 1).modSpool td sp fun x => { x with thead := BitVec.ofNat 32 (s.sreg td sp 0x34) }
    | 2 => s1.modReg (spoolReg td sp 0x24) fun v => putBit v 2 true
    | _ => s1

/-! ## Bolts -/

/-- The header that 64 bytes spell (Table 11.4). -/
def parseBolt (l : List Byte) : BoltHdr :=
  let op := l.getD 8 0
  let len := leAt l 16 4
  let rest := fun (i : Nat) => (l.drop i).all fun b => b == 0
  let data :=
    if op = 2 then rest (32 + len) else if op = 3 then rest 40 else rest 32
  { seq := BitVec.ofNat 64 (leAt l 0 8), op := op, flags := l.getD 9 0, tcore := BitVec.ofNat 16 (leAt l 10 2)
    offset := BitVec.ofNat 32 (leAt l 12 4), len := BitVec.ofNat 32 len, pick := BitVec.ofNat 32 (leAt l 20 4)
    epoch := BitVec.ofNat 16 (leAt l 24 2), slots := BitVec.ofNat 32 (leAt l 28 4), haddr := BitVec.ofNat 64 (leAt l 32 8)
    payload := slice l 32 (min len 32), clean := fld (l.getD 9 0) 7 1 == 0 && leAt l 26 2 == 0 && data }

/-- The core a bolt targets. -/
def BoltHdr.core (h : BoltHdr) : CoreId := BitVec.ofNat 8 h.tcore.toNat
/-- The pick identity a bolt names. -/
def BoltHdr.pickId (h : BoltHdr) : Nat := ident h.epoch.toNat h.pick.toNat
/-- LAND or LAND_INLINE. -/
def BoltHdr.lands (h : BoltHdr) : Bool := h.op == 1 || h.op == 2
/-- Lines that a bolt's range touches. -/
def BoltHdr.lines (h : BoltHdr) : Nat := (h.offset.toNat + h.len.toNat - 1) / 64 + 1 - h.offset.toNat / 64

/-- The first check of Table 11.6 that fails, by status; the quota is checked when the bolt starts. -/
def State.boltCheck (s : State) (h : BoltHdr) : Option Nat :=
  let len := h.len.toNat
  let off := h.offset.toNat
  let slots := if h.op = 1 then 1 + ceilDiv len 64 else 1
  let moves := h.lands || h.op == 3
  if !(moves || h.op == 4) || !h.clean || h.slots.toNat != slots then some 9
  else if !moves then none
  else if h.op == 2 && (len < 4 || 32 < len) || off % 4 != 0 || len % 4 != 0 || (h.op == 3 && h.haddr.toNat % 4 != 0) ||
      len == 0 then some 9
  else if 256 ≤ h.tcore.toNat || !s.works h.core then some 10
  else if 0x7F0000 < off + len ||
      ((List.range ((off + len - 1) / 65536 + 1)).any fun i => off / 65536 ≤ i && !s.carryBit h.core i) then some 10
  else none

/-- A bolt of a spool changed, by its number. -/
def State.modBolt (s : State) (td : Td) (sp : SpoolId) (num : Word) (f : Bolt → Bolt) : State :=
  s.modSpool td sp fun x => { x with bolts := x.bolts.map fun b => if b.num == num then f b else b }

/-- The status of a list's first entry for a SEQ set. -/
def histSet (seq : Dword) (st : Byte) : List (Dword × Byte) → List (Dword × Byte)
  | [] => []
  | e :: t => if e.1 == seq then (seq, st) :: t else e :: histSet seq st t
/-- The ticket status of an accepted bolt enters the history with its ticket (R353). -/
def Spool.setHist (x : Spool) (seq : Dword) (st : Byte) : Spool := { x with history := histSet seq st x.history }

/-- A bolt completes with a status (R362); the ticket of a copy waits for its tag (R276). -/
def State.finishBolt (s : State) (td : Td) (sp : SpoolId) (b : Bolt) (st : Nat) : State :=
  let tag := b.hdr.op == 3 && (st == 1 || st == 6 || st == 7)
  let s1 := s.modBolt td sp b.num fun y => { y with phase := .finished (BitVec.ofNat 8 st), reads := [] }
  if tag then s1 else s1.modSpool td sp fun x => { x with order := x.order ++ [b.num] }

/-- A spool becomes HALTED (R348): 1 FORM, 2 FETCH. -/
def State.haltSpool (s : State) (td : Td) (sp : SpoolId) (cause : Nat) : State :=
  let s1 := s.modReg (spoolReg td sp 0x24) fun v => putFld (putFld v 1 0 3) 5 4 cause
  s1.logTd td 0x5001 sp.val (s1.getReg (spoolReg td sp 0x24))

/-- A function can issue requests: its link is up and Bus Master Enable set (R369, R371). -/
def State.master (s : State) (td : Td) (f : Fn) : Bool := (s.fn td f).up && (s.fn td f).bme
/-- An error that a function reports under AER, unless it is masked (R367): a Poisoned TLP Received or a Completion Timeout. -/
def State.aerReport (s : State) (td : Td) (f : Fn) (poisoned : Bool) : State :=
  let i := if poisoned then 12 else 14
  if (s.fn td f).aerMask.getLsbD i then s else s.emit (.aer td f poisoned ((s.fn td f).aerSev.getLsbD i))
/-- Non-posted requests of a function that have not been answered in full (R338). -/
def State.openReads (s : State) (td : Td) (f : Fn) : Nat :=
  ((s.td td).spools.map fun e =>
    if s.fnOf td (Fin.ofNat 64 e.1) == f then e.2.reads.length + (e.2.bolts.map fun b => b.reads.length).sum else 0).sum
/-- The tickets that a spool holds because its ring is full (R361). -/
def State.held (s : State) (td : Td) (sp : SpoolId) : Nat :=
  let x := s.spool td sp
  if sub32 (s.sreg td sp 0x34) x.thead.toNat = 2 ^ (s.ringSize td sp).2 then x.order.length + x.reports.length else 0

/-- BOLT_FETCH (R305, R338, R348, R361, R366): the header at HEAD is requested; again after a header that the doorbells did not cover only
once they cover its bolt. -/
def State.boltFetch (s : State) (td : Td) (sp : SpoolId) : State :=
  let x := s.spool td sp
  let head := s.sreg td sp 0x1C
  let tail := s.tailSeen td sp
  let covered := match x.short with | some n => n.toNat ≤ sub32 tail head | none => true
  if s.answers (.trd td) && s.spoolState td sp == 1 && !s.isReport td sp && s.master td (s.fnOf td sp) && head != tail &&
      !x.reads.contains true && covered && s.held td sp < Config.heldTickets && s.openReads td (s.fnOf td sp) < Config.openReadCap then
    (s.setSpool td sp { x with reads := x.reads ++ [true], short := none }).emit (.hostRead td
      (BitVec.ofNat 64 (s.sreg td sp 0x00 + head % 2 ^ (s.ringSize td sp).1 * 64)) 64)
  else s

/-- The pick in progress, as an identity: none while no pick runs. -/
def State.curPick (s : State) : Option Nat :=
  match s.heddle.phase with
  | .issuing | .window => some s.pickId.toNat
  | _ => none

/-- A header with enough slots is fetched (R348, R352, R354, R356, R359). -/
def State.fetched (s : State) (td : Td) (sp : SpoolId) (h : BoltHdr) : State :=
  let head := s.sreg td sp 0x1C
  let b : Bolt := { hdr := h, num := BitVec.ofNat 32 (s.sreg td sp 0x30), slot0 := BitVec.ofNat 32 head, phase := .waiting }
  let s1 := ((s.setSreg td sp 0x1C ((head + h.slots.toNat) % 2 ^ 32)).countWrap (spoolReg td sp 0x30) 1).modSpool td sp
    fun x => { x with bolts := x.bolts ++ [b] }
  if h.seq.toNat ≤ s.sreg td sp 0x28 then s1.finishBolt td sp b 2
  else
    let s2 := (s1.setSreg td sp 0x28 h.seq.toNat).modSpool td sp fun x =>
      { x with last := h.seq, history := ((h.seq, (0 : Byte)) :: x.history).take Config.historyCap }
    match s.boltCheck h with
    | some st => s2.finishBolt td sp b st
    | none =>
      if h.op = 4 then s2.modBolt td sp b.num fun y => { y with phase := .started }
      else match s.curPick with
        | some c => if h.lands && !earlier48 c h.pickId then s2.finishBolt td sp b 8 else s2
        | none => s2

/-- A header read is answered, in the order of the requests (log entry 46): whether the answer is still wanted. -/
def State.headerRead (s : State) (td : Td) (sp : SpoolId) : State × Bool :=
  let x := s.spool td sp
  (s.setSpool td sp { x with reads := x.reads.drop 1 }, x.reads.headD false && s.spoolState td sp == 1)
/-- BOLT_HEADER_ARRIVE (R348, R352, R367): none is an unsuccessful or poisoned completion. -/
def State.headerArrive (s : State) (td : Td) (sp : SpoolId) (hdr : Option (List Byte)) : State :=
  if (s.spool td sp).reads = [] then s
  else
    let r := s.headerRead td sp
    match hdr with
    | none => (if r.2 then r.1.haltSpool td sp 2 else r.1).aerReport td (s.fnOf td sp) true
    | some l =>
      let h := parseBolt l
      if !r.2 then r.1
      else if h.slots = 0 ∨ 2 ^ (s.ringSize td sp).1 < h.slots.toNat then r.1.haltSpool td sp 1
      else if sub32 (s.sreg td sp 0x18) (s.sreg td sp 0x1C) < h.slots.toNat then
        r.1.modSpool td sp fun y => { y with short := some h.slots }
      else r.1.fetched td sp h

/-- The fate of a pick (R92, R94, R358): 1 committed, 2 dropped, 3 unresolved. One with no recorded outcome left the contents of the
last fell taken. -/
def State.fateOf (s : State) (i : Nat) : Nat :=
  let last := s.getReg (hdl 0x58)
  let info := s.getReg (hdl 0x68)
  if fld last 49 48 ≠ 0 ∧ fld last 47 0 = i then fld last 49 48
  else if fld info 55 48 ≠ 0 ∧ fld info 47 0 = i then 2 else 1

/-- Payload beats of at most one line of the target core join its service queue (R33, R40). -/
def State.queueLand (s : State) (td : Td) (sp : SpoolId) (b : Bolt) (at' : Nat) (l : List Byte) : State :=
  let pairs := (List.range l.length).zip l |>.map fun e => (b.hdr.offset.toNat + at' + e.1, e.2)
  (groupLines pairs).foldl (fun s e =>
    match e.2 with
    | [] => s
    | (o, _) :: _ => s.modCore b.hdr.core fun c => { c with svc := c.svc ++
        [.land td sp b.hdr.seq (64 * e.1 + o) (e.2.map (·.2))] }) s

/-- The next read of a LAND bolt's payload slots (R346, R357): of at most Max_Read_Request_Size, not over the ring's end, nor over a
4 KiB boundary (PRESUMED: PCI Express Base 6.0, log entry 34). -/
def State.payloadRead (s : State) (td : Td) (sp : SpoolId) (b : Bolt) : Nat × Nat :=
  let ring := 2 ^ (s.ringSize td sp).1 * 64
  let byte := (b.slot0.toNat * 64 + 64 + b.asked) % ring
  (s.sreg td sp 0x00 + byte, min (min (s.fn td (s.fnOf td sp)).mrrs (b.hdr.len.toNat - b.asked)) (min (ring - byte) (4096 - byte % 4096)))
/-- The reads of a bolt's payload that its link still has room for (R338, R357), with at most `n` of them. -/
def State.askPayload (s : State) (td : Td) (sp : SpoolId) : Nat → Bolt → State
  | 0, _ => s
  | n + 1, b =>
    if b.phase ≠ .started ∨ b.hdr.op ≠ 1 ∨ b.hdr.len.toNat ≤ b.asked ∨
        Config.openReadCap ≤ s.openReads td (s.fnOf td sp) then s
    else
      let r := s.payloadRead td sp b
      let b' := { b with asked := b.asked + r.2, reads := b.reads ++ [r.2] }
      State.askPayload ((s.modBolt td sp b.num fun _ => b').emit (.hostRead td (BitVec.ofNat 64 r.1) r.2)) td sp n b'
/-- The payload reads that wait on a link for room go out, the spools in ascending order (log entry 46). -/
def State.askMore (s : State) (td : Td) (f : Fn) : State :=
  (allSpools.filter fun sp => s.fnOf td sp == f).foldl (fun s sp =>
    (s.spool td sp).bolts.foldl (fun s b => s.askPayload td sp Config.openReadCap b) s) s

/-- A landing bolt starts (R355, R357), or completes OVERSIZE. -/
def State.startLand (s : State) (td : Td) (sp : SpoolId) (b : Bolt) : State :=
  let g := b.hdr.core
  let used := ((s.td td).started.lookup g.toNat).getD 0
  let quota := fld (s.getReg (trd td (0x2000 + 4 * g.toNat))) 12 0
  if quota < used + b.hdr.lines then s.finishBolt td sp b 5
  else
    let t := s.td td
    let s1 := (s.setTd td { t with started := (g.toNat, used + b.hdr.lines) :: t.started.filter fun e => e.1 != g.toNat }).modBolt
      td sp b.num fun y => { y with phase := .started, lines := b.hdr.lines }
    if b.hdr.op = 2 then
      (s1.modBolt td sp b.num fun y => { y with got := b.hdr.len.toNat, bytes := b.hdr.payload }).queueLand td sp b 0
        b.hdr.payload
    else s1.askMore td (s.fnOf td sp)

/-- BOLT_START (R356, R358, R488): the first bolt of the spool that has not started, once its action pick has begun; one whose
core's die has been powered down completes BADRANGE. -/
def State.boltStart (s : State) (td : Td) (sp : SpoolId) : State :=
  match (s.spool td sp).bolts.find? fun b => b.phase == .waiting, s.curPick with
  | some b, some c =>
    let act := if b.hdr.lands then b.hdr.pickId else (b.hdr.pickId + 1) % 2 ^ 48
    if earlier48 c act then s
    else if act != c then s.finishBolt td sp b 8
    else if !s.works b.hdr.core then s.finishBolt td sp b 10
    else if b.hdr.lands then s.startLand td sp b
    else match s.heddle.srcFate with
      | 2 => s.finishBolt td sp b 4
      | 3 => s.finishBolt td sp b 13
      | _ =>
        if s.heddle.phase == .window then s.finishBolt td sp b 6
        else s.modBolt td sp b.num fun y => { y with phase := .started }
  | _, _ => s

/-- A started landing bolt fails (R357, R371): HOST_ERROR, and its pick is late. -/
def State.failLand (s : State) (td : Td) (sp : SpoolId) (b : Bolt) : State :=
  let t := s.td td
  let s1 := (s.setTd td { t with failed := t.failed ++ [(sp.val, b.hdr.seq)] }).modCore b.hdr.core fun c =>
    { c with svc := c.svc.filter fun x => match x with
        | .land d q seq _ _ => !(d == td && q == sp && seq == b.hdr.seq)
        | _ => true }
  s1.finishBolt td sp b 12

/-- The oldest started LAND bolt of a spool with a payload read that has not been answered. -/
def State.readingBolt (s : State) (td : Td) (sp : SpoolId) : Option Bolt :=
  (s.spool td sp).bolts.find? fun b => b.phase == .started && b.hdr.op == 1 && b.got < b.asked
/-- Requests after n bytes of answers, which come in the order of the requests (log entry 46). -/
def answered : List Nat → Nat → List Nat
  | [], _ => []
  | a :: t, n => if a ≤ n then answered t (n - a) else (a - n) :: t
/-- LAND_PAYLOAD_ARRIVE (R357): bytes of the oldest started LAND bolt that still reads its payload, or a failed read. -/
def State.payloadArrive (s : State) (td : Td) (sp : SpoolId) (payload : Option (List Byte)) : State :=
  match s.readingBolt td sp with
  | none => s
  | some b =>
    match payload with
    | none => ((s.failLand td sp b).aerReport td (s.fnOf td sp) true).askMore td (s.fnOf td sp)
    | some l =>
      let l' := l.take (b.asked - b.got)
      ((s.modBolt td sp b.num fun y =>
        { y with got := y.got + l'.length, bytes := y.bytes ++ l', reads := answered y.reads l'.length }).queueLand td sp b b.got
          l').askMore td (s.fnOf td sp)

/-- COMPLETION_TIMEOUT (R338, R348, R357, R367): nothing while the function's completion timeout is disabled. -/
def State.completionTimeout (s : State) (td : Td) (sp : SpoolId) (payload : Bool) : State :=
  if (s.fn td (s.fnOf td sp)).ctoOff then s
  else if payload then
    match s.readingBolt td sp with
    | none => s
    | some b => ((s.failLand td sp b).aerReport td (s.fnOf td sp) false).askMore td (s.fnOf td sp)
  else if (s.spool td sp).reads = [] then s
  else
    let r := s.headerRead td sp
    (if r.2 then r.1.haltSpool td sp 2 else r.1).aerReport td (s.fnOf td sp) false

/-- OUT_COPY_BEAT (R43, R358): the next beat of the oldest running copy waits for the core's service slot. -/
def State.outBeat (s : State) (td : Td) (sp : SpoolId) : State :=
  match (s.spool td sp).bolts.find? fun b => b.phase == .started && b.hdr.op == 3 with
  | none => s
  | some b =>
    let x : SvcBeat := .out td sp b.hdr.seq
    if (s.core b.hdr.core).svc.contains x || (s.core b.hdr.core).svcPort == some x then s
    else s.modCore b.hdr.core fun c => { c with svc := c.svc ++ [x] }

/-- A running copy ends (R43, R163, R358). -/
def State.endOut (s : State) (td : Td) (sp : SpoolId) (b : Bolt) (st : Nat) : State :=
  let x : SvcBeat := .out td sp b.hdr.seq
  (s.modCore b.hdr.core fun c =>
    { c with
      svc := c.svc.filter fun y => y != x
      svcPort := if c.svcPort = some x then none else c.svcPort }).finishBolt td sp b st

/-- The running copy that a beat belongs to. -/
def State.copying (s : State) (td : Td) (sp : SpoolId) (seq : Dword) : Option Bolt :=
  (s.spool td sp).bolts.find? fun b => b.hdr.seq == seq && b.phase == .started && b.hdr.op == 3
/-- The beam bytes that the next beat of a copy reads: offset and number, within one line (R33, R43). -/
def Bolt.nextOut (b : Bolt) : Nat × Nat :=
  let off := b.hdr.offset.toNat + b.got
  (off, min (64 - off % 64) (b.hdr.len.toNat - b.got))
/-- What a beat of a copy has read is written to host memory (R163, R358, R364), not over a 4 KiB boundary (PRESUMED, log entry 34); `bad` are the beam offsets of the words that failed
their parity. -/
def State.copied (s : State) (td : Td) (sp : SpoolId) (b : Bolt) (data : List Byte) (bad : List Nat) : State :=
  if bad ≠ [] then
    (bad.foldl (fun s o => (s.ccount b.hdr.core 0x320 1).logTd td 0x3002 0 (s.parLayout b.hdr.core o 14 false false)) s).endOut
      td sp b 7
  else
    let a := b.hdr.haddr + BitVec.ofNat 64 b.got
    let m := 4096 - a.toNat % 4096
    let relaxed := (s.fn td (s.fnOf td sp)).relaxed
    let s0 := s.emit (.hostWrite td a (data.take m) relaxed)
    let s1 := if data.length ≤ m then s0 else s0.emit (.hostWrite td (a + BitVec.ofNat 64 m) (data.drop m) relaxed)
    let b' := { b with got := b.got + data.length, bytes := b.bytes ++ data }
    let s2 := s1.modBolt td sp b.num fun _ => b'
    if b'.got = b.hdr.len.toNat then s2.endOut td sp b' 1 else s2

/-- PROVENANCE_TAG_DONE (R275, R276): the tag of a finished copy is complete, and its ticket may follow. -/
def State.tagDone (s : State) (td : Td) (sp : SpoolId) (seq : Dword) : State :=
  let x := s.spool td sp
  match x.bolts.find? fun b => b.hdr.seq == seq && b.hdr.op == 3 && !b.tagDone &&
      (b.phase == .finished 1 || b.phase == .finished 6 || b.phase == .finished 7) with
  | none => s
  | some b =>
    match s.histBefore b with
    | none => s
    | some h =>
      (s.nextFree.modBolt td sp b.num fun y => { y with tagDone := true, digest := some (s.tagOf b h) }).modSpool td sp
        fun x => { x with order := x.order ++ [b.num] }

/-- FENCE_COMPLETE (R359): the oldest bolt without a ticket is a FENCE. -/
def State.fenceComplete (s : State) (td : Td) (sp : SpoolId) : State :=
  match (s.spool td sp).bolts with
  | b :: _ => if b.hdr.op = 4 ∧ b.phase = .started then s.finishBolt td sp b 1 else s
  | [] => s

/-! ## Tickets (§11.5) -/

/-- The status a bolt completed with. -/
def Bolt.status (b : Bolt) : Nat := match b.phase with | .finished st => st.toNat | _ => 0
/-- Bytes delivered or copied. -/
def Bolt.moved (b : Bolt) : Nat := if b.hdr.lands then b.staged else if b.hdr.op = 3 then b.got else 0
/-- A bolt's ticket (Table 11.7) with PHASE and RELEASE; `orig` is what the history holds for its SEQ (R353). -/
def Bolt.ticket (b : Bolt) (sp : SpoolId) (orig phase release : Nat) : List Byte :=
  let st := b.status
  let dig := (b.hdr.lands && st == 1) || (b.hdr.op == 3 && (st == 1 || st == 6 || st == 7))
  leBytes 8 b.hdr.seq.toNat ++ leBytes 1 st ++ leBytes 1 (if st = 2 then orig else 0) ++ leBytes 1 phase ++
    leBytes 1 sp.val ++ leBytes 4 b.moved ++ leBytes 4 b.hdr.pick.toNat ++ leBytes 2 b.hdr.epoch.toNat ++ leBytes 2 0 ++
    leBytes 4 release ++ leBytes 4 0 ++ (if dig then digestBytes (b.digest.getD 0) else leBytes 32 0)
/-- RELEASE (R349). -/
def State.release (s : State) (td : Td) (sp : SpoolId) : Nat :=
  match (s.spool td sp).bolts with
  | b :: _ => b.slot0.toNat
  | [] => s.sreg td sp 0x1C

/-- First register of a function's MSI-X table entry (R344). -/
def msixEntry (td : Td) (f : Fn) (vec : Nat) : Nat := trd td (0x100000 + 0x20000 * f.val + 16 * (vec % 2048))
/-- The Pending Bit Array word of a vector, in 64-bit words. -/
def msixPba (td : Td) (f : Fn) (vec : Nat) : Nat := trd td (0x108000 + 0x20000 * f.val + 8 * (vec % 2048 / 64))
/-- An MSI-X message of a function whose MSI-X Enable is set (R345): sent, or pending while its entry or the function is
masked (PRESUMED, log entry 33). -/
def State.sendMsix (s : State) (td : Td) (f : Fn) (vec : Nat) : State :=
  if !s.master td f || !(s.fn td f).msixEn then s
  else if bit (s.getReg (msixEntry td f vec + 12)) 0 || (s.fn td f).msixMask then s.modReg (msixPba td f vec) fun v => putBit v (vec % 64) true
  else s.emit (.msix td f (vec % 2048))
/-- A vector that is masked no longer sends what was pending (PRESUMED, log entry 33). -/
def State.unmask (s : State) (td : Td) (f : Fn) (vec : Nat) : State :=
  let pba := msixPba td f vec
  if !bit (s.getReg (msixEntry td f vec + 12)) 0 && !(s.fn td f).msixMask && (s.fn td f).msixEn && bit (s.getReg pba) (vec % 64) &&
      s.master td f then
    (s.modReg pba fun v => putBit v (vec % 64) false).sendMsix td f vec
  else s

/-- A ticket of 64 bytes leaves, or is discarded and counted while the function is detached (R361, R363, R371). -/
def State.putTicket (s : State) (td : Td) (sp : SpoolId) (seq : Dword) (irq : Bool) (bytes : List Byte) : State :=
  let f := s.fnOf td sp
  let done := s.sreg td sp 0x34
  let cfg := s.getReg (spoolReg td sp 0x10)
  let s1 := s.countWrap (spoolReg td sp 0x34) 1
  if s.master td f ∧ 6 ≤ (s.ringSize td sp).2 then
    let addr := s.sreg td sp 0x08 + done % 2 ^ (s.ringSize td sp).2 * 64
    let s2 := s1.emit (.ticket td (BitVec.ofNat 64 addr) bytes)
    if bit cfg 28 && irq then s2.sendMsix td f (fld cfg 26 16) else s2
  else (s1.count (trd td 0x18) 1).logTd td 0x5003 sp.val seq

/-- TICKET_WRITE (R353, R361–R364): the next report or completed bolt of the spool gets its ticket, and its status enters the
history. -/
def State.ticketWrite (s : State) (td : Td) (sp : SpoolId) : State :=
  let x := s.spool td sp
  let done := s.sreg td sp 0x34
  let tsize := (s.ringSize td sp).2
  let full := s.master td (s.fnOf td sp) && 6 ≤ tsize && sub32 done x.thead.toNat == 2 ^ tsize
  let phase := (done / 2 ^ tsize + 1) % 2
  if !s.answers (.trd td) then s
  else match x.reports, x.order with
    | r :: rs, _ =>
      if full then s.modReg (spoolReg td sp 0x24) fun v => putBit v 8 true
      else
        (s.setSpool td sp { x with reports := rs }).putTicket td sp 0 true
          (r.bytes.take 10 ++ leBytes 1 phase ++ r.bytes.drop 11)
    | [], o :: os =>
      (match x.bolts.find? fun b => b.num == o with
      | none => s.setSpool td sp { x with order := os }
      | some b =>
        if b.hdr.lands && b.status == 1 && b.digest.isNone && s.master td (s.fnOf td sp) then s
        else if full then s.modReg (spoolReg td sp 0x24) fun v => putBit v 8 true
        else
          let y := if b.status = 2 then x else x.setHist b.hdr.seq (BitVec.ofNat 8 b.status)
          let s1 := s.setSpool td sp { y with
            order := os, bolts := y.bolts.filter (fun z => z.num != o), completed := y.completed + 1 }
          let rel := s1.release td sp
          let orig := ((x.history.lookup b.hdr.seq).getD 0xFF).toNat
          let s2 := (s1.setSreg td sp 0x20 rel).putTicket td sp b.hdr.seq (bit b.hdr.flags 0) (b.ticket sp orig phase rel)
          if b.status = 1 then
            (if b.hdr.lands then s2.tallyInclude td sp 1 b.bytes
            else if b.hdr.op = 3 then s2.tallyInclude td sp 2 b.bytes else s2)
          else s2)
    | [], [] => s

/-! ## Ends of bolts and spools -/

/-- Every bolt of a spool that has not started completes ABORTED (R360). -/
def State.abortWaiting (s : State) (td : Td) (sp : SpoolId) : State :=
  ((s.spool td sp).bolts.filter fun b => b.phase == .waiting).foldl (fun s b => s.finishBolt td sp b 11) s
/-- In every spool of both dies (R360). -/
def State.abortAll (s : State) : State :=
  ([0, 1] : List Td).foldl (fun s td => allSpools.foldl (fun s sp => s.abortWaiting td sp) s) s
/-- The header reads of a spool that stops are no longer wanted (R350). -/
def Spool.stopReads (x : Spool) : Spool := { x with reads := x.reads.map fun _ => false, short := none }
/-- SPOOL_DISABLE (R350). -/
def State.spoolDisable (s : State) (td : Td) (sp : SpoolId) : State :=
  if !s.answers (.trd td) then s
  else
    let s1 := s.setSreg td sp 0x14 0
    match s.spoolState td sp with
    | 1 | 3 => ((s1.setSpoolState td sp 2).modSpool td sp Spool.stopReads).abortWaiting td sp
    | 2 => s1.modReg (spoolReg td sp 0x24) fun v => putBit v 2 false
    | _ => s1
/-- SPOOL_STOPPED (R350): every fetched bolt has its ticket. -/
def State.spoolStopped (s : State) (td : Td) (sp : SpoolId) : State :=
  let x := s.spool td sp
  if s.spoolState td sp == 2 && x.bolts.isEmpty then
    s.modReg (spoolReg td sp 0x24) fun v => if bit v 2 then putBit (putFld v 1 0 1) 2 false else putFld v 1 0 0
  else s

/-- Bolts of a kind of a die, with their spool. -/
def State.boltsOf (s : State) (td : Td) (p : Bolt → Bool) : List (SpoolId × Bolt) :=
  (s.td td).spools.flatMap fun e => (e.2.bolts.filter p).map fun b => (Fin.ofNat 64 e.1, b)
/-- A bolt lands in the pick in progress and its payload has not fully entered its fell buffer (R77). -/
def State.landsNow (s : State) (b : Bolt) : Bool :=
  b.hdr.lands && (b.phase == .started || (b.phase == .waiting && s.curPick == some b.hdr.pickId))
/-- A payload of the current pick has not fully entered its fell buffers (R77). The late bolt that the drop report of a Treadle die
names is one that failed, else the first of the lowest-numbered spool: R88 puts causes and voters in order, not bolts (DESIGN CHOICE,
log entry 45). -/
def State.lateBolt (s : State) (td : Td) : Option (Nat × Dword) :=
  match (s.td td).failed with
  | x :: _ => some x
  | [] => ((s.boltsOf td s.landsNow).head?).map fun x => (x.1.val, x.2.hdr.seq)

/-- At the drop of the pick: landing bolts of it complete DROPPED, and their beats are discarded (R91, R357). -/
def State.boltsDropped (s : State) : State :=
  ([0, 1] : List Td).foldl (fun s td =>
    (s.boltsOf td fun b => s.landsNow b || (b.hdr.lands && b.phase == .landed && s.curPick == some b.hdr.pickId)).foldl (fun s x =>
      (s.modCore x.2.hdr.core fun c =>
        { c with svc := c.svc.filter fun y => match y with | .land _ _ _ _ _ => false | _ => true }).finishBolt
          td x.1 x.2 3) s) s
/-- At the end of a core's drain: the bolts that landed in it in the pick that drained complete OK (R357). -/
def State.boltsLanded (s : State) (g : CoreId) : State :=
  ([0, 1] : List Td).foldl (fun s td =>
    (s.boltsOf td fun b => b.hdr.lands && b.phase == .landed && b.hdr.core == g && b.hdr.pickId == s.heddle.drainPick).foldl (fun s x =>
      s.finishBolt td x.1 x.2 1) s) s
/-- At the opening of the fell window: copies not fully read end OUT_LATE (R43). -/
def State.outsLate (s : State) : State :=
  ([0, 1] : List Td).foldl (fun s td =>
    (s.boltsOf td fun b => b.hdr.op == 3 && b.phase == .started).foldl (fun s x => s.endOut td x.1 x.2 6) s) s

/-- The report of a drop (R90, R351): into the lowest report spool of TD0 that runs and has a free slot, else counted. -/
def State.reportDrop (s : State) (late : Option (Td × Nat × Dword)) : State :=
  let room := fun (sp : SpoolId) =>
    sub32 (s.sreg 0 sp 0x34) (s.spool 0 sp).thead.toNat + (s.spool 0 sp).order.length + (s.spool 0 sp).reports.length < 2 ^ (s.ringSize 0 sp).2
  match allSpools.find? fun sp => s.isReport 0 sp && s.spoolState 0 sp == 1 with
  | some sp =>
    if room sp && s.master 0 (s.fnOf 0 sp) then
      let info := s.getReg (hdl 0x68)
      let seq := match late with | some x => x.2.2.toNat | none => 0
      let spn := match late with | some x => x.2.1 | none => 0
      let tdn := match late with | some x => x.1.val | none => 0xFF
      let r : List Byte := leBytes 8 seq ++ leBytes 1 3 ++ leBytes 1 0 ++ leBytes 1 0 ++ leBytes 1 spn ++
        leBytes 4 (s.getReg (trd 0 0x14)).toNat ++ leBytes 4 (fld info 31 0) ++ leBytes 2 (fld info 47 32) ++ leBytes 2 0 ++
        leBytes 4 0 ++ leBytes 4 0 ++ leBytes 8 info.toNat ++ leBytes 8 (s.getReg (hdl 0x70)).toNat ++
        leBytes 4 (s.getReg (hdl 0x78)).toNat ++ leBytes 1 tdn ++ leBytes 11 0
      (s.modSpool 0 sp fun x => { x with reports := x.reports ++ [{ bytes := r }] }).setReg (trd 0 0x14) 0
    else s.count (trd 0 0x14) 1
  | none => s.count (trd 0 0x14) 1

/-- SPOOL_TAIL_DOORBELL. -/
def execSpoolTailDoorbell (td : Td) (fn : Fn) (sp : SpoolId) (val : Word) (s : State) :
    Host.Outcome State Fault Refusal := .next (s.tailDoorbell td fn sp val)
/-- SPOOL_THEAD_DOORBELL. -/
def execSpoolTheadDoorbell (td : Td) (fn : Fn) (sp : SpoolId) (val : Word) (s : State) :
    Host.Outcome State Fault Refusal := .next (s.theadDoorbell td fn sp val)
/-- SPOOL_ENABLE. -/
def execSpoolEnable (td : Td) (sp : SpoolId) (s : State) : Host.Outcome State Fault Refusal := .next (s.spoolEnable td sp)
/-- SPOOL_DISABLE. -/
def execSpoolDisable (td : Td) (sp : SpoolId) (s : State) : Host.Outcome State Fault Refusal := .next (s.spoolDisable td sp)
/-- SPOOL_HEAD_WRITE. -/
def execSpoolHeadWrite (td : Td) (sp : SpoolId) (val : Word) (s : State) : Host.Outcome State Fault Refusal :=
  .next (s.spoolHead td sp val)
/-- SPOOL_CFG_WRITE. -/
def execSpoolCfgWrite (td : Td) (sp : SpoolId) (val : Word) (s : State) : Host.Outcome State Fault Refusal :=
  .next (s.spoolCfg td sp val)
/-- SPOOL_STOPPED. -/
def execSpoolStopped (td : Td) (sp : SpoolId) (s : State) : Host.Outcome State Fault Refusal := .next (s.spoolStopped td sp)
/-- BOLT_FETCH. -/
def execBoltFetch (td : Td) (sp : SpoolId) (s : State) : Host.Outcome State Fault Refusal := .next (s.boltFetch td sp)
/-- BOLT_HEADER_ARRIVE. -/
def execBoltHeaderArrive (td : Td) (sp : SpoolId) (hdr : Option (List Byte)) (s : State) :
    Host.Outcome State Fault Refusal := .next (s.headerArrive td sp hdr)
/-- BOLT_START. -/
def execBoltStart (td : Td) (sp : SpoolId) (s : State) : Host.Outcome State Fault Refusal := .next (s.boltStart td sp)
/-- LAND_PAYLOAD_ARRIVE. -/
def execLandPayloadArrive (td : Td) (sp : SpoolId) (payload : Option (List Byte)) (s : State) :
    Host.Outcome State Fault Refusal := .next (s.payloadArrive td sp payload)
/-- OUT_COPY_BEAT. -/
def execOutCopyBeat (td : Td) (sp : SpoolId) (s : State) : Host.Outcome State Fault Refusal := .next (s.outBeat td sp)
/-- FENCE_COMPLETE. -/
def execFenceComplete (td : Td) (sp : SpoolId) (s : State) : Host.Outcome State Fault Refusal := .next (s.fenceComplete td sp)
/-- TICKET_WRITE. -/
def execTicketWrite (td : Td) (sp : SpoolId) (s : State) : Host.Outcome State Fault Refusal := .next (s.ticketWrite td sp)
/-- PROVENANCE_TAG_DONE. -/
def execProvenanceTagDone (td : Td) (sp : SpoolId) (seq : Dword) (s : State) : Host.Outcome State Fault Refusal :=
  .next (s.tagDone td sp seq)
/-- COMPLETION_TIMEOUT. -/
def execCompletionTimeout (td : Td) (sp : SpoolId) (payload : Bool) (s : State) : Host.Outcome State Fault Refusal :=
  .next (s.completionTimeout td sp payload)

end Sys2Proof.Machine
end

