-- ==== Sys2Proof/Machine/Service.lean ====
section
/-! DEFINITION. Reads of registers and of core memories by the host (00 R10–R13, 01 R29–R33, 16 R506, 17 R518), port SVC of a beam
(04 R148), and the order of a core's service slot (01 R27). -/

namespace Sys2Proof.Machine

/-! ## Register reads -/

/-- Offsets of a block that are byte memory: descriptor tables, the flash buffer, event logs. -/
def bytesAt : Block → Nat → Bool
  | .core _, o => 0x4000 ≤ o
  | .tpl, o => (0x10000 ≤ o && o < 0x11000) || (0x80000 ≤ o && o < 0x88000)
  | _, o => 0x80000 ≤ o && o < 0x88000
/-- A register as a requester reads it: its own latch if it holds one (R506, R523), else the live value. -/
def State.readReg (s : State) (req : Requester) (b : Block) (o : Nat) : Dword :=
  match (s.latches.filter fun l => l.req == req).findSome? fun l => l.vals.lookup (b.base + o) with
  | some v => v
  | none => s.liveReg b o
/-- 32 bits at an aligned device address outside the core memories (R10, R13). -/
def State.read32 (s : State) (req : Requester) (a : Nat) : Nat :=
  match blockOf a with
  | none => 0
  | some (b, o) =>
    if !s.answers b || s.hidden b o then 0
    else if b = .tpl && 0x10000 ≤ o && o < 0x11000 && bit (s.getReg (tpl 0x40C)) 0 then 0
    else if bytesAt b o then leNat (s.bytes a 4)
    else match b.spec o with
      | some _ => (s.readReg req b o).toNat % 2 ^ 32
      | none =>
        if 4 ≤ o ∧ o % 8 = 4 then
          (match b.spec (o - 4) with
            | some r => if r.wide then (s.readReg req b (o - 4)).toNat / 2 ^ 32 else 0
            | none => 0)
        else 0
/-- The bytes a register read returns: 0 for a size or alignment that is not legal (R10). -/
def State.readRegs (s : State) (req : Requester) (a n : Nat) : List Byte :=
  if n = 4 ∧ a % 4 = 0 then leBytes 4 (s.read32 req a)
  else if n = 8 ∧ a % 8 = 0 then leBytes 4 (s.read32 req a) ++ leBytes 4 (s.read32 req (a + 4))
  else List.replicate n 0

/-! ## Core memories -/

/-- A core memory at a device address: the core, and 0 for the beam, 1 for the card store, 2 for the take-up. -/
def memAt (a : Nat) : Option (CoreId × Nat) :=
  if a < 0x80000000 then some (BitVec.ofNat 8 (a / 0x800000), 0)
  else if a < 0xC0000000 then
    let o := (a - 0x80000000) % 0x400000
    let g : CoreId := BitVec.ofNat 8 ((a - 0x80000000) / 0x400000)
    if o < 0x80000 then some (g, 1) else if 0x100000 ≤ o ∧ o < 0x200000 then some (g, 2) else none
  else none
/-- The device address that a BAR0 offset of a function reaches (Table 11.2). -/
def State.barAddr (s : State) (td : Td) (fn : Fn) (off : Nat) : Option Nat :=
  let n := (s.fn td fn).bar0Log
  if off < 2 ^ n then some (off + (2 ^ 32 - 2 ^ n)) else none
/-- The requester a function is (R11). -/
def reqOf (td : Td) (fn : Fn) : Requester :=
  if td = 0 then (if fn = 0 then .td0a else .td0b) else (if fn = 0 then .td1a else .td1b)

/-- A device address lies in a core's descriptor table (R169): the core and the offset in the table. -/
def descAt (a : Nat) : Option (CoreId × Nat) :=
  match blockOf a with
  | some (.core g, o) => if 0x4000 ≤ o then some (g, o - 0x4000) else none
  | _ => none
/-- The words in error that a host read of device addresses uses (R159, R163), with the core and the layout of the error. -/
def State.readErrors (s : State) (a n : Nat) : List (CoreId × Dword) :=
  let words := ((List.range n).map fun i => wordOf (a + i)).eraseDups.filter s.badWord
  words.filterMap fun x =>
    match memAt x, descAt x with
    | some (g, _), _ => some (g, s.parLayout g (x % 0x800000) 14 false false)
    | none, some (g, o) => some (g, BitVec.ofNat 64 (o + 2 ^ 30 * 3 + 2 ^ 32 * 14))
    | none, none => none
/-- Parity errors of a host read are counted and logged by its Treadle die (R163, R164). -/
def State.countRead (s : State) (td : Td) (l : List (CoreId × Dword)) : State :=
  l.foldl (fun s e => (s.ccount e.1 0x320 1).logTd td 0x3002 0 e.2) s
/-- A host read of device addresses performed at once: its completion, poisoned if a word fails (R31, R32, R163). -/
def State.hostReadNow (s : State) (td : Td) (fn : Fn) (off a n : Nat) : State :=
  let bads := (s.readErrors a n).filter fun e => s.coreAnswers e.1
  let data := match memAt a with
    | none => s.readRegs (reqOf td fn) a n
    | some _ => (List.range n).map fun i =>
      match memAt (a + i) with
      | some (g, _) => if s.coreAnswers g then s.byte (a + i) else 0
      | none => 0
  (s.countRead td bads).emit (.completion td fn (BitVec.ofNat 32 off) data (bads != []))
/-- The first running core whose window a request touches. -/
def State.servedBy (s : State) (a n : Nat) : Option CoreId :=
  ([a, a + (n - 1)].filterMap fun x =>
    match memAt x with
    | some (g, _) => if s.coreAnswers g && s.runs g then some g else none
    | none =>
      match blockOf x with
      | some (.core g, _) => if s.coreAnswers g && s.runs g then some g else none
      | _ => none).head?

/-- BAR0_MEMORY_READ (R30–R33, R342, R518): at once, or through the service slot of the running core it reaches. -/
def State.bar0Read (s : State) (td : Td) (fn : Fn) (off n : Nat) : State :=
  if !s.answers (.trd td) || n = 0 then s
  else match s.barAddr td fn off with
    | none => s.emit (.completion td fn (BitVec.ofNat 32 off) (List.replicate n 0) false)
    | some a =>
      match s.servedBy a n with
      | some g => s.modCore g fun c => { c with svc := c.svc ++ [.bar0 td fn (BitVec.ofNat 32 off) n [] false] }
      | none => s.hostReadNow td fn off a n

/-! ## Port SVC (R31, R33, R148) -/

/-- The bytes of a line that a service access uses: n of them from a beam offset on. -/
def span (off n : Nat) : Dword := maskOf ((List.range n).map fun i => (off % 64 + i, 0))
/-- The device address and the number of the bytes that the next access of a BAR0 read takes: at most to the end of a line (R33). -/
def State.nextRead (s : State) (td : Td) (fn : Fn) (off : Word) (n : Nat) (got : List Byte) : Option (Nat × Nat) :=
  (s.barAddr td fn off.toNat).map fun a =>
    (a + got.length, min (64 - (a + got.length) % 64) (n - got.length))
/-- One access of a BAR0 read of a core's memories has been performed: the completion, or the next line's access (R33, R163). -/
def State.lineRead (s : State) (g : CoreId) (td : Td) (fn : Fn) (off : Word) (n : Nat) (got : List Byte) (bad : Bool)
    (data : List Byte) (errs : List (CoreId × Dword)) : State :=
  let s1 := s.countRead td errs
  let got' := got ++ data
  let bad' := bad || errs != []
  if n ≤ got'.length then s1.emit (.completion td fn off got' bad')
  else s1.modCore g fun c => { c with svc := .bar0 td fn off n got' bad' :: c.svc }
/-- The beam offset and the length of the access that a beat at port SVC makes. -/
def State.portSpan (s : State) : SvcBeat → Option (Nat × Nat)
  | .overseer off rewrite => some (if rewrite then (64 * (off / 64), 64) else (off, 4))
  | .out td sp seq => (s.copying td sp seq).map Bolt.nextOut
  | .bar0 td fn off n got _ => (s.nextRead td fn off n got).map fun x => (x.1 % 0x800000, x.2)
  | .tally d n => s.tallyNext d n
  | _ => none
/-- The area of the system reserve that holds a beam offset (Table 14.11); 0 outside the reserve. -/
def reserveArea (off : Nat) : Nat :=
  if off < 0x7F0000 then 0 else if off < 0x7F1000 then 1 else if off < 0x7F8000 then 2 else 3
/-- The first offset of the area of a reserve word. -/
def areaStart (off : Nat) : Nat := [0, 0x7F0000, 0x7F1000, 0x7F8000].getD (reserveArea off) 0
/-- The Overseer reads a word of the reserve (R164, R469): one in error is counted and logged, and its area is to be rewritten; or it
rewrites a line of the area, with good parity, and the next line follows. -/
def State.overseerLine (s : State) (g : CoreId) (off : Nat) (rewrite : Bool) : State :=
  let next := fun (o : Nat) (s : State) => s.modCore g fun c => { c with svc := .overseer o true :: c.svc }
  if rewrite then
    let s1 := s.bankWrite g (off / 64) (BitVec.allOnes 64)
      (dataOf ((List.range 64).map fun i => (i, s.rawByte (beamBase g + 64 * (off / 64) + i)))) 0
    if reserveArea (off + 64) = reserveArea off ∧ off + 64 < 0x800000 then next (off + 64) s1 else s1
  else if s.badWord (beamBase g + wordOf off) then
    next (areaStart off) ((s.ccount g 0x320 1).logCore g 0x3003 (BitVec.ofNat 64 (wordOf off)))
  else s
/-- A beat at port SVC has its bank, or is answered by the store buffer: its access is performed (R31, R145, R148, R156). -/
def State.portAccess (s : State) (g : CoreId) (x : SvcBeat) (off n : Nat) : State :=
  let s0 := s.modCore g fun c => { c with svcPort := none }
  let data := (List.range n).map fun i => s.beamByte g (off + i)
  let bad := (s.readBad g (off / 64) (span off n)).map fun w => 64 * (off / 64) + 4 * w
  match x with
  | .overseer o rewrite => s0.overseerLine g o rewrite
  | .out td sp seq => (match s0.copying td sp seq with | some b => s0.copied td sp b data bad | none => s0)
  | .bar0 td fn a m got b => s0.lineRead g td fn a m got b data (bad.map fun o => (g, s.parLayout g o 14 false false))
  | .tally d m => s0.tallyLine g d m data bad
  | _ => s0
/-- The beat waits behind a drain: a host read of a carry region, or a read of a Tally pass (R30, R84, R466). -/
def State.behindDrain (s : State) (g : CoreId) (x : SvcBeat) (off : Nat) : Bool :=
  (match x with | .bar0 .. | .tally .. => true | _ => false) && s.carryBit g (off / 65536) && (s.core g).drainLeft.isSome
/-- Port SVC at the end of a clk (R30, R148): its beat is held behind a drain, or takes its bank in a clk in which no other access
wants that bank; a read that the store buffer answers takes none, and one that it covers in part waits (R156). -/
def State.svcClk (s : State) (g : CoreId) : State :=
  match (s.core g).svcPort with
  | none => s
  | some x =>
    match s.portSpan x with
    | none => s.modCore g fun c => { c with svcPort := none }
    | some (off, n) =>
      if s.behindDrain g x off then s.modCore g fun c => { c with svcPort := none, heldReads := c.heldReads ++ [x] }
      else match (s.core g).sbAnswer (off / 64) (span off n) with
        | .wait => s
        | .forward _ => s.portAccess g x off n
        | .bank => if ((s.stopRuns g).beginSteps g).1.svcFree g (bankOf (off / 64)) then s.portAccess g x off n else s

/-- BAR0_READ_RELEASE (R30): once the drain has ended the oldest held read goes on at port SVC. -/
def State.bar0Release (s : State) (g : CoreId) : State :=
  let c := s.core g
  match c.heldReads with
  | [] => s
  | x :: t => if c.drainLeft.isSome || c.svcPort.isSome then s else s.modCore g fun c => { c with heldReads := t, svcPort := some x }

/-- A host write of bytes of core memories (R29, R32, R33, R168): each line in turn; the answer says whether a byte was
discarded and is to be counted. -/
def State.memWrite (s : State) (l : List (Nat × Byte)) : State × Bool :=
  (groupLines l).foldl (fun (acc : State × Bool) e =>
    let s := acc.1
    match memAt (64 * e.1) with
    | none => acc
    | some (g, kind) =>
      if !s.coreAnswers g then acc
      else if s.runs g || (kind == 0 && inReserve (64 * e.1)) then (s, true)
      else if kind = 0 then
        let line := 64 * e.1 % 0x800000 / 64
        (((s.modCore g fun c => { c with
          sbuf := c.sbuf ++ [{ line := line, mask := maskOf e.2, data := dataOf e.2 }] }).drainLine g line), acc.2)
      else (e.2.foldl (fun s x => s.hostBytes (64 * e.1 + x.1) [x.2]) s, acc.2)) (s, false)

/-! ## The service slot -/

/-- Rank of a service beat (R27, R464): Overseer, bolts and copies by SEQ, host, Tally passes. -/
def SvcBeat.rank : SvcBeat → Nat
  | .overseer _ _ => 0
  | .land _ _ seq _ _ => 1 + seq.toNat
  | .out _ _ seq => 1 + seq.toNat
  | .bar0 .. | .reg .. => 2 ^ 65
  | .tally .. => 2 ^ 65 + 1
/-- The next service beat of the landing queue: the first of least rank. SEQ counts in one spool, and R27 does not say how two
spools' bolts compare: SEQ is compared across spools and dies, and of equal ones the beat queued first goes first (DESIGN CHOICE,
log entry 44). -/
def nextSvc (l : List SvcBeat) : Option SvcBeat := leastBy SvcBeat.rank l

/-- A payload beat enters the fell buffer (R40, R70–R73, R278); with its last byte the bolt has landed (R77). -/
def State.serveLand (s : State) (g : CoreId) (td : Td) (sp : SpoolId) (seq : Dword) (off : Nat) (l : List Byte) : State :=
  if (s.core g).captured then s.captureDiscard g
  else
    let pairs := ((List.range l.length).zip l).map fun e => (off + e.1, e.2)
    let s1 := (fellLines pairs (.bolt td sp seq)).foldl (fun s x => s.stageLine g x) s
    match (s1.spool td sp).bolts.find? fun b => b.hdr.seq == seq && b.phase == .started with
    | none => s1
    | some b => s1.modBolt td sp b.num fun y => { y with
        staged := y.staged + l.length
        phase := if y.staged + l.length = y.hdr.len.toNat then .landed else y.phase }

/-- BAR0_MEMORY_READ. -/
def execBar0MemoryRead (td : Td) (fn : Fn) (addr : Word) (len : Nat) (s : State) : Host.Outcome State Fault Refusal :=
  .next (s.bar0Read td fn addr.toNat len)
/-- BAR0_READ_RELEASE. -/
def execBar0ReadRelease (g : CoreId) (s : State) : Host.Outcome State Fault Refusal := .next (s.bar0Release g)

end Sys2Proof.Machine
end

