-- ==== Sys2Proof/Machine/Vote.lean ====
section
/-! DEFINITION. The fell (02 §2.6–§2.10): the weft counter, who is late, the ledger check (09 §9.9), the vote and its tree
(12 §12.10), commit with its drains, drop with its squash and report, and a fell left unresolved. -/

namespace Sys2Proof.Machine

/-! ## The weft counter (R45–R48) -/

/-- The weft counter set. -/
def State.setWeft (s : State) (n : Nat) : State := s.setReg (hdl 0x00) (BitVec.ofNat 64 n)
/-- The vote logic changed. -/
def State.modHeddle (s : State) (f : Heddle → Heddle) : State := { s with heddle := f s.heddle }
/-- What is being slewed away: the error of a lost reference first, then the offset from the upstream package while discipline is
enabled (R48, R408; their order is a DESIGN CHOICE, log entry 51). -/
def State.slewNext (s : State) : Int :=
  let cfg := s.getReg (hdl 0x110)
  if s.heddle.slewOwed ≠ 0 then s.heddle.slewOwed else if bit cfg 8 && !bit cfg 0 then s.heddle.timeOwed else 0
/-- One ns of the weft PLL (R45, R46): the counter advances by 1, or by 0 or 2 where a slew is owed and none fell in the last
65,536 ns. -/
def State.weftNs (s : State) : State :=
  let w := s.weft
  let owed := s.slewNext
  if s.heddle.slewWait = 0 ∧ owed ≠ 0 then
    let d : Int := if 0 < owed then 1 else -1
    (s.setWeft (if 0 < owed then (w + 2) % 2 ^ 64 else w)).modHeddle fun h =>
      if h.slewOwed = 0 then { h with timeOwed := h.timeOwed - d, slewWait := 65535 }
      else { h with slewOwed := h.slewOwed - d, slewWait := 65535 }
  else (s.setWeft ((w + 1) % 2 ^ 64)).modHeddle fun h => { h with slewWait := h.slewWait - 1 }
/-- WEFT_REF_LOST (R48). -/
def State.refLost (s : State) : State :=
  if s.heddle.refLost then s
  else
    ((s.modReg (hdl 0x10) fun v => putBit (putBit v 0 false) 1 true).modHeddle fun h => { h with refLost := true }).logHdl
      0x6801 0 0
/-- WEFT_REF_RETURN (R48): the error is slewed away. -/
def State.refReturn (s : State) (err : Int) : State :=
  if !s.heddle.refLost then s
  else
    ((s.modReg (hdl 0x10) fun v => putBit v 0 true).modHeddle fun h =>
      { h with refLost := false, slewOwed := h.slewOwed + err }).logHdl 0x6002 0 0

/-! ## Instants of a pick (R51, R528) -/

/-- The weft instant at which pick k starts. The spec does not say how an instant beyond 2^64 compares with the counter, which wraps:
instants do not wrap here, so that after the wrap of the counter no window opens and no pick starts (DESIGN CHOICE, log entry
47). -/
def State.pickInstant (s : State) (k : Nat) : Nat := (s.getReg (hdl 0x30)).toNat + k * s.period * 1000
/-- The end of the pick in progress: the start of the next. -/
def State.pickEndAt (s : State) : Nat := s.pickInstant s.heddle.k
/-- The opening of its fell window. -/
def State.windowAt (s : State) : Nat := s.pickEndAt - s.winLen

/-! ## Voters (R75–R79) -/

/-- The card-store offset of a core's oldest unretired card (R89): of a prologue load in flight whose card has not issued, which counts
as issued (R129), of a card that has issued, or of the next card. -/
def State.oldestCard (s : State) (g : CoreId) : Nat :=
  let c := s.core g
  let live := c.live ++ (c.proLoads.filter fun t => !t.pro).map fun t => (t.step, t.card)
  match leastBy (fun (x : Nat × Nat) => x.1) live, c.window with
  | some x, _ => 64 * x.2
  | none, i :: _ => 64 * i.card
  | none, [] => 64 * c.front.idx
/-- A core is done (R76): ENDPICK has found it so, or what it has made by the end of this clk makes it so. -/
def State.coreDone (s : State) (g : CoreId) : Bool :=
  (s.core g).done || (s.inDeck g && (let c := (s.coreClk g).core g; !c.dead && c.deckDone s.now))
/-- The causes a core gives for not being done: noted ones, a halt, or lateness (R76, R88, R93). In a pick that starts with a fell
unresolved it runs no deck and gives none, be it halted or not: R93 and R94 name a cause each for such a pick (DESIGN CHOICE, log
entry 49). -/
def State.coreLate (s : State) (g : CoreId) : List Nat :=
  let c := s.core g
  if s.heddle.unresolvedDue || !c.run then []
  else if s.halted g then [0x06]
  else if c.captured || !s.coreDone g then [0x0B] else []
/-- Everything that keeps a voter of the package from being done: cause and voter (Table 2.3, R75–R78, R94). With UNRESOLVED the spec
names no voter: it is the Overseer, and no voter counts as late for it (DESIGN CHOICE, log entry 49). -/
def State.lateVoters (s : State) : List (Nat × Nat) :=
  let noted := s.heddle.causes.map fun x => (x.code.toNat, x.voter.toNat)
  let cores := s.running.flatMap fun g => (s.coreLate g).map fun c => (c, g.toNat)
  let tds := (([0, 1] : List Td).filter fun td => (s.lateBolt td).isSome).map fun td => (0x0A, 0x108 + td.val)
  let sds := (([0, 1, 2, 3] : List Sd).filterMap fun n => (s.sd n).causeNow.map fun c => (c.toNat, 0x101 + n.val))
  let ovs := if s.overseer.faultNow || s.overseer.resync then [(0x01, 0x100)] else []
  let unr := if s.heddle.unresolvedDue then [(0x0C, 0x100)] else []
  (noted ++ cores ++ tds ++ sds ++ ovs ++ unr).eraseDups
/-- Place of a voter in the order of R88. -/
def voterRank (v : Nat) : Nat := if v = 0x100 then 0 else if v < 0x100 then 0x200 + v else v
/-- The cause and voter a package names: the lowest code, then the first voter (R88). -/
def namedVoter (l : List (Nat × Nat)) : Option (Nat × Nat) := leastBy (fun x => x.1 * 2 ^ 12 + voterRank x.2) l
/-- Late voters of a package, UNRESOLVED apart. -/
def lateCount (l : List (Nat × Nat)) : Nat := ((l.filter fun x => x.1 != 0x0C).map (·.2)).eraseDups.length

/-! ## Ledgers (R307–R310) -/

/-- A failed ledger: code, WHERE, INDEX, DIFF. -/
structure LedgerFail where
  code : Nat
  place : Nat
  index : Nat
  diff : Int
deriving DecidableEq, Repr

/-- The routes through a port are down (R307, R402). -/
def State.routesDown (s : State) (p : PortId) : Bool :=
  let lo := slv (sdOf p) 0x10000
  s.regs.any fun e => lo ≤ e.1 && e.1 < lo + 0x2000 && bit e.2 0 && bit e.2 3 && fld e.2 6 4 == p.val % 6
/-- Ledger 1: credits and flits of each port and channel. -/
def State.ledger1 (s : State) : List LedgerFail :=
  (List.range 48).filterMap fun i =>
    let p : PortId := Fin.ofNat 24 (i / 2)
    let x := s.port p
    let d : Int := if i % 2 = 0 then (x.cred0 + x.sent0 : Nat) - (x.alloc0 : Int) else (x.cred1 + x.sent1 : Nat) - (x.alloc1 : Int)
    if fld (s.getReg (portReg p 4)) 2 0 = 5 ∧ d ≠ 0 ∧ !s.routesDown p then
      some { code := 1, place := i / 2, index := i % 2, diff := d } else none
/-- Ledger 2: the valid knot pairs of dies that are on (R307–R309). -/
def State.ledger2 (s : State) : List LedgerFail :=
  (List.range 256).filterMap fun n =>
    let v := s.getReg (hdl (0x800 + 8 * n))
    let ga : CoreId := BitVec.ofNat 8 (fld v 7 0)
    let gb : CoreId := BitVec.ofNat 8 (fld v 25 18)
    let d := unsigned 32 ((s.knot ga (fld v 17 8) : Int) - s.knot gb (fld v 35 26) - signed 27 (fld v 62 36))
    if bit v 63 ∧ s.dieOn (ga.toNat / 8) ∧ s.dieOn (gb.toNat / 8) ∧ d ≠ 0 then
      some { code := 2, place := n, index := 0, diff := d } else none
/-- Ledger 3: the knot signals that carry this pick's number. -/
def State.ledger3 (s : State) : List LedgerFail :=
  let sent := sget (fun _ => 0) s.heddle.sigSent s.pickBits.toNat
  let appl := sget (fun _ => 0) s.heddle.sigApplied s.pickBits.toNat
  if sent = appl then [] else [{ code := 3, place := 0, index := 0, diff := (sent : Int) - appl }]
/-- Ledger 4: tracker entries in use, those of the next pick's prologue apart (R128). -/
def State.ledger4 (s : State) : List LedgerFail :=
  s.cores.filterMap fun e =>
    let n := (e.2.transfers.filter fun x => !x.2.pro).length
    if n = 0 then none else some { code := 4, place := e.1, index := 0, diff := n }
/-- Ledger 5: the lines that each slice of a fell buffer holds, and those that the sources count. -/
def State.ledger5 (s : State) : List LedgerFail :=
  s.cores.flatMap fun e => (List.range 32).filterMap fun b =>
    let d : Int := (e.2.fell.countP fun x => bankOf x.line == b : Nat) - (sget (fun _ => 0) e.2.fellAlloc b : Nat)
    if d = 0 then none else some { code := 5, place := e.1, index := b, diff := d }
/-- Ledger 6: fetched less completed bolts against those held, and the high-water mark against the last bolt executed. -/
def State.ledger6 (s : State) : List LedgerFail :=
  allSpools.flatMap fun sp => ([0, 1] : List Td).filterMap fun td =>
    let x := s.spool td sp
    let d1 : Int := (sub32 (s.sreg td sp 0x30) x.completed.toNat : Int) - x.bolts.length
    let d : Int := if d1 ≠ 0 then d1 else (s.sreg td sp 0x28 : Int) - x.last.toNat
    if d = 0 then none else some { code := 6, place := sp.val, index := td.val, diff := d }
/-- Every ledger that does not balance, in the order of R310 (Table 9.6). -/
def State.ledgerFails (s : State) : List LedgerFail :=
  s.ledger1 ++ s.ledger2 ++ s.ledger3 ++ s.ledger4 ++ s.ledger5 ++ s.ledger6
/-- HDL_LEDGER_FAIL's layout. -/
def LedgerFail.word (f : LedgerFail) : Dword :=
  BitVec.ofNat 64 (f.code + 2 ^ 4 * (f.place % 2 ^ 10) + 2 ^ 16 * (f.index % 2 ^ 16) + 2 ^ 32 * unsigned 32 f.diff)

/-! ## The vote tree (Table 12.8) -/

/-- Packages of the domain. -/
def State.domainCount (s : State) : Nat := fld (s.getReg (hdl 0x100)) 20 10
/-- This package is the vote root; that of a domain of one package is its own (R80). -/
def State.isRoot (s : State) : Bool := bit (s.getReg (hdl 0x108)) 0 || s.domainCount ≤ 1
/-- The port toward the root. -/
def State.upPort (s : State) : PortId := Fin.ofNat 24 (fld (s.getReg (hdl 0x108)) 5 1)
/-- The ports toward the children. -/
def State.children (s : State) : List PortId :=
  ((List.range 24).filter fun p => bit (s.getReg (hdl 0x108)) (16 + p)).map (Fin.ofNat 24)
/-- A control record queued on a port. -/
def State.sendCtrl (s : State) (p : PortId) (body : List Byte) : State :=
  s.setPort p { s.port p with ctrlOut := (s.port p).ctrlOut ++ [body] }
/-- A record to every child. -/
def State.toChildren (s : State) (body : List Byte) : State := s.children.foldl (fun s p => s.sendCtrl p body) s
/-- The LATE vote that a record of the pick in progress carries. -/
def State.lateVote (s : State) (b : List Byte) : Option DropWho :=
  if leAt b 0 1 = 3 ∧ leAt b 1 6 = s.pickId.toNat then
    some { code := BitVec.ofNat 8 (leAt b 7 1), pkg := BitVec.ofNat 10 (leAt b 8 2), voter := BitVec.ofNat 10 (leAt b 10 2) }
  else none
/-- The LATE votes that wait on the ports of the children. -/
def State.lateHeld (s : State) : List DropWho := s.children.flatMap fun p => (s.port p).ctrlIn.filterMap s.lateVote
/-- The cause that the root names (R88): the lowest code, then the lowest package. -/
def leastDrop (w : DropWho) (l : List DropWho) : DropWho :=
  l.foldl (fun a b => if b.code.toNat * 2 ^ 10 + b.pkg.toNat < a.code.toNat * 2 ^ 10 + a.pkg.toNat then b else a) w
/-- A LATE record of the pick in progress. -/
def State.lateRec (s : State) (w : DropWho) : List Byte :=
  leBytes 1 3 ++ leBytes 6 s.pickId.toNat ++ leBytes 1 w.code.toNat ++ leBytes 2 w.pkg.toNat ++ leBytes 2 w.voter.toNat
/-- A DECISION record of the pick in progress: outcome 1 COMMIT, 2 DROP. -/
def State.decisionRec (s : State) (outcome : Nat) (w : DropWho) (x : BitVec 256) : List Byte :=
  leBytes 1 4 ++ leBytes 6 s.pickId.toNat ++ leBytes 1 outcome ++ leBytes 1 w.code.toNat ++ leBytes 2 w.pkg.toNat ++
    leBytes 2 w.voter.toNat ++ digestBytes x
/-- A bitmap of packages, 128 bytes. -/
def pkgBitmap (l : List Nat) : List Byte := leBytes 128 (l.foldl (fun n p => n ||| 2 ^ p) 0)
/-- The packages of a bitmap. -/
def bitmapPkgs (l : List Byte) : List Nat :=
  let n := leNat l
  (List.range 1024).filter fun p => n / 2 ^ p % 2 == 1

/-! ## Commit (R83–R85) -/

/-- Every core with micro-state. -/
def State.listed (s : State) : List CoreId := s.cores.map fun e => BitVec.ofNat 8 e.1
/-- Lines in a core's fullest slice (R83). -/
def fullest (l : List FellLine) : Nat := (List.range 32).foldl (fun m b => max m (l.countP fun x => bankOf x.line == b)) 0
/-- A run of the program is under way (R274). -/
def State.inRun (s : State) : Bool := s.progState == 2 || s.progState == 3

/-- The lines of a fell buffer begin to drain (R83): n + 16 clk, this one included. -/
def Core.drainFrom (c : Core) (l : List FellLine) : Core := { c with drainFell := l, drainLeft := some (fullest l + 16) }
/-- Messages left in the receive-ends of a core (R303). -/
def Core.residue (c : Core) : Nat := (c.recv.map fun e => e.2.slots.length).sum
/-- A run that a card of the pick has begun. -/
def Run.ofDeck (r : Run) : Bool := match r.owner with | .cmd .. | .send _ | .recv _ => true | _ => false
/-- What is empty at a core once its pick is decided (Table 2.1): engines, the weave array, gather buffers, Carder tables, channels; a
fault that was met in the pick is past. -/
def Core.pickDone (c : Core) : Core :=
  { c with
    dead := false, gather := [], badBuf := [], runs := c.runs.filter (fun r => !r.ofDeck), weave := c.weave.emptied, t0 := {}, t1 := {}
    fell := [], fellAlloc := [], recv := [], send := [], popped := [], claimed := [] }
/-- COMMIT at one core: its drain begins, its receive-ends are counted and emptied (R83, R203, R255, R303). -/
def State.commitCore (s : State) (g : CoreId) : State :=
  (s.ccount g 0x704 (s.core g).residue).modCore g fun c =>
    { c.pickDone.drainFrom c.fell with front := { c.front with run := c.specRun } }

/-- COMMIT is applied (R83–R85, R274). -/
def State.commit (s : State) (x : BitVec 256) : State :=
  let s1 := (s.setReg (hdl 0x58) (BitVec.ofNat 64 (s.pickId.toNat + 2 ^ 48))).modReg (hdl 0x50) fun v => v + 1
  let s2 := s1.modHeddle fun h =>
    { h with decided := true, committed := true, held := false, drainPick := s.pickId.toNat }
  let s3 := s2.workingCores.foldl (fun s g => s.commitCore g) s2
  if s.inRun then s3.histAdd 1 x else s3

/-- The selection point of a core is reached (R124); while a fell is unresolved the core runs no deck (R94). -/
def State.selectDue (s : State) (g : CoreId) : State :=
  s.modCore g fun c => if c.run && !c.captured && !s.heddle.unresolved then { c with sel := .due } else c

/-- The drain of a core ends (R83, R30, R124, R357); lines that have not drained yet are written. -/
def State.finishDrain (s : State) (g : CoreId) : State :=
  (((((s.core g).drainFell.foldl (fun s x => s.drainLineOf g x) s).modCore g fun c =>
    { c with drainFell := [], drainLeft := none }).fellUse g).boltsLanded g).selectDue g
/-- DRAIN_END (R83): the n + 16 clk of the drain have passed. -/
def State.drainEnd (s : State) (g : CoreId) : State :=
  if (s.core g).drainLeft = some 0 then s.finishDrain g else s

/-! ## Drop (R86–R93) -/

/-- The squash of one core (R86, Table 2.1, R278, R530, R532). Its front end stays at its oldest unretired card, which a
halted core names in later picks too (R89). -/
def State.squashCore (s : State) (g : CoreId) : State :=
  let c := s.core g
  let s1 := (c.transfers.filter fun x => !x.2.pro).foldl (fun s x => s.freeTrk g x.1) s
  let s2 := s1.modCore g fun c =>
    { c.pickDone with
      front := if c.captured || c.specRun then c.front
        else { c.front with run := false, fetched := none, loopCard := none, idx := s.oldestCard g / 64 }
      window := if c.captured || c.specRun then c.window else []
      cmds := []
      gone := []
      live := []
      stepInst := none
      sbuf := if c.captured then c.sbuf else []
      knotQueue := c.knotQueue.filter fun y => y.pro || y.pick != s.pickBits
      meshOut := c.meshOut.filter fun b => (match b.body with | .message _ => false | _ => true) && s1.beatLive b.body
      remoteOut := c.remoteOut.filter fun b => s1.remoteLive b.body
      squashing := true }
  if (s2.core g).specRun then
    s2.undoStart g { (s2.core g).front with run := false, fetched := none, loopCard := none } (s2.core g).nextVariant
  else s2
/-- A core at the drop of a pick. In one that started with a fell unresolved it has run no deck; where that fell has been resolved since,
what the core prepares for the next pick stands (R94, R96). -/
def State.dropCore (s : State) (g : CoreId) : State :=
  if s.heddle.unresolvedDue && !s.heddle.unresolved then s.modCore g fun c => { c with fell := [], fellAlloc := [] }
  else s.squashCore g

/-- Every knot and cursor returns to a snapshot (R86, R291). -/
def State.restoreKnots (s : State) (snap : List (Nat × Dword)) : State :=
  let knotKey := fun (a : Nat) => match blockOf a with | some (.core _, o) => 0x2000 ≤ o && o < 0x4000 | _ => false
  let s1 := { s with regs := sdrop knotKey s.regs }
  snap.foldl (fun s e => (s.setReg e.1 e.2).setReg (e.1 + 0x1000) e.2) s1

/-- HDL_DROP_WHO's layout (R89). -/
def dropWho (pkg voter late card : Nat) : Nat :=
  pkg % 2 ^ 10 + 2 ^ 10 * (voter % 2 ^ 10) + 2 ^ 20 * min late 511 + 2 ^ 32 * (card % 2 ^ 19)

/-- PICK_DROP of a pick, which its entry names (Table 14.4). -/
def State.logDrop (s : State) (id : Nat) (data : Dword) : State :=
  let l := s.log 38
  let e : Event := ⟨s.getReg 0xC2000000, 0x1001, 0x10B, BitVec.ofNat 32 id, BitVec.ofNat 16 (id / 2 ^ 32), 0, data⟩
  s.setLog 38 { l with now := l.now ++ [e] }
/-- The registers, event and report of a drop (R89, R90). -/
def State.reportFell (s : State) (id code pkg voter late card step : Nat) (bolt : Option (Td × Nat × Dword)) : State :=
  let who := dropWho pkg voter late card
  let s1 := (((s.count (hdl 0x48) 1).setReg (hdl 0x68) (BitVec.ofNat 64 (id + 2 ^ 48 * code))).setReg (hdl 0x70)
    (BitVec.ofNat 64 who)).setReg (hdl 0x78) (BitVec.ofNat 64 step)
  (s1.logDrop id (BitVec.ofNat 64 (who + 2 ^ 56 * code))).reportDrop bolt

/-- The pick is dropped (R86–R91, R274). HDL_FELL_LAST keeps an unresolved fell (R94, R97). -/
def State.drop (s : State) (code pkg voter late card step : Nat) : State :=
  let bolt : Option (Td × Nat × Dword) :=
    if code = 0x0A then (s.lateBolt (if voter = 0x109 then 1 else 0)).map fun b => (if voter = 0x109 then 1 else 0, b)
    else none
  let s1 := if s.heddle.unresolved then s else s.setReg (hdl 0x58) (BitVec.ofNat 64 (s.pickId.toNat + 2 ^ 49))
  let s2 := s1.reportFell s.pickId.toNat code pkg voter late card step bolt
  let s3 := s2.boltsDropped.modHeddle fun h => { h with decided := true, committed := false, held := false, vote := .late }
  let s4 := s3.listed.foldl (fun s g => s.dropCore g) s3
  let s5 := s4.restoreKnots s4.heddle.knotSnap
  if s.inRun then s5.histAdd 2 0 else s5

/-- SQUASH_END (R86, R124, R130): with any undo, which is part of the squash, ended, the core reaches its selection point. -/
def State.squashEnd (s : State) (g : CoreId) : State :=
  if (s.core g).squashing && (s.core g).undo.isNone then (s.modCore g fun c => { c with squashing := false }).selectDue g else s

/-! ## Votes and decisions -/

/-- A package that votes LATE (R79, R88, R413): its vote goes up, its decision to its children, and it drops the pick. The root's
decision names the least of the LATE votes it holds. -/
def State.sendLate (s : State) (code voter late card step : Nat) : State :=
  let w : DropWho := { code := BitVec.ofNat 8 code, pkg := BitVec.ofNat 10 s.pkg, voter := BitVec.ofNat 10 voter }
  let s1 := if s.domainCount ≤ 1 then s
    else
      let s0 := if s.isRoot then s else s.sendCtrl s.upPort (s.lateRec w)
      s0.toChildren (s.decisionRec 2 (if s.isRoot then leastDrop w s.lateHeld else w) 0)
  s1.drop code s.pkg voter late card step

/-- The late voters make the package send LATE (R79, R88, R89). -/
def State.voteLate (s : State) : State :=
  let l := s.lateVoters
  match namedVoter l with
  | none => s
  | some (code, v) =>
    if v < 0x100 then
      s.sendLate code v (lateCount l) (s.oldestCard (BitVec.ofNat 8 v)) (s.creg (BitVec.ofNat 8 v) 0x108).toNat
    else s.sendLate code v (lateCount l) 0 0

/-- COMMIT decided: applied in the fell window, held until it opens (R82, R83). An Overseer in resync applies none (R451). -/
def State.decideCommit (s : State) (x : BitVec 256) : State :=
  if s.overseer.resync then s
  else if s.heddle.phase == .window then s.commit x
  else s.modHeddle fun h => { h with held := true, readyX := x }

/-- READY of this package and its subtree (R80, R412): sent up, or the root's decision once every package is present. -/
def State.tryReady (s : State) : State :=
  let h := s.heddle
  let x := h.childReady.foldl (fun a c => a ^^^ c.x) h.xPick
  let pkgs := (s.pkg :: h.childReady.flatMap (·.pkgs)).eraseDups
  if h.vote != .ready || h.decided || h.held || s.overseer.resync then s
  else if s.isRoot then
    (if s.domainCount ≤ pkgs.length then
      let w : DropWho := { code := 0, pkg := 0, voter := 0 }
      let s1 := if s.domainCount ≤ 1 then s else s.toChildren (s.decisionRec 1 w x)
      s1.decideCommit x
    else s)
  else if s.children.all fun p => h.childReady.any fun c => c.port == p then
    s.sendCtrl s.upPort (leBytes 1 2 ++ leBytes 6 s.pickId.toNat ++ digestBytes x ++ pkgBitmap pkgs)
  else s

/-- Every voter is done, or was when the fell window opened (R79). -/
def State.allDone (s : State) : Bool :=
  if s.heddle.phase = .window then s.heddle.onTime else s.heddle.phase == .issuing && s.lateVoters == []
/-- LEDGER_CHECK_DONE (R79, R307, R310): with every voter done, READY, or LATE with LEDGER_MISMATCH. -/
def State.ledgerCheck (s : State) : State :=
  let h := s.heddle
  let digests := ([0, 1] : List Td).all fun td =>
    (s.boltsOf td fun b => b.phase == .landed && s.curPick == some b.hdr.pickId && b.digest.isNone).isEmpty
  if h.vote != .none || !s.allDone || !digests then s
  else match s.ledgerFails with
    | [] => (s.modHeddle fun h => { h with vote := .ready }).tryReady
    | f :: more =>
      let s1 := (s.setReg (hdl 0x300) f.word).count (hdl 0x308) 1
      (s1.logOvs 0xB001 (min (more.length + 1) 0xFFFF) f.word).sendLate 0x02 0x100 0 0 0

/-- FELL_WINDOW_OPEN (R43, R79, R82, R466, R528). -/
def State.windowOpen (s : State) : State :=
  if s.heddle.phase != .issuing || s.weft < s.windowAt then s
  else
    let s1 := ((s.modHeddle fun h => { h with phase := .window, winClk := 0 }).outsLate).tallyWindow
    match s1.heddle.vote with
    | .none => if s1.lateVoters = [] then s1.modHeddle fun h => { h with onTime := true } else s1.voteLate
    | .ready => if s1.heddle.held && !s1.heddle.decided then s1.commit s1.heddle.readyX else s1
    | .late => s1

/-- X of a pick that this package leaves unresolved (R273, R274): the root's, if every package is ready; else a free value, since the
decision that carries it has not arrived (log entry 50). -/
def State.xOf (s : State) : BitVec 256 :=
  let pkgs := (s.pkg :: s.heddle.childReady.flatMap (·.pkgs)).eraseDups
  if s.isRoot && s.domainCount ≤ pkgs.length then s.heddle.childReady.foldl (fun a c => a ^^^ c.x) s.heddle.xPick
  else Config.freeDigest s.free
/-- The fell becomes unresolved (R94): nothing drains or is discarded. -/
def State.unresolve (s : State) : State :=
  let last : Dword := BitVec.ofNat 64 (s.pickId.toNat + 2 ^ 48 * 3)
  let s1 := (((s.setReg (hdl 0x58) last).logHdl 0x1802 0 last).modHeddle fun h =>
    { h with unresolved := true, decided := true, committed := true, heldSnap := h.knotSnap, heldX := s.xOf }).nextFree
  let s2 := s1.listed.foldl (fun s g =>
    let s0 := s.modCore g fun c => { c with
      heldFell := c.fell, heldResidue := c.residue, fell := [], fellAlloc := [], front := { c.front with run := false } }
    if (s0.core g).specRun then s0.undoStart g (s0.core g).front 0 else s0) s1
  if s.inRun then s2.histAdd 0 0 else s2

/-- DECISION_DEADLINE (R80, R94, R412): the root drops for a missing vote, another package is left unresolved. R412 names the package
of a missing vote and no voter: the DECISION and HDL_DROP_WHO carry voter 0 (DESIGN CHOICE, log entry 48). -/
def State.decisionDeadline (s : State) : State :=
  let h := s.heddle
  if h.phase != .window || h.decided || h.vote != .ready || s.overseer.resync || s.weft < s.windowAt + s.deadline then s
  else if s.isRoot then
    let have' := s.pkg :: h.childReady.flatMap (·.pkgs)
    let absent := ((List.range 1024).find? fun p => !have'.contains p).getD 0
    let w : DropWho := { code := 0x0D, pkg := BitVec.ofNat 10 absent, voter := 0 }
    (s.toChildren (s.decisionRec 2 w 0)).drop 0x0D absent 0 0 0 0
  else s.unresolve

/-- The first control record of a kind waiting on a port, and the state without it. -/
def State.takeCtrl (s : State) (p : PortId) (kind : Nat) : Option (List Byte × State) :=
  match (s.port p).ctrlIn with
  | b :: t => if leAt b 0 1 = kind then some (b, s.setPort p { s.port p with ctrlIn := t }) else none
  | [] => none

/-- READY_RECORD (R412). -/
def State.readyRecord (s : State) (p : PortId) : State :=
  match s.takeCtrl p 2 with
  | none => s
  | some (b, s1) =>
    if leAt b 1 6 = s.pickId.toNat ∧ s.curPick.isSome ∧ s.children.contains p ∧
        !(s.heddle.childReady.any fun c => c.port == p) then
      (s1.modHeddle fun h => { h with childReady := h.childReady ++
        [{ port := p, x := digestWord (slice b 7 32), pkgs := bitmapPkgs (slice b 39 128) }] }).tryReady
    else s1

/-- LATE_RECORD (R80, R88, R413): forwarded, or, at the root, the drop for the least of the LATE votes it holds. -/
def State.lateRecord (s : State) (p : PortId) : State :=
  match s.takeCtrl p 3 with
  | none => s
  | some (b, s1) =>
    if !s.isRoot then s1.sendCtrl s.upPort b
    else match s.lateVote b with
      | some x =>
        if s.curPick.isSome ∧ !s.heddle.decided then
          let w := leastDrop x s1.lateHeld
          (s1.toChildren (s.decisionRec 2 w 0)).drop 0x0E w.pkg.toNat w.voter.toNat 0 0 0
        else s1
      | none => s1

/-- DECISION_RECORD (R83, R86, R88, R414). A DROP is recorded as REMOTE_DROP with the package and voter that it names, also where it
names this package, whose vote did not reach the root (DESIGN CHOICE, log entry 48); the count, the card offset and the step are 0
(R526). -/
def State.decisionRecord (s : State) (p : PortId) : State :=
  match s.takeCtrl p 4 with
  | none => s
  | some (b, s1) =>
    let s2 := s1.toChildren b
    if leAt b 1 6 ≠ s.pickId.toNat ∨ s.curPick.isNone ∨ s.heddle.decided then s2
    else if leAt b 7 1 = 1 then (if s.heddle.vote == .ready then s2.decideCommit (digestWord (slice b 13 32)) else s2)
    else if s.overseer.resync then s2
    else s2.drop 0x0E (leAt b 9 2) (leAt b 11 2) 0 0 0

/-- The bolts that landed in an unresolved pick are dropped with it (R91, R357). -/
def State.resolveBolts (s : State) (id : Nat) : State :=
  ([0, 1] : List Td).foldl (fun s td =>
    (s.boltsOf td fun b => b.hdr.lands && b.phase == .landed && b.hdr.pickId == id).foldl (fun s x =>
      s.finishBolt td x.1 x.2 3) s) s
/-- The record of the unresolved pick takes its outcome (R274). -/
def State.resolveHist (s : State) (out : Nat) : State :=
  { s with temple := { s.temple with histQueue := s.temple.histQueue.map fun (r : HistRec) =>
    if r.outcome == 0 then { r with outcome := BitVec.ofNat 8 out, x := if out = 1 then s.heddle.heldX else 0 } else r } }
/-- An unresolved fell is taken (R83, R96, R303): every core drains what it held. -/
def State.resolveCommit (s : State) (id : Nat) : State :=
  let s1 := (s.modReg (hdl 0x50) fun v => v + 1).modHeddle fun h => { h with drainPick := id }
  s1.workingCores.foldl (fun s g =>
    (s.ccount g 0x704 (s.core g).heldResidue).modCore g fun c => { c.drainFrom c.heldFell with heldFell := [], heldResidue := 0 }) s1
/-- An unresolved fell is dropped (R86, R89, R96). The spec names no cause, voter or count for its records: they carry UNRESOLVED, the
Overseer and 0 (DESIGN CHOICE, log entry 49). -/
def State.resolveDrop (s : State) (id : Nat) : State :=
  let s1 := ((s.resolveBolts id).restoreKnots s.heddle.heldSnap).modHeddle fun h => { h with knotSnap := h.heldSnap }
  let s2 := s1.listed.foldl (fun s g => s.modCore g fun c =>
    { c with heldFell := [], heldResidue := 0, sbuf := if c.captured then c.sbuf else [], squashing := c.run }) s1
  s2.reportFell id 0x0C s.pkg 0x100 0 0 0 none
/-- FELL_RESOLVE (R96, R97): the outcome is applied at once. -/
def State.fellResolve (s : State) (val : Dword) : State :=
  let last := s.getReg (hdl 0x58)
  let id := fld last 47 0
  let out := fld val 49 48
  if !s.answers .hdl || fld last 49 48 != 3 || fld val 47 0 != id || !(out == 1 || out == 2) then s
  else
    let s1 := ((s.setReg (hdl 0x58) (BitVec.ofNat 64 (id + 2 ^ 48 * out))).modHeddle fun h =>
      { h with unresolved := false }).resolveHist out
    (if out = 1 then s1.resolveCommit id else s1.resolveDrop id).logHdl 0x0004 0 (BitVec.ofNat 64 (id + 2 ^ 48 * out))

/-- WEFT_REF_LOST. -/
def execWeftRefLost (s : State) : Host.Outcome State Fault Refusal := .next s.refLost
/-- WEFT_REF_RETURN. -/
def execWeftRefReturn (err : Int) (s : State) : Host.Outcome State Fault Refusal := .next (s.refReturn err)
/-- LEDGER_CHECK_DONE. -/
def execLedgerCheckDone (s : State) : Host.Outcome State Fault Refusal := .next s.ledgerCheck
/-- FELL_WINDOW_OPEN. -/
def execFellWindowOpen (s : State) : Host.Outcome State Fault Refusal := .next s.windowOpen
/-- DECISION_DEADLINE. -/
def execDecisionDeadline (s : State) : Host.Outcome State Fault Refusal := .next s.decisionDeadline
/-- READY_RECORD. -/
def execReadyRecord (p : PortId) (s : State) : Host.Outcome State Fault Refusal := .next (s.readyRecord p)
/-- LATE_RECORD. -/
def execLateRecord (p : PortId) (s : State) : Host.Outcome State Fault Refusal := .next (s.lateRecord p)
/-- DECISION_RECORD. -/
def execDecisionRecord (p : PortId) (s : State) : Host.Outcome State Fault Refusal := .next (s.decisionRecord p)
/-- DRAIN_END. -/
def execDrainEnd (g : CoreId) (s : State) : Host.Outcome State Fault Refusal := .next (s.drainEnd g)
/-- SQUASH_END. -/
def execSquashEnd (g : CoreId) (s : State) : Host.Outcome State Fault Refusal := .next (s.squashEnd g)
/-- FELL_RESOLVE. -/
def execFellResolve (val : Dword) (s : State) : Host.Outcome State Fault Refusal := .next (s.fellResolve val)

end Sys2Proof.Machine
end

