-- ==== Sys2Proof/Machine/Picks.lean ====
section
/-! DEFINITION. Pick generation (02 §2.1–§2.4, 16 R508–R511): RUN and its conditions, pick starts and the end of the last
pick, the program (13 §13.6), and the writes of the pick, program, knot pair and timeout registers. -/

namespace Sys2Proof.Machine

/-! ## The program (13 §13.6) -/

/-- HDL_PROG_STATUS.STATE set; a change is logged (Table 14.6). -/
def State.setProg (s : State) (st : Nat) : State :=
  let v := s.getReg (hdl 0x234)
  if fld v 1 0 = st then s
  else
    let v' := putFld v 1 0 st
    (s.setReg (hdl 0x234) v').logHdl 0x0003 0 v'
/-- REFUSE set. -/
def State.setRefuse (s : State) (n : Nat) : State := s.modReg (hdl 0x234) fun v => putFld v 7 4 n
/-- HDL_PROG_MAP names a core. -/
def State.mapped (s : State) (g : CoreId) : Bool := bit (s.getReg (hdl (0x200 + 4 * (g.toNat / 32)))) (g.toNat % 32)
/-- The working cores of the map. -/
def State.mapCores (s : State) : List CoreId := allCores.filter fun g => s.mapped g && s.works g

/-- A core stops running the deck (R435, R517): its store buffer drains, its micro-state is idle. What it holds of an unresolved fell
stays (R94). -/
def State.coreStop (s : State) (g : CoreId) : State :=
  let s1 := (s.core g).sbuf.foldl (fun s e => s.drainEntry g e) s
  (s1.endLoads g (s1.core g).transfers).modCore g fun c =>
    { c.pickDone with
      run := false, front := {}, window := [], lastIssue := none, cmds := [], gone := [], live := [], done := false
      stepInst := none, meshOut := c.meshOut.filter fun b => match b.body with | .message _ => false | _ => true
      squashing := false, sel := .idle, nextVariant := 0, specRun := false, proRun := false, proWrote := [], undo := none
      captured := false, capStop := false, firstPick := false, carryOld := [], proErr := [] }
/-- The loader's stop takes effect (R402, R435): no core runs the deck. -/
def State.stopProgram (s : State) : State :=
  let s1 := s.running.foldl (fun s g => s.coreStop g) s
  let s2 := ([0, 1, 2, 3] : List Sd).foldl (fun s n => s.setSd n { s.sd n with downSince := false }) s1
  s2.setProg 0

/-- The loader's start at a core (R124, R434, R520): halt and fault records clear, the selection is due. -/
def State.coreStart (s : State) (g : CoreId) : State :=
  let s1 := ([0x100, 0x138, 0x328, 0x810] : List Nat).foldl (fun s o => s.setCreg g o 0) s
  s1.modCore g fun c =>
    { c with run := true, front := {}, window := [], sel := .due, firstPick := true, captured := false, capStop := false
             carryOld := [], specRun := false, proRun := false }
/-- The program starts in clk 0 of a pick (R274, R434). -/
def State.startProgram (s : State) : State :=
  let s1 := s.temple.histQueue.foldl (fun s _ => s.historyAppend) s
  let s2 := ({ s1 with temple := { s1.temple with histQueue := [] } }).setDigest (tpl 0x2C0) 0
  (s2.mapCores.foldl (fun s g => s.coreStart g) s2).setProg 2

/-- A pick identity is e or later (R356). -/
def notBefore (id e : Nat) : Bool := sub48 id e < 2 ^ 47
/-- HDL_PROG_END stops the program after the pick in progress (R436). -/
def State.endCheck (s : State) : State :=
  let e := s.getReg (hdl 0x228)
  if s.progState = 2 ∧ bit e 63 ∧ notBefore s.pickId.toNat (fld e 47 0) then s.setProg 3 else s
/-- What a pick start does to the program (R434–R436). -/
def State.progAtStart (s : State) : State :=
  let st := s.progState
  let id := s.pickId.toNat
  let first := fld (s.getReg (hdl 0x220)) 47 0
  let s1 :=
    if st = 3 then s.stopProgram
    else if st = 1 then
      (if id = first then s.startProgram
      else if notBefore id first then (s.setRefuse 5).setProg 0
      else s)
    else s
  s1.endCheck

/-- PROG_START (R433, R454). -/
def State.progStart (s : State) : State :=
  let first := fld (s.getReg (hdl 0x220)) 47 0
  let safe := fld (s.getReg (hdl 0x1000)) 1 0 == 2
  if s.power.recovery then s.setRefuse 6
  else if !s.answers .hdl || safe then s
  else if s.progState ≠ 0 then s.setRefuse 1
  else if s.active && !(notBefore first s.pickId.toNat && (first != s.pickId.toNat || s.heddle.k == 0)) then s.setRefuse 2
  else if bit (s.getReg (tpl 0x204)) 0 then s.setRefuse 3
  else if (List.range 8).all fun m => s.getReg (hdl (0x200 + 4 * m)) == 0 then s.setRefuse 4
  else (s.setRefuse 0).setProg 1
/-- STOP (R435). -/
def State.progStopNow (s : State) : State :=
  match s.progState with
  | 1 => s.setProg 0
  | 2 => if s.heddle.phase == .stopped || s.heddle.phase == .waiting then s.stopProgram else s.setProg 3
  | _ => s
/-- PROG_STOP (R435, R437). -/
def State.progStop (s : State) : State := if s.answers .hdl then s.progStopNow else s
/-- PROG_MAP_WRITE (R431, R488). -/
def State.progMap (s : State) (m : Nat) (val : Word) : State :=
  if !s.answers .hdl || s.progState ≠ 0 then s
  else
    let v := (List.range 32).foldl (fun (v : Nat) i =>
      if bit val i && s.works (BitVec.ofNat 8 (32 * m + i)) then v + 2 ^ i else v) 0
    s.setReg (hdl (0x200 + 4 * m)) (BitVec.ofNat 64 v)
/-- A write of HDL_PROG_END (R436). -/
def State.progEnd (s : State) (val : Dword) : State :=
  let s1 := s.setReg (hdl 0x228) (val &&& 0x8000FFFFFFFFFFFF)
  if s.active && s.heddle.k != 0 && bit val 63 && fld val 47 0 == s.pickId.toNat then s1.endCheck else s1

/-! ## RUN (R508, R509) -/

/-- The Overseer is in SAFE. -/
def State.safe (s : State) : Bool := fld (s.getReg (hdl 0x1000)) 1 0 == 2
/-- The conditions of Table 16.5 that hold, as bits of HDL_PICK_STATUS. -/
def State.runRefusals (s : State) : List Nat :=
  let w := s.getReg (hdl 0x10)
  let max' := fld (s.getReg (hdl 0x118)) 3 0
  codeIf (!bit w 0 || s.heddle.clkChange) 1 ++
  codeIf ((s.getReg (hdl 0x30)).toNat < s.weft + 10000) 2 ++
  codeIf (fld (s.getReg (hdl 0x11C)) 15 0 < 40 * max' + 10) 3 ++
  codeIf (1 < s.domainCount && !bit (s.getReg (hdl 0x114)) 0) 4 ++
  codeIf (s.pwrState != 4) 5 ++
  codeIf (1000 * s.temple.settings.holdupMs < s.period + 4000) 6 ++
  codeIf s.safe 7 ++
  codeIf (s.budget == 0) 8 ++
  codeIf s.active 9
/-- A write of RUN = 1, with the conditions of `skip` not tested. -/
def State.runWith (s : State) (skip : Nat) : State :=
  if bit (s.getReg (hdl 0x20)) 0 then s
  else
    match s.runRefusals.filter fun b => b != skip with
    | [] =>
      ((s.setReg (hdl 0x20) 1).modReg (hdl 0x24) fun v => putBit v 0 true).modHeddle fun h =>
        { h with phase := .waiting, k := 0 }
    | l => s.modReg (hdl 0x24) fun v => l.foldl (fun (v : Dword) b => putBit v b true) v
/-- PICK_RUN (R49, R52, R406, R415, R477, R486, R509). -/
def State.pickRun (s : State) : State := if s.answers .hdl then s.runWith 0 else s

/-- A selection that has not been made by the end of the pick is made (R124, R125). -/
def State.lateSelect (s : State) (g : CoreId) : State :=
  let s1 := s.shedSelect g
  match (s1.core g).sel with
  | .reading v _ => s1.selected g v
  | _ => s1
/-- The drain or the squash of a core that is under way ends, the undo in it included, and its next variant is selected: all end
before the pick does (R83, R86, R130). -/
def State.settleCore (s : State) (g : CoreId) : State :=
  let s1 := if (s.core g).drainLeft.isSome then s.finishDrain g else s
  (if (s1.core g).squashing then (s1.undoEnds g).squashEnd g else s1).lateSelect g
/-- At every core. -/
def State.settle (s : State) : State := s.listed.foldl (fun s g => s.settleCore g) s
/-- No pick follows (R54): the prologue of a core ends, and its front end waits at the variant selected. -/
def State.endPrologue (s : State) (g : CoreId) : State :=
  let s1 := s.endLoads g (s.core g).transfers
  (if (s.core g).specRun then s1.setSpec g false else s1).modCore g fun c =>
    { c with
      window := [], specRun := false, proRun := false, proWrote := [], undo := none, proErr := []
      front := if c.run then s.frontFor g c.nextVariant else c.front }

/-- Pick generation has ended (R54, R360, R435, R454): ACTIVE falls, bolts abort, prologues end, a stop takes effect. -/
def State.endPicks (s : State) : State :=
  let s0 := s.settle
  let s1 := ((s0.modReg (hdl 0x24) fun v => putBit v 0 false).setReg (hdl 0x20) 0).modHeddle fun h =>
    { h with phase := .stopped, k := 0 }
  let s2 := s1.abortAll
  let s3 := s2.listed.foldl (fun s g => s.endPrologue g) s2
  let s4 := if s.safe then s3.running.foldl (fun s g => s.haltCore g 0x81 0 0 0) s3 else s3
  if s.safe && (s4.progState == 2 || s4.progState == 1) || s4.progState == 3 then s4.stopProgram else s4

/-- The pick in progress has ended by its fell or drop, and its weft time is over (R51). -/
def State.pickOver (s : State) : Bool :=
  s.heddle.phase == .window && s.heddle.decided && s.pickEndAt ≤ s.weft
/-- RUN falls (R508): with no pick in progress generation ends at once. -/
def State.dropRun (s : State) : State :=
  if !bit (s.getReg (hdl 0x20)) 0 then s
  else
    let s1 := s.setReg (hdl 0x20) 0
    if s.heddle.phase == .waiting then s1.endPicks else s1
/-- PICK_STOP (R54). -/
def State.pickStop (s : State) : State := if s.answers .hdl then s.dropRun else s

/-- The weft PLL runs: not in OFF, but from step 1 of a power-on (Table 15.3, log entry 36). -/
def State.weftRuns (s : State) : Bool := 1 ≤ s.pwrState || s.poweringOn
/-- WEFT_TICK (R45, R46, R54): the counter advances; a last pick whose time is over ends. -/
def State.weftTick (s : State) : State :=
  if !s.weftRuns then s
  else
    let s1 := s.weftNs
    if !bit (s1.getReg (hdl 0x20)) 0 && s1.pickOver then s1.endPicks else s1

/-- A load of HDL_WEFT_SET (R47). -/
def State.loadWeft (s : State) (v : Nat) : State :=
  if !s.answers .hdl || s.active then s
  else if v < s.weft then s.modReg (hdl 0x10) fun x => putBit x 2 true
  else (s.setReg (hdl 0x08) (BitVec.ofNat 64 v)).setWeft v
/-- The low half that a high-half write of a register takes: the requester's pending half, else what stands there (R11). -/
def State.lowFor (s : State) (req : Requester) (a : Nat) : Nat :=
  match s.low.find? fun x => x.req == req && x.addr == a with
  | some x => x.val.toNat
  | none => (s.getReg a).toNat % 2 ^ 32
/-- The requester's pending low half of a register is dropped (R11). -/
def State.clearLow (s : State) (req : Requester) (a : Nat) : State :=
  { s with low := s.low.filter fun (x : LowHalf) => !(x.req == req && x.addr == a) }
/-- WEFT_SET_WRITE (R11, R47). -/
def State.weftSet (s : State) (req : Requester) (hi : Word) : State :=
  (s.loadWeft (hi.toNat * 2 ^ 32 + s.lowFor req (hdl 0x08))).clearLow req (hdl 0x08)

/-! ## Writes of pick registers -/

/-- PICK_PERIOD_WRITE (R50, R510). -/
def State.periodWrite (s : State) (val : Word) : State :=
  if !s.answers .hdl || s.active || fld val 19 0 < 2 then s
  else s.setReg (hdl 0x28) (BitVec.ofNat 64 (fld val 19 0))
/-- PICK_RESERVE_WRITE (R57). -/
def State.reserveWrite (s : State) (val : Word) : State :=
  let r := fld val 23 0
  if !s.answers .hdl || s.active || r < minReserve s.period s.fcore ||
      (budgetOf s.period s.fcore (bit (s.getReg (hdl 0x44)) 16) r).isNone then s
  else s.setReg (hdl 0x2C) (BitVec.ofNat 64 r)
/-- FAB_HOPS_WRITE (R405, R406). -/
def State.hopsWrite (s : State) (val : Word) : State :=
  let m := fld val 3 0
  if !s.answers .hdl || s.active || fld (s.getReg (hdl 0x11C)) 15 0 < 40 * m + 10 then s
  else s.setReg (hdl 0x118) (BitVec.ofNat 64 m)
/-- SH_TIMEOUT_WRITE (R331, R406). -/
def State.timeoutWrite (s : State) (val : Word) : State :=
  let u := fld val 15 0
  if !s.answers .hdl || s.active || u < 40 * fld (s.getReg (hdl 0x118)) 3 0 + 10 then s
  else s.setReg (hdl 0x11C) (BitVec.ofNat 64 u)
/-- KPAIR_WRITE (R308, R488). -/
def State.kpairWrite (s : State) (n : Nat) (val : Dword) : State :=
  if !s.answers .hdl || s.active || !s.works (BitVec.ofNat 8 (fld val 7 0)) || !s.works (BitVec.ofNat 8 (fld val 25 18)) then s
  else s.setReg (hdl (0x800 + 8 * n)) val

/-! ## The pick start (R51–R53, Table 2.1) -/

/-- The knots and their values, none of value 0. -/
def State.knotValues (s : State) : List (Nat × Dword) :=
  s.regs.filter fun e => match blockOf e.1 with | some (.core _, o) => 0x2000 ≤ o && o < 0x3000 | _ => false
/-- The snapshot of R291: every cursor takes its knot's value. -/
def State.snapKnots (s : State) : State :=
  let snap := s.knotValues
  let cursor := fun (a : Nat) => match blockOf a with | some (.core _, o) => 0x3000 ≤ o && o < 0x4000 | _ => false
  let s1 := { s with regs := sdrop cursor s.regs }
  (snap.foldl (fun s e => s.setReg (e.1 + 0x1000) e.2) s1).modHeddle fun h => { h with knotSnap := snap }

/-- A store buffer entry at a pick start: the shed bytes that no prologue load of the pick has written are undefined (R67, R128). -/
def SbEntry.atPickStart (s : State) (g : CoreId) (gen : Nat) (e : SbEntry) : SbEntry :=
  { e with data := dataOf ((maskedBytes e.mask e.data).map fun x =>
      let o := 64 * e.line + x.1
      if s.carryBit g (o / 65536) || (s.core g).proWrote.contains (beamBase g + o) then x
      else (x.1, Config.undefByte gen (beamBase g + o))) }
/-- Every shed granule and take-up is undefined from here (R67, R176), but for captured cores (R278, R279) and for what the
prologue loads of the pick have written (R128). -/
def State.undefAtStart (s : State) : State :=
  let u := s.undefs
  let caught := fun (key : Nat) => (s.core (BitVec.ofNat 8 (if key < 32768 then key / 128 else key - 32768))).captured
  let kept := u.kept.filter fun e => caught e.1 || s.carryBit (BitVec.ofNat 8 (e.1 / 128)) (e.1 % 128)
  let stays := fun (a : Nat) => match undefKey a with
    | some (_, key) => caught key || (kept.lookup key).isSome || s.cores.any fun e => e.2.proWrote.contains a
    | none => false
  let gen := s.heddle.gen + 1
  { s with
    cores := s.cores.map fun e => (e.1, { e.2 with sbuf := e.2.sbuf.map (SbEntry.atPickStart s (BitVec.ofNat 8 e.1) gen) })
    heddle := { s.heddle with gen := gen }
    undefs := { u with still := [], kept := kept, written := u.written.filter stays } }

/-- The registers marked P but CORE_STEP, CORE_WA_STATUS and CORE_SH_TRACK (R521, Tables 17.4–17.7). -/
def pickRegs : List Nat :=
  [0x10C, 0x118, 0x124, 0x310, 0x314, 0x318, 0x31C, 0x408, 0x40C, 0x500, 0x508, 0x620, 0x624, 0x628, 0x62C, 0x630, 0x634,
   0x63C, 0x708, 0x808]
/-- The per-pick registers of a running core clear (R113, R521); a captured core keeps its step counter (R278). -/
def State.clearPick (s : State) (g : CoreId) : State :=
  let s1 := pickRegs.foldl (fun s o => s.setCreg g o 0) s
  let s2 := if (s.core g).captured then s1 else s1.setCreg g 0x108 0
  ((s2.setCreg g 0x800 (putFld (s2.creg g 0x800) 22 16 0)).trackHigh g).modCore g fun c =>
    { c with weave := { c.weave with noset := false } }

/-- What a core's micro-state is in clk 0 (Table 2.1, R125, R128, R234, R292, R296): empty, but for the decoded cards, loads and signals
of the prologue, which are the pick's own from here. A captured core empties its Carder tables. -/
def Core.atPickStart (c : Core) (pk : Dword) (bits : Byte) : Core :=
  let sig := fun (y : KnotSig) => { y with pro := y.pro && y.pick != bits }
  let c1 := { c with t0 := {}, t1 := {}, knotQueue := c.knotQueue.map sig, sigIn := c.sigIn.map sig }
  if c.captured then c1
  else
    { c1.pickDone with
      lastIssue := none, cmds := [], gone := [], live := [], done := false, stepInst := none, proErr := [], pk := pk
      proRun := false, proWrote := []
      track := c.track.map fun x => (x.1, { x.2 with tr := x.2.tr.map fun t => { t with pro := t.pro && t.pick != bits } }) }

/-- Clk 0 of a pick at a core (R24, R113, R125, R161, R263, R291, R292). -/
def State.corePickStart (s : State) (g : CoreId) : State :=
  let c := s.core g
  let key := srKey (s.getReg (hdl 0x130)).toNat s.pickEpoch.toNat s.pickNum.toNat (fld (s.creg g 0x14) 23 0)
  let s1 := if c.run then s.clearPick g else s
  let s2 := s1.modCore g fun c => c.atPickStart (BitVec.ofNat 64 key) s.pickBits
  let s3 := if c.run && !c.captured && !c.firstPick then s2.curVariant g c.nextVariant else s2
  let s4 := s3.knotClk g
  if c.captured then s4
  else c.proErr.foldl (fun s v => s.sourceError g v) s4

/-- The Overseer at a pick start (R450, R452): it resumes if its resync has ended, and the window of 16 picks moves on. -/
def State.ovsPickStart (s : State) : State :=
  let o := s.overseer
  let picks := (false :: o.faultPicks).take 16
  let go := o.resync && o.resyncEnded
  let s1 := { s with overseer := { o with
    faultNow := false, faultPicks := picks, resync := o.resync && !go, resyncEnded := false } }
  s1.modReg (hdl 0x1000) fun v =>
    let v1 := putFld v 12 8 (picks.countP fun b => b)
    if go && fld v 1 0 == 1 then putFld v1 1 0 0 else v1

/-- The identity of the next pick (R52, R53): the first pick of generation carries what the registers hold. -/
def State.nextIdentity (s : State) : State :=
  if s.heddle.k = 0 then s
  else
    let n := (s.pickNum.toNat + 1) % 2 ^ 32
    let s1 := s.setReg (hdl 0x38) (BitVec.ofNat 64 n)
    if n = 0 then s1.setReg (hdl 0x3C) (BitVec.ofNat 64 ((s.pickEpoch.toNat + 1) % 2 ^ 16)) else s1

/-- The fate of the pick before this one, which OUT bolts that start in this pick copy (R92, R358). -/
def State.fateBefore (s : State) : Nat := s.fateOf ((s.pickId.toNat + 2 ^ 48 - 1) % 2 ^ 48)
/-- A pick starts in every core (R24, R51–R53, R61, R92, R94, R291, R434–R436, R450, R464). -/
def State.startPick (s : State) : State :=
  let taken := s.heddle.k != 0 && fld (s.getReg (hdl 0x58)) 49 48 == 1 && fld (s.getReg (hdl 0x58)) 47 0 == s.pickId.toNat
  let s1 := s.settle.nextIdentity
  let key := s1.pickBits.toNat
  let s2 := s1.modHeddle fun h =>
    { h with
      phase := .issuing, k := h.k + 1, clk := 0, vote := .none, decided := false, committed := false, held := false
      causes := [], childReady := [], unresolvedDue := h.unresolved, onTime := false, srcFate := s1.fateBefore, xPick := 0, readyX := 0
      sigSent := h.sigSent.filter fun e => e.1 == key, sigApplied := h.sigApplied.filter fun e => e.1 == key }
  let s3 := (s2.listed.foldl (fun s g => s.modCore g fun c => { c with firstPick := false }) s2).progAtStart
  let s4 := (s3.ovsPickStart).undefAtStart.snapKnots
  let s5 := ([0, 1, 2, 3] : List Sd).foldl (fun s n => s.setSd n
    { s.sd n with causeNow := if (s.sd n).downSince then some 3 else none, norouteLogged := false }) s4
  let s6 := ([0, 1] : List Td).foldl (fun s td => s.setTd td { s.td td with started := [], failed := [] }) s5
  (s6.listed.foldl (fun s g => s.corePickStart g) s6).tallyPickStart taken

/-- PICK_START (R51, R54): at its instant the pick starts, or generation ends where RUN reads 0. -/
def State.pickStart (s : State) : State :=
  let first := s.heddle.phase == .waiting && s.pickInstant 0 ≤ s.weft
  if first || s.pickOver then
    (if bit (s.getReg (hdl 0x20)) 0 then s.startPick else s.endPicks)
  else s

/-- PICK_START_ACK_TIMEOUT (R448): the core halts with 0x83. -/
def State.ackTimeout (s : State) (g : CoreId) : State :=
  if s.runs g && s.heddle.phase != .stopped && s.heddle.k != 0 && 256 ≤ s.clk then s.halt g 0x83 0 0 0 else s

/-- WEFT_TICK. -/
def execWeftTick (s : State) : Host.Outcome State Fault Refusal := .next s.weftTick
/-- WEFT_SET_WRITE. -/
def execWeftSetWrite (req : Requester) (hi : Word) (s : State) : Host.Outcome State Fault Refusal := .next (s.weftSet req hi)
/-- PICK_RUN. -/
def execPickRun (s : State) : Host.Outcome State Fault Refusal := .next s.pickRun
/-- PICK_STOP. -/
def execPickStop (s : State) : Host.Outcome State Fault Refusal := .next s.pickStop
/-- PICK_PERIOD_WRITE. -/
def execPickPeriodWrite (val : Word) (s : State) : Host.Outcome State Fault Refusal := .next (s.periodWrite val)
/-- PICK_RESERVE_WRITE. -/
def execPickReserveWrite (val : Word) (s : State) : Host.Outcome State Fault Refusal := .next (s.reserveWrite val)
/-- PICK_START. -/
def execPickStart (s : State) : Host.Outcome State Fault Refusal := .next s.pickStart
/-- PICK_START_ACK_TIMEOUT. -/
def execPickStartAckTimeout (g : CoreId) (s : State) : Host.Outcome State Fault Refusal := .next (s.ackTimeout g)
/-- PROG_START. -/
def execProgStart (s : State) : Host.Outcome State Fault Refusal := .next s.progStart
/-- PROG_STOP. -/
def execProgStop (s : State) : Host.Outcome State Fault Refusal := .next s.progStop
/-- PROG_MAP_WRITE. -/
def execProgMapWrite (m : Fin 8) (val : Word) (s : State) : Host.Outcome State Fault Refusal := .next (s.progMap m.val val)
/-- KPAIR_WRITE. -/
def execKpairWrite (n : BitVec 8) (val : Dword) (s : State) : Host.Outcome State Fault Refusal :=
  .next (s.kpairWrite n.toNat val)
/-- FAB_HOPS_WRITE. -/
def execFabHopsWrite (val : Word) (s : State) : Host.Outcome State Fault Refusal := .next (s.hopsWrite val)
/-- SH_TIMEOUT_WRITE. -/
def execShTimeoutWrite (val : Word) (s : State) : Host.Outcome State Fault Refusal := .next (s.timeoutWrite val)

end Sys2Proof.Machine
end

