-- ==== Sys2Proof/Machine/Link.lean ====
section
/-! DEFINITION. A VXF port (12 §12.2–§12.5): training, measurement, going down, flits with their sequence numbers, replay and
credits. Bytes of a virtual channel wait in tx0 and tx1 and arrive in rx0 and rx1; a DATA body that its packets do not fill
ends in zero bytes (log entry 30). -/

namespace Sys2Proof.Machine

/-! ## Registers of a port -/

/-- STATE of a port (Table 12.1). -/
def State.portState (s : State) (p : PortId) : Nat := fld (s.getReg (portReg p 4)) 3 0
/-- A field of SLV_PORTk_STATUS set. -/
def State.portField (s : State) (p : PortId) (hi lo x : Nat) : State := s.modReg (portReg p 4) fun v => putFld v hi lo x
/-- A port's micro-state changed. -/
def State.modPort (s : State) (p : PortId) (f : Port → Port) : State := s.setPort p (f (s.port p))
/-- One-way latency of a class in ns (Table 12.3). -/
def classNs (c : Nat) : Nat := [60, 100, 200, 400, 800].getD c 0
/-- The class latency of a port's link. -/
def State.portNs (s : State) (p : PortId) : Nat := classNs (fld (s.getReg (portReg p 8)) 34 32)
/-- The Selvedge die of a port answers. -/
def State.portOn (s : State) (p : PortId) : Bool := s.answers (.slv (sdOf p))

/-- The port enters DETECT, whose first round starts at once (R378). -/
def State.toDetect (s : State) (p : PortId) : State :=
  (s.portField p 3 0 1).setPort p { nextRound := s.getReg (hdl 0x00) }

/-! ## Going down (R381, R401, R402, R404) -/

/-- The route entries of a die that name a port and are valid. -/
def State.routesOf (s : State) (p : PortId) : List (Nat × Dword) :=
  let base := slv (sdOf p) 0x10000
  s.regs.filter fun e => base ≤ e.1 && e.1 < base + 0x2000 && bit e.2 0 && fld e.2 6 4 == p.val % 6
/-- DOWN is set in every valid route entry that names the port (R401). -/
def State.markDown (s : State) (p : PortId) : State :=
  (s.routesOf p).foldl (fun s e => s.modReg e.1 fun v => putBit v 3 true) s
/-- The port is in use (R401). -/
def State.portInUse (s : State) (p : PortId) : Bool :=
  let vote := s.getReg (hdl 0x108)
  let time := s.getReg (hdl 0x110)
  (s.routesOf p).any (fun e => bit e.2 2) || (!bit vote 0 && fld vote 5 1 == p.val) || bit vote (16 + p.val) ||
    (!bit time 0 && fld time 5 1 == p.val)
/-- Requests launched on a port end LINK_LOST (R333, R404). -/
def State.linkLost (s : State) (p : PortId) : State :=
  let n := sdOf p
  let mine := (s.sd n).launched.filter fun (x : Launched) => x.port == p
  let s1 := s.setSd n { s.sd n with launched := (s.sd n).launched.filter fun (x : Launched) => x.port != p }
  mine.foldl (fun s x => s.linkFailed x.owner 3) s1
/-- The port leaves ACTIVE with a DOWNCAUSE, for a state (R381, R401, R402, R404). -/
def State.portDown (s : State) (p : PortId) (cause to' : Nat) : State :=
  let n := sdOf p
  let owed := (s.sd n).launched.any fun (x : Launched) => x.port == p
  let used := s.portInUse p
  let s1 := ((s.portField p 3 0 to').portField p 15 12 cause).count (portReg p 0x24) 1
  let s2 := ((s1.logSd n 0x4002 p.val (s1.getReg (portReg p 4))).markDown p).setPort p { nextRound := s.getReg (hdl 0x00) }
  let s3 := s2.linkLost p
  let s4 := if used && s.inRun then s3.setSd n { s3.sd n with downSince := true } else s3
  if s.curPick.isNone then s4
  else if used && owed then s4.sdCause n 0x04
  else if used then s4.sdCause n 0x03
  else s4

/-- The port enters FAULT (R379, R382). -/
def State.portFault (s : State) (p : PortId) (cause : Nat) : State :=
  let s1 := ((s.portField p 3 0 6).portField p 11 9 cause).setPort p {}
  s1.logSd (sdOf p) 0x4803 p.val (s1.getReg (portReg p 4))

/-! ## SLV_PORTk_CTRL and SLV_PORTk_CRED (R380, R381, R393) -/

/-- EN falls: DISABLED from any state, ATTEMPTS cleared (R380, R381). -/
def State.portOff (s : State) (p : PortId) : State :=
  let s1 := if s.portState p = 5 then s.portDown p 5 0 else (s.portField p 3 0 0).setPort p {}
  s1.portField p 8 4 0
/-- RESET (R380): ATTEMPTS and FCAUSE clear and the port goes to DETECT; an ACTIVE port stays ACTIVE (R381, log entry 51). -/
def State.portRst (s : State) (p : PortId) : State :=
  let s1 := (s.portField p 8 4 0).portField p 11 9 0
  if s.portState p = 5 then s1 else s1.toDetect p
/-- A write of SLV_PORTk_CTRL. -/
def State.portCtrl (s : State) (p : PortId) (val : Word) : State :=
  if !s.portOn p then s
  else
    let s1 := s.setReg (portReg p 0) (BitVec.ofNat 64 (val.toNat) &&& 0x73)
    if !bit val 0 then (if bit val 2 then s1.portField p 11 9 0 else s1).portOff p
    else if bit val 2 then s1.portRst p
    else if s.portState p = 0 then s1.toDetect p
    else s1
/-- SLV_PORTk_CRED (R393). -/
def State.portCred (s : State) (p : PortId) (val : Word) : State :=
  let a := fld val 9 0
  let b := fld val 25 16
  if !s.portOn p || s.portState p == 5 || a < 16 || 496 < a || b < 16 || 496 < b || 512 < a + b then s
  else s.setReg (portReg p 0x10) (BitVec.ofNat 64 (a + 2 ^ 16 * b))

/-! ## Training (R378, R379, R382) -/

/-- DETECT_ROUND (R378). -/
def State.detectRound (s : State) (p : PortId) : State :=
  let x := s.port p
  if s.portState p = 1 ∧ x.roundOpen = none ∧ s.reached x.nextRound then
    s.setPort p { x with roundOpen := some (s.getReg (hdl 0x00)), nextRound := BitVec.ofNat 64 (s.weft + 100000000) }
  else s
/-- DETECT_ROUND_END (R378). -/
def State.detectEnd (s : State) (p : PortId) : State :=
  match (s.port p).roundOpen with
  | some t =>
    if s.portState p = 1 ∧ 1000000 ≤ s.since t then
      (s.modPort p fun x => { x with roundOpen := none }).portField p 16 16 0
    else s
  | none => s
/-- SIGNAL_DETECT (R379). -/
def State.signalDetect (s : State) (p : PortId) : State :=
  if s.portState p = 1 ∧ (s.port p).roundOpen.isSome then
    let n := fld (s.getReg (portReg p 4)) 8 4
    (((s.portField p 16 16 1).portField p 8 4 (n + 1)).portField p 3 0 2).modPort p fun x =>
      { x with roundOpen := none, attemptAt := s.getReg (hdl 0x00), stageAt := s.getReg (hdl 0x00) }
  else s
/-- TRAIN_DONE (Table 12.1). -/
def State.trainDone (s : State) (p : PortId) : State :=
  if s.portState p = 2 then (s.portField p 3 0 3).modPort p fun x => { x with stageAt := s.getReg (hdl 0x00) } else s
/-- ALIGN_DONE (Table 12.1, R382): in MEASURE the port sends its 64 probes. -/
def State.alignDone (s : State) (p : PortId) : State :=
  if s.portState p = 3 then
    (s.portField p 3 0 4).modPort p fun x =>
      { x with stageAt := s.getReg (hdl 0x00), ctrlOut := List.replicate 64 (leBytes 1 6) }
  else s
/-- PROBE_RECORD (R382): a probe is echoed. -/
def State.probeRecord (s : State) (p : PortId) : State :=
  match s.takeCtrl p 6 with
  | some (_, s1) => if s.portState p = 4 then s1.sendCtrl p (leBytes 1 7) else s1
  | none => s
/-- ECHO_RECORD (R382): one round trip, in 1/16 ns. -/
def State.echoRecord (s : State) (p : PortId) (rtt : Nat) : State :=
  match s.takeCtrl p 7 with
  | some (_, s1) =>
    if s.portState p = 4 then
      s1.modPort p fun x => { x with probes := x.probes + 1, bestRtt := some (min rtt (x.bestRtt.getD rtt)) }
    else s1
  | none => s
/-- MEAS (R382): half the smallest round trip, less the turnaround. -/
def Port.meas (x : Port) : Nat := ((x.bestRtt.getD 0) - Config.probeTurnaround) / 2
/-- MEASURE_DONE (R379, R382, R383, R393). -/
def State.measureDone (s : State) (p : PortId) (meas min' : Nat) : State :=
  let x := s.port p
  if s.portState p ≠ 4 ∨ x.probes < 64 then s
  else
    let own := x.meas % 2 ^ 16
    let far := max own meas
    let low := max (fld (s.getReg (portReg p 0)) 6 4) min'
    if 12800 < far then (s.setReg (portReg p 8) (BitVec.ofNat 64 own)).portFault p 2
    else match (List.range 5).find? fun c => far ≤ 16 * classNs c && low ≤ c with
      | none => s
      | some c =>
        let lat : Dword := BitVec.ofNat 64 (own + 2 ^ 16 * (16 * classNs c - own) + 2 ^ 32 * c)
        let cred := s.getReg (portReg p 0x10)
        let s1 := ((s.setReg (portReg p 8) lat).portField p 3 0 5).portField p 8 4 0
        (s1.modPort p fun x =>
          { x with
            cred0 := fld cred 9 0, alloc0 := fld cred 9 0, sent0 := 0, ret0 := 0
            cred1 := fld cred 25 16, alloc1 := fld cred 25 16, sent1 := 0, ret1 := 0
            badRun := 0, lastTimeSent := s.getReg (hdl 0x00) }).logSd (sdOf p) 0x4001 p.val lat
/-- ATTEMPT_TIMEOUT (R379). -/
def State.attemptTimeout (s : State) (p : PortId) : State :=
  let x := s.port p
  let st := s.portState p
  let limit := if st = 2 then 300000000 else if st = 3 then 10000000 else 1000000
  if (st == 2 || st == 3 || st == 4) &&
      (500000000 ≤ s.since x.attemptAt || limit < s.since x.stageAt) then
    (if 16 ≤ fld (s.getReg (portReg p 4)) 8 4 then (s.portFault p 1).markDown p else s.toDetect p)
  else s
/-- LOCK_LOST (R381). -/
def State.lockLost (s : State) (p : PortId) : State := if s.portState p = 5 then s.portDown p 2 1 else s
/-- SIGNAL_LOST (R381). -/
def State.signalGone (s : State) (p : PortId) : State :=
  let s1 := s.portField p 16 16 0
  if s.portState p = 5 then s1.portDown p 3 1 else s1

/-! ## Flits (Table 12.4) -/

/-- A flit: its fields, 246 bytes of body, and the CRC over both. -/
def flitBytes (type vc seq ack : Nat) (nak : Bool) (crvc crcnt : Nat) (body : List Byte) : List Byte :=
  let l := leBytes 6 (type % 16 + 2 ^ 4 * (vc % 4) + 2 ^ 6 * (seq % 4096) + 2 ^ 18 * (ack % 4096) + (if nak then 2 ^ 30 else 0)
    + 2 ^ 31 * (crvc % 4) + 2 ^ 33 * (crcnt % 64)) ++ (body ++ List.replicate 246 0).take 246
  l ++ leBytes 4 (crc32c l).toNat
/-- The SEQ before another. -/
def seqPrev (n : Nat) : Nat := (n + 4095) % 4096

/-- What a flit carries for the other direction (R386, R388, R394): its NAK bit and credits, and the port that has sent them. -/
def Port.carry (x : Port) : Bool × Nat × Nat × Port :=
  let vc := if x.ret0 = 0 ∧ x.ret1 ≠ 0 then 1 else 0
  let n := min 63 (if vc = 0 then x.ret0 else x.ret1)
  (x.nakOwed, vc, n,
    { x with
      nakOwed := false
      nakSent := x.nakSent || x.nakOwed
      ret0 := if vc = 0 then x.ret0 - n else x.ret0
      ret1 := if vc = 1 then x.ret1 - n else x.ret1 })
/-- A flit leaves. -/
def State.putFlit (s : State) (p : PortId) (x : Port) (type vc seq : Nat) (body : List Byte) : State :=
  let (nak, crvc, n, y) := x.carry
  (s.setPort p y).emit (.flit p (flitBytes type vc seq (seqPrev x.rxSeq) nak crvc n body))
/-- A flit of the replay buffer leaves again: its wait counts from here (R389). -/
def Port.sentAgain (x : Port) (seq : Nat) (now : Dword) : Port :=
  { x with replay := x.replay.map fun f => if f.seq == seq then { f with at' := now } else f }
/-- A new flit takes the next SEQ and enters the replay buffer (R386). -/
def State.newFlit (s : State) (p : PortId) (x : Port) (type vc : Nat) (body : List Byte) : State :=
  let f : SentFlit := { seq := x.txSeq, bytes := leBytes 1 (type + 16 * vc) ++ body, at' := s.getReg (hdl 0x00) }
  s.putFlit p { x with txSeq := (x.txSeq + 1) % 4096, replay := x.replay ++ [f] } type vc x.txSeq body
/-- The virtual channel whose flit leaves next: both ready alternate (R394). -/
def Port.nextVc (x : Port) : Option (Fin 2) :=
  let r0 := x.tx0 != [] && x.cred0 != 0
  let r1 := x.tx1 != [] && x.cred1 != 0
  if r0 && r1 then some (x.lastVc + 1) else if r0 then some 0 else if r1 then some 1 else none
/-- A control record as it leaves: TIME carries the weft counter of its transmission (R407). -/
def State.recordOut (s : State) (b : List Byte) : List Byte := if leAt b 0 1 = 1 then leBytes 1 1 ++ leBytes 8 s.weft else b
/-- FLIT_SEND (R376, R386, R388, R389, R392, R394): a replayed flit, a control record, data, or NULL. -/
def State.flitSend (s : State) (p : PortId) : State :=
  let x := s.port p
  if s.portState p ≠ 5 ∧ s.portState p ≠ 4 then s
  else match x.resend with
    | f :: t =>
      let tv := leAt f.bytes 0 1
      s.putFlit p ({ x with resend := t }.sentAgain f.seq (s.getReg (hdl 0x00))) (tv % 16) (tv / 16) f.seq (f.bytes.drop 1)
    | [] =>
      if Config.replayCap ≤ x.replay.length then s.putFlit p x 0 0 0 []
      else match x.ctrlOut, x.nextVc with
        | b :: t, _ => s.newFlit p { x with ctrlOut := t } 2 0 (s.recordOut b)
        | [], some vc =>
          if vc = 0 then
            s.newFlit p { x with tx0 := x.tx0.drop 246, cred0 := x.cred0 - 1, sent0 := x.sent0 + 1, lastVc := 0 } 1 0
              (x.tx0.take 246)
          else
            s.newFlit p { x with tx1 := x.tx1.drop 246, cred1 := x.cred1 - 1, sent1 := x.sent1 + 1, lastVc := 1 } 1 1
              (x.tx1.take 246)
        | [], none => s.putFlit p x 0 0 0 []

/-! ## Replay (R388, R389) -/

/-- A replay starts, one in a clk; a ninth without an advance takes an ACTIVE port down. -/
def State.replayStart (s : State) (p : PortId) : State :=
  let x := s.port p
  if x.replay = [] ∨ x.replayAt = some s.now then s
  else if 8 ≤ x.replayCount ∧ s.portState p = 5 then s.portDown p 1 1
  else
    let l := x.replay.map fun (f : SentFlit) => { f with at' := s.getReg (hdl 0x00) }
    (s.setPort p { x with replayCount := x.replayCount + 1, replay := l, resend := l, replayAt := some s.now }).count (portReg p 0x18) 1
/-- REPLAY_TIMEOUT (R389). -/
def State.replayTimeout (s : State) (p : PortId) : State :=
  match (s.port p).replay with
  | f :: _ => if s.portState p = 5 ∧ 2000 ≤ s.since f.at' then s.replayStart p else s
  | [] => s

/-! ## Reception (R387, R388, R394) -/

/-- An ACK frees the flits it covers. -/
def Port.ack (x : Port) (a : Nat) : Port :=
  match x.replay.findIdx? fun f => f.seq == a with
  | some i =>
    let gone := (x.replay.take (i + 1)).map (·.seq)
    { x with replay := x.replay.drop (i + 1), resend := x.resend.filter fun f => !gone.contains f.seq, replayCount := 0 }
  | none => x
/-- The bytes of a virtual channel less the filler at its end, walking its packets from the first. -/
def trimFill : Nat → List Byte → List Byte
  | 0, l => l
  | n + 1, l =>
    if l.all fun b => b == 0 then []
    else
      let h := parseHeader l
      let len := 16 + h.dataLen
      if l.length ≤ len || h.malformed 0 && h.malformed 1 then l else l.take len ++ trimFill n (l.drop len)
/-- The flits whose last byte leaves a receive buffer with its first n bytes, and what stays of the others (R394). -/
def flitsLeft : List Nat → Nat → Nat × List Nat
  | [], _ => (0, [])
  | a :: t, n => if a ≤ n then let r := flitsLeft t (n - a); (r.1 + 1, r.2) else (0, (a - n) :: t)
/-- Bytes enter the receive buffer of a channel: a flit of filler alone leaves it at once (R394, log entry 30). -/
def Port.fill (x : Port) (vc : Nat) (body : List Byte) : Port :=
  let old := if vc = 0 then x.rx0 else x.rx1
  let l := trimFill (old.length + 246) (old ++ body)
  let n := l.length - old.length
  if vc = 0 then { x with rx0 := l, hold0 := if n = 0 then x.hold0 else x.hold0 ++ [n], ret0 := if n = 0 then x.ret0 + 1 else x.ret0 }
  else { x with rx1 := l, hold1 := if n = 0 then x.hold1 else x.hold1 ++ [n], ret1 := if n = 0 then x.ret1 + 1 else x.ret1 }
/-- The first n bytes leave the receive buffer of a channel, and a credit returns for each flit that leaves with them (R394). -/
def Port.unload (x : Port) (vc : Fin 2) (n : Nat) : Port :=
  if vc = 0 then
    let r := flitsLeft x.hold0 n
    { x with rx0 := x.rx0.drop n, hold0 := r.2, ret0 := x.ret0 + r.1 }
  else
    let r := flitsLeft x.hold1 n
    { x with rx1 := x.rx1.drop n, hold1 := r.2, ret1 := x.ret1 + r.1 }
/-- An accepted flit: a control record, or bytes of a virtual channel (R392, R396). -/
def State.acceptFlit (s : State) (p : PortId) (x : Port) (type vc : Nat) (body : List Byte) : State :=
  let y := { x with rxSeq := (x.rxSeq + 1) % 4096, nakOwed := false, nakSent := false }
  if type = 2 then
    let kind := leAt body 0 1
    if kind = 0 ∨ 7 < kind then (s.setPort p y).count (portReg p 0x1C) 1
    else s.setPort p { y with ctrlIn := y.ctrlIn ++ [body] }
  else s.setPort p (y.fill vc body)
/-- A flit is discarded for its CRC or TYPE (R381, R387): a thousand in a row take the port down. -/
def State.badFlit (s : State) (p : PortId) (x : Port) (crc : Bool) : State :=
  let y := { x with badRun := x.badRun + 1, nakOwed := x.nakOwed || (crc && !x.nakSent) }
  let s1 := if crc then (s.setPort p y).count (portReg p 0x1C) 1 else s.setPort p y
  if 1000 ≤ y.badRun && s.portState p == 5 then s1.portDown p 4 1 else s1
/-- FLIT_RECEIVE (R381, R386–R389, R392, R394). A flit of a reserved VC is discarded whole (R392). A control record that finds the
control buffer full is discarded as after a gap, and is replayed (DESIGN CHOICE, log entry 51). -/
def State.flitReceive (s : State) (p : PortId) (flit : List Byte) : State :=
  let x := s.port p
  let w := leAt flit 0 6
  let f := fun hi lo => w / 2 ^ lo % 2 ^ (hi + 1 - lo)
  let type := f 3 0
  let vc := f 5 4
  let seq := f 17 6
  if (s.portState p ≠ 5 ∧ s.portState p ≠ 4) ∨ flit.length ≠ 256 then s
  else if leAt flit 252 4 ≠ (crc32c (flit.take 252)).toNat then s.badFlit p x true
  else if 2 < type then s.badFlit p x false
  else if type = 1 ∧ 1 < vc then s.setPort p { x with badRun := 0 }
  else
    let x1 := ({ x with badRun := 0 }).ack (f 29 18)
    let n := f 38 33
    let x2 :=
      if f 32 31 = 0 then { x1 with cred0 := x1.cred0 + n, sent0 := x1.sent0 - n }
      else if f 32 31 = 1 then { x1 with cred1 := x1.cred1 + n, sent1 := x1.sent1 - n }
      else x1
    let back := (x.rxSeq + 4096 - seq) % 4096
    let s1 :=
      if type = 0 then s.setPort p x2
      else if back = 0 ∧ ¬(type = 2 ∧ Config.controlCap ≤ x2.ctrlIn.length) then s.acceptFlit p x2 type vc (slice flit 6 246)
      else if 1 ≤ back ∧ back ≤ 512 then (s.setPort p x2).count (portReg p 0x20) 1
      else s.setPort p { x2 with nakOwed := x2.nakOwed || !x2.nakSent }
    if f 30 30 = 1 then s1.replayStart p else s1
/-- MALFORMED_PACKET (R396): the header at the head of a virtual channel is malformed. -/
def State.malformedPacket (s : State) (p : PortId) (vc : Fin 2) : State :=
  let x := s.port p
  let l := if vc = 0 then x.rx0 else x.rx1
  if s.portState p = 5 ∧ 16 ≤ l.length ∧ (parseHeader l).malformed vc then s.portDown p 6 1 else s

/-- PORT_ENABLE. -/
def execPortEnable (p : PortId) (val : Word) (s : State) : Host.Outcome State Fault Refusal := .next (s.portCtrl p val)
/-- PORT_DISABLE. -/
def execPortDisable (p : PortId) (val : Word) (s : State) : Host.Outcome State Fault Refusal := .next (s.portCtrl p val)
/-- PORT_RESET. -/
def execPortReset (p : PortId) (val : Word) (s : State) : Host.Outcome State Fault Refusal := .next (s.portCtrl p val)
/-- PORT_CRED_WRITE. -/
def execPortCredWrite (p : PortId) (val : Word) (s : State) : Host.Outcome State Fault Refusal := .next (s.portCred p val)
/-- DETECT_ROUND. -/
def execDetectRound (p : PortId) (s : State) : Host.Outcome State Fault Refusal := .next (s.detectRound p)
/-- DETECT_ROUND_END. -/
def execDetectRoundEnd (p : PortId) (s : State) : Host.Outcome State Fault Refusal := .next (s.detectEnd p)
/-- SIGNAL_DETECT. -/
def execSignalDetect (p : PortId) (s : State) : Host.Outcome State Fault Refusal := .next (s.signalDetect p)
/-- TRAIN_DONE. -/
def execTrainDone (p : PortId) (s : State) : Host.Outcome State Fault Refusal := .next (s.trainDone p)
/-- ALIGN_DONE. -/
def execAlignDone (p : PortId) (s : State) : Host.Outcome State Fault Refusal := .next (s.alignDone p)
/-- MEASURE_DONE. -/
def execMeasureDone (p : PortId) (partnerMeas : BitVec 16) (partnerMin : BitVec 3) (s : State) :
    Host.Outcome State Fault Refusal := .next (s.measureDone p partnerMeas.toNat partnerMin.toNat)
/-- ATTEMPT_TIMEOUT. -/
def execAttemptTimeout (p : PortId) (s : State) : Host.Outcome State Fault Refusal := .next (s.attemptTimeout p)
/-- LOCK_LOST. -/
def execLockLost (p : PortId) (s : State) : Host.Outcome State Fault Refusal := .next (s.lockLost p)
/-- SIGNAL_LOST. -/
def execSignalLost (p : PortId) (s : State) : Host.Outcome State Fault Refusal := .next (s.signalGone p)
/-- FLIT_SEND. -/
def execFlitSend (p : PortId) (s : State) : Host.Outcome State Fault Refusal := .next (s.flitSend p)
/-- FLIT_RECEIVE. -/
def execFlitReceive (p : PortId) (flit : List Byte) (s : State) : Host.Outcome State Fault Refusal :=
  .next (s.flitReceive p flit)
/-- REPLAY_TIMEOUT. -/
def execReplayTimeout (p : PortId) (s : State) : Host.Outcome State Fault Refusal := .next (s.replayTimeout p)
/-- MALFORMED_PACKET. -/
def execMalformedPacket (p : PortId) (vc : Fin 2) (s : State) : Host.Outcome State Fault Refusal :=
  .next (s.malformedPacket p vc)
/-- PROBE_RECORD. -/
def execProbeRecord (p : PortId) (s : State) : Host.Outcome State Fault Refusal := .next (s.probeRecord p)
/-- ECHO_RECORD. -/
def execEchoRecord (p : PortId) (rtt : BitVec 16) (s : State) : Host.Outcome State Fault Refusal :=
  .next (s.echoRecord p rtt.toNat)

end Sys2Proof.Machine
end

