-- ==== Sys2Proof/Machine/Remote.lean ====
section
/-! DEFINITION. Packets at a Selvedge die (12 R395–R400, R403): requests delivered, refused, discarded or forwarded, and the
responses that reach a shuttle. A packet is the one at the head of its virtual channel. -/

namespace Sys2Proof.Machine

/-! ## The packet at the head of a channel -/

/-- The packet at the head of a virtual channel of a port if it is whole, well formed and of the type: its header, its data,
and the state without it. -/
def State.takePacket (s : State) (p : PortId) (vc : Fin 2) (type : Nat) : Option (Header × List Byte × State) :=
  let x := s.port p
  let l := if vc = 0 then x.rx0 else x.rx1
  let h := parseHeader l
  let len := 16 + h.dataLen
  if l.length < 16 ∨ h.malformed vc ∨ h.type ≠ type ∨ l.length < len then none
  else some (h, slice l 16 h.dataLen, s.setPort p (x.unload vc len))
/-- The packet is for another package: it is forwarded, as a transit packet (R400); R397's discard for DPKG is that of a die that
delivers (DEDUCED, log entry 52). -/
def State.transit (s : State) (h : Header) : Bool := h.dpkg != s.pkg
/-- A request of another pick (R397). -/
def State.stalePacket (s : State) (h : Header) : Bool := h.tpick != s.pickBits.toNat
/-- SLV_STALE raised. -/
def State.countStale (s : State) (n : Sd) : State := s.count (slv n 0x800) 1
/-- The answer to a request leaves by this die's route to the package of its tag (R395). -/
def State.answerPacket (s : State) (n : Sd) (h : Header) (type nl : Nat) (data : List Byte) : State :=
  s.sendPacket n 1 (h.reply type nl) data

/-! ## Requests (R397) -/

/-- The device addresses of the lines a request names. -/
def Header.lines (h : Header) : List Nat := (List.range h.nl).map fun i => h.addr / 64 * 64 + 64 * i
/-- An access the destination refuses: no beam line of a working core, or the system reserve (R397, R488). -/
def State.refusedLine (s : State) (a : Nat) : Bool :=
  0x80000000 ≤ a || inReserve a || !s.works (BitVec.ofNat 8 (a / 0x800000))
/-- The carry regions a WRITE addresses (R68), as device addresses. -/
def State.carryLines (s : State) (h : Header) : List Nat :=
  h.lines.filter fun a => s.carryBit (BitVec.ofNat 8 (a / 0x800000)) (a % 0x800000 / 0x10000)
/-- A remote write to a carry region is counted, logged and drops the pick (R68). -/
def State.remoteCarry (s : State) (a : Nat) : State :=
  let g : CoreId := BitVec.ofNat 8 (a / 0x800000)
  ((s.ccount g 0x338 1).logCore g 0x2004 (BitVec.ofNat 64 (a % 0x800000))).cause 0x09 g.toNat
/-- The places and bytes of line i of a WRITE. -/
def Header.lineOf (h : Header) (data : List Byte) (i : Nat) : List (Nat × Byte) :=
  let w := if h.masked then 72 else 64
  let mask := if h.masked then leAt data (w * i) 8 else 2 ^ 64 - 1
  let l := slice data (w * i + (w - 64)) 64
  (l.zipIdx.filter fun x => mask / 2 ^ x.2 % 2 == 1).map fun x => (x.2, x.1)
/-- The place of a packet's accesses in the order of R318, which names only transfers: behind those that start in the clk in which the
packet is delivered (DESIGN CHOICE, log entry 52). -/
def State.packetOrder (s : State) : Nat := s.now * 2048 + 2047
/-- The core whose beam a request names: its lines lie in one beam, because the end of each is reserve, which is refused. -/
def Header.target (h : Header) : CoreId := BitVec.ofNat 8 (h.addr / 0x800000)
/-- A WRITE delivered (R385, R397): its lines cross the mesh to the target core, land in remote slots and are written through SH_W;
its WRITE_ACK is owed once every one has been written. -/
def State.deliverWrite (s : State) (n : Sd) (h : Header) (data : List Byte) : State :=
  let g := h.target
  let beat := fun (x : Nat × Nat) =>
    ({ cls := .remote, dst := g, due := s.now + sdLat n g, order := s.packetOrder
       body := .packet n h.bytes ((h.lineOf data x.2).map fun e => (x.1 % 0x800000 + e.1, e.2)) } : Beat)
  let s1 := s.modCore g fun c => { c with beatsIn := c.beatsIn ++ h.lines.zipIdx.map beat }
  s1.setSd n { s1.sd n with writing := (s1.sd n).writing ++ [(h.bytes, h.nl)] }
/-- A READ_REQ delivered (R385, R397): its lines are read through SH_R of the target core from the clk after it gets there, and leave
in its remote slots for one READ_DATA. -/
def State.deliverRead (s : State) (n : Sd) (h : Header) : State :=
  let g := h.target
  let a0 := s.now + sdLat n g
  let offs := h.lines.flatMap fun a => (List.range 64).map fun i => a % 0x800000 + i
  s.addRun g { owner := .packet n (h.reply 0x11 h.nl).bytes, dest := .answer, order := s.packetOrder, chain := false, start := s.now
               into := offs, steps := shReads false offs a0 fun k places =>
                 { kind := .pass, port := 12, due := a0 + 4 + k, dst := places } }
/-- WRITE_PACKET (R68, R396, R397, R400). -/
def State.writePacket (s : State) (p : PortId) : State :=
  let n := sdOf p
  match s.takePacket p 0 1 with
  | none => s
  | some (h, data, s1) =>
    if s.transit h then s1.sendPacket n 0 h data
    else if s.stalePacket h then s1.countStale n
    else if h.lines.any s.refusedLine then s1.answerPacket n h 0x14 0 []
    else match s.carryLines h with
      | a :: _ => (s1.remoteCarry a).answerPacket n h 0x14 0 []
      | [] => s1.deliverWrite n h data
/-- READ_REQ (R397, R400): the lines are read through SH_R; a parity error is only counted (log entry 31). -/
def State.readReq (s : State) (p : PortId) : State :=
  let n := sdOf p
  match s.takePacket p 0 2 with
  | none => s
  | some (h, _, s1) =>
    if s.transit h then s1.sendPacket n 0 h []
    else if s.stalePacket h then s1.countStale n
    else if h.lines.any s.refusedLine then s1.answerPacket n h 0x14 0 []
    else s1.deliverRead n h
/-- SIGNAL (R286, R385, R397, R400): it crosses the mesh to the named knot; its SIGNAL_ACK sets out once it is applied. -/
def State.signalPacket (s : State) (p : PortId) : State :=
  let n := sdOf p
  match s.takePacket p 0 3 with
  | none => s
  | some (h, _, s1) =>
    let g : CoreId := BitVec.ofNat 8 (h.addr % 256)
    if s.transit h then s1.sendPacket n 0 h []
    else if s.stalePacket h then s1.countStale n
    else if !s.works g then s1.answerPacket n h 0x14 0 []
    else
      let x : KnotSig := { knot := h.addr / 256 % 1024, val := 1, pick := s.pickBits, src := .mesh, tr := none, step := none
                           pro := false, remote := some (n, (h.reply 0x13 0).bytes), due := s.now + sdLat n g }
      s1.modCore g fun c => { c with sigIn := c.sigIn ++ [x] }

/-! ## Responses (R312, R333, R395, R398) -/

/-- The tracker entry a response names. -/
def Header.owner (h : Header) : AckTo :=
  { core := BitVec.ofNat 8 h.tcore, entry := h.tentry, gen := BitVec.ofNat 32 h.tgen, pick := BitVec.ofNat 8 h.tpick }
/-- The first launched request of a transfer has been answered (R404): its responses come in the order of its requests (R395). What it
was a request for comes with it. -/
def State.answered (s : State) (n : Sd) (a : AckTo) : State × AckTo :=
  let l := (s.sd n).launched
  match l.find? fun (x : Launched) => { x.owner with part := 0 } == a with
  | some x => (s.setSd n { s.sd n with launched := l.erase x }, x.owner)
  | none => (s, a)
/-- A response reaches a core after its transfer has ended (R312). -/
def State.staleAt (s : State) (g : CoreId) : State := if s.works g then s.ccount g 0x804 1 else s
/-- A response of this package, of a type: the transfer it reaches, and the state without it; transit packets go on. -/
def State.response (s : State) (p : PortId) (type : Nat) (f : State → AckTo → List Byte → State) : State :=
  let n := sdOf p
  match s.takePacket p 1 type with
  | none => s
  | some (h, data, s1) =>
    if s.transit h then s1.sendPacket n 1 h data
    else
      let x := s1.answered n h.owner
      f x.1 x.2 data

/-- A line of a remote read (R316, R322, R323): the beats of its stream that are complete cross the mesh to the destination core. -/
def State.readLine (s : State) (n : Sd) (a : AckTo) (line : List Byte) : State :=
  match ((s.core a.core).trk a.entry).tr with
  | none => s
  | some t =>
    match t.reads with
    | (part, i) :: rest =>
      let l := s.leg a.core t part
      let offs := l.from'
      let ln := ((touchedLines offs [])[i]?).map (·.1)
      let new := (offs.zipIdx.filter fun e => some (e.1 / 64) == ln).map fun e => (e.2, line.getD (e.1 % 64) 0)
      let x := Run.beats (l.count / 64 + 1)
        { owner := .leg a t.shu, start := s.now, steps := [], into := l.into, next := t.gotNext, held := t.got ++ new }
      let bs := x.2.map fun b => b.map fun e => (l.into.getD e.1 0, e.2)
      let hd := l.dst.core a.core
      let order := match t.phase with | .started c => startOrder c a.core t.shu | _ => startOrder s.now a.core t.shu
      (s.modCore hd fun c => { c with beatsIn := c.beatsIn ++ bs.map fun b =>
        { cls := .remote, dst := hd, due := s.now + sdLat n hd, order := order
          body := .writes l.staged b (s.ackTo a.core a.entry t part) t.shu } }).modTr a.core a.entry fun t =>
            { t.owe part (if l.staged then stagedCount (bs.map fun b => b.map (·.1)) else bs.length) with
              reads := rest, got := x.1.held, gotNext := x.1.next }
    | [] => s
/-- READ_DATA (R312, R316): its lines in order. -/
def State.readData (s : State) (p : PortId) : State :=
  s.response p 0x11 fun s a data =>
    if s.live a then (List.range (data.length / 64)).foldl (fun s i => s.readLine (sdOf p) a (slice data (64 * i) 64)) s
    else s.staleAt a.core
/-- WRITE_ACK (R283, R285, R385, R398). -/
def State.writeAck (s : State) (p : PortId) : State :=
  s.response p 0x12 fun s a _ => if s.works a.core then
    s.modCore a.core fun c => { c with acksIn := c.acksIn ++ [{ ack := a, due := s.now + sdLat (sdOf p) a.core }] } else s
/-- SIGNAL_ACK (R385, R398): the transfer retires once it has crossed the mesh. -/
def State.signalAck (s : State) (p : PortId) : State :=
  s.response p 0x13 fun s a _ => s.cross (sdOf p) a.core (.signalAck a)
/-- REFUSED (R333, R385): the shuttle abandons the transfer once it has crossed the mesh. -/
def State.refusedPacket (s : State) (p : PortId) : State :=
  s.response p 0x14 fun s a _ => s.cross (sdOf p) a.core (.refused a)

/-! ## What has crossed the mesh (R385) -/

/-- A line of a WRITE packet has been written: with its last line the packet is acknowledged (R397). -/
def State.lineWritten (s : State) (n : Sd) (header : List Byte) : State :=
  let l := (s.sd n).writing
  match l.find? fun x => x.1 == header with
  | none => s
  | some x =>
    if 1 < x.2 then s.setSd n { s.sd n with writing := l.replace x (x.1, x.2 - 1) }
    else (s.setSd n { s.sd n with writing := l.erase x }).answerPacket n (parseHeader header) 0x12 0 []
/-- What has crossed arrives: a request is launched, an answer sent, a response reaches its shuttle (R312, R333, R398, R404). -/
def State.arrived (s : State) (n : Sd) (m : SdMsg) : State :=
  match m with
  | .request h data a => s.launch n (parseHeader h) data a
  | .answer h data => s.sendPacket n 1 (parseHeader h) data
  | .written h => s.lineWritten n h
  | .signalAck a => if s.live a then s.retireTransfer a.core a.entry else s.staleAt a.core
  | .refused a =>
    if s.live a || (s.core a.core).timedOut.any fun x => x.1 == { a with part := 0 } then s.linkFailed a 2 else s.staleAt a.core
/-- Everything of a die whose clk has come. -/
def State.crossClk (s : State) (n : Sd) : State :=
  let l := (s.sd n).crossing
  let here := l.filter fun x => x.1 ≤ s.now
  here.foldl (fun s x => s.arrived n x.2) (s.setSd n { s.sd n with crossing := l.filter fun x => s.now < x.1 })

/-- ROUTE_DOWN_CLEAR (R403). -/
def State.routeClear (s : State) (n : Sd) (pkg : Nat) : State :=
  let v := s.routeTo n pkg
  if s.answers (.slv n) && !s.anyRuns && fld v 6 4 < 6 && s.portState (portOf n (fld v 6 4)) == 5 then
    s.setReg (slv n (0x10000 + 8 * (pkg % 1024))) (putBit v 3 false)
  else s

/-- WRITE_PACKET. -/
def execWritePacket (p : PortId) (s : State) : Host.Outcome State Fault Refusal := .next (s.writePacket p)
/-- READ_REQ. -/
def execReadReq (p : PortId) (s : State) : Host.Outcome State Fault Refusal := .next (s.readReq p)
/-- SIGNAL_PACKET. -/
def execSignalPacket (p : PortId) (s : State) : Host.Outcome State Fault Refusal := .next (s.signalPacket p)
/-- READ_DATA. -/
def execReadData (p : PortId) (s : State) : Host.Outcome State Fault Refusal := .next (s.readData p)
/-- WRITE_ACK. -/
def execWriteAck (p : PortId) (s : State) : Host.Outcome State Fault Refusal := .next (s.writeAck p)
/-- SIGNAL_ACK. -/
def execSignalAck (p : PortId) (s : State) : Host.Outcome State Fault Refusal := .next (s.signalAck p)
/-- REFUSED. -/
def execRefused (p : PortId) (s : State) : Host.Outcome State Fault Refusal := .next (s.refusedPacket p)
/-- ROUTE_DOWN_CLEAR. -/
def execRouteDownClear (sd : Sd) (pkg : BitVec 10) (s : State) : Host.Outcome State Fault Refusal :=
  .next (s.routeClear sd pkg.toNat)

end Sys2Proof.Machine
end

