-- ==== Sys2Proof/Machine/Launch.lean ====
section
/-! DEFINITION. Weft discipline between packages (12 §12.9) and the barrier launch (12 §12.11). -/

namespace Sys2Proof.Machine

/-! ## TIME records (R407–R409) -/

/-- This package is the time root. -/
def State.timeRoot (s : State) : Bool := bit (s.getReg (hdl 0x110)) 0
/-- The upstream port of the time tree. -/
def State.timeUp (s : State) : PortId := Fin.ofNat 24 (fld (s.getReg (hdl 0x110)) 5 1)
/-- TIME_RECORD_SEND (R407). -/
def State.timeSend (s : State) (p : PortId) : State :=
  let x := s.port p
  if s.portState p = 5 ∧ 65536 ≤ s.since x.lastTimeSent then
    s.setPort p { x with lastTimeSent := s.getReg (hdl 0x00), ctrlOut := x.ctrlOut ++ [leBytes 1 1 ++ leBytes 8 s.weft] }
  else s
/-- HDL_TIME_STATUS set; a change of LOCK or HOLD is logged. -/
def State.setTime (s : State) (v : Dword) : State :=
  let old := s.getReg (hdl 0x114)
  let s1 := s.setReg (hdl 0x114) v
  if fld old 1 0 = fld v 1 0 then s1 else s1.logHdl 0x6003 0 v
/-- TIME_RECORD (R408, R409): the offset is to be slewed away, and moves LOCK; OFS shows its low 16 bits (DESIGN CHOICE, log entry 51). -/
def State.timeRecord (s : State) (p : PortId) : State :=
  match s.takeCtrl p 1 with
  | none => s
  | some (b, s1) =>
    if s.timeRoot || p != s.timeUp then s1
    else
      let off : Int := signed 64 ((leAt b 1 8 + s.portNs p + 2 ^ 64 - s.weft) % 2 ^ 64)
      let mag := off.natAbs
      let good := if mag ≤ 1 then s.heddle.goodRun + 1 else 0
      let bad := if 4 < mag then s.heddle.badRun + 1 else 0
      let lock := if 16 ≤ good then true else if 3 ≤ bad then false else bit (s.getReg (hdl 0x114)) 0
      let s2 := s1.modHeddle fun h =>
        { h with
          goodRun := min good 16, badRun := min bad 3, lastTime := s.getReg (hdl 0x00), timeOwed := off }
      s2.setTime (BitVec.ofNat 64 ((if lock then 1 else 0) + 2 ^ 16 * unsigned 16 off))
/-- TIME_HOLDOVER (R409). -/
def State.timeHoldover (s : State) : State :=
  if !s.timeRoot && 200000 ≤ s.since s.heddle.lastTime then
    s.setTime (putBit (s.getReg (hdl 0x114)) 1 true)
  else s
/-- A write of HDL_TIME_CFG (R407, R409): the time root reads LOCK = 1, and a package that becomes none starts unlocked. -/
def State.timeCfg (s : State) (val : Word) : State :=
  let root := bit val 0
  let was := s.timeRoot
  let s1 := s.setReg (hdl 0x110) (BitVec.ofNat 64 (if root then val.toNat &&& 0x101 else val.toNat &&& 0x13F))
  if root then s1.setTime 1
  else if was then (s1.modHeddle fun h => { h with goodRun := 0, badRun := 0, lastTime := s.getReg (hdl 0x00) }).setTime 0
  else s1

/-! ## The barrier (R416–R418, R511) -/

/-- HDL_BARRIER_CFG names an armed package. -/
def State.armed (s : State) : Bool := bit (s.getReg (hdl 0x120)) 0
/-- BARRIER_CFG_WRITE (R416, R511). -/
def State.barrierCfg (s : State) (val : Word) : State :=
  if !s.answers .hdl || s.active then s
  else
    let s1 := s.setReg (hdl 0x120) (BitVec.ofNat 64 (val.toNat) &&& 0xFFFF0001)
    if bit val 0 then s1.setReg (hdl 0x128) 0 else s1
/-- A BARRIER record: T and the remaining delay in 1/16 ns, two's complement. -/
def barrierRec (t : Nat) (rest : Int) : List Byte := leBytes 1 5 ++ leBytes 8 t ++ leBytes 4 (unsigned 32 rest)
/-- BARRIER_GO (R416, R454). -/
def State.barrierGo (s : State) (val : Word) : State :=
  if !s.answers .hdl || s.safe || !bit (s.getReg (hdl 0x108)) 0 || !s.armed then s
  else
    let tree := fld (s.getReg (hdl 0x120)) 31 16
    let t := s.weft + ceilDiv tree 16 + fld val 15 0 * 1000
    (s.toChildren (barrierRec t tree)).modHeddle fun h =>
      { h with barrier := some { t := BitVec.ofNat 64 t, fireAt := BitVec.ofNat 64 (s.weft + ceilDiv tree 16), early := false } }
/-- The fire of an armed package (R417): generation starts as if RUN had been written, or is refused; ARM clears. The time
lock is not asked for, because the launch itself aligns the counters (log entry 32). -/
def State.fire (s : State) (b : Barrier) : State :=
  let s0 := (s.modHeddle fun h => { h with barrier := none }).modReg (hdl 0x120) fun v => putBit v 0 false
  if !s.armed then s.modHeddle fun h => { h with barrier := none }
  else
    let early : Dword := if b.early then 4 else 0
    let s1 :=
      if s.weft < b.t.toNat then
        ((((s0.setWeft b.t.toNat).setReg (hdl 0x30) (BitVec.ofNat 64 (b.t.toNat + 10000))).runWith 4).modReg (hdl 0x128)
          fun v => v ||| 1 ||| early)
      else s0.modReg (hdl 0x128) fun v => v ||| 2 ||| early
    s1.logHdl 0x6004 0 (s1.getReg (hdl 0x128))
/-- BARRIER_FIRE (R417). -/
def State.barrierFire (s : State) : State :=
  match s.heddle.barrier with
  | some b => if s.reached b.fireAt then s.fire b else s
  | none => s
/-- BARRIER_RECORD (R417): the hop is subtracted and the record forwarded; a negative delay fires at once. -/
def State.barrierRecord (s : State) (p : PortId) : State :=
  match s.takeCtrl p 5 with
  | none => s
  | some (b, s1) =>
    let t := leAt b 1 8
    let rest := signed 32 (leAt b 9 4) - 16 * ((s.portNs p : Int) + 10)
    let s2 := s1.toChildren (barrierRec t rest)
    if !s.armed then s2
    else if rest < 0 then s2.fire { t := BitVec.ofNat 64 t, fireAt := s.getReg (hdl 0x00), early := true }
    else s2.modHeddle fun h =>
      { h with barrier := some { t := BitVec.ofNat 64 t, fireAt := BitVec.ofNat 64 (s.weft + ceilDiv rest.toNat 16)
                                 early := false } }

/-- TIME_RECORD_SEND. -/
def execTimeRecordSend (p : PortId) (s : State) : Host.Outcome State Fault Refusal := .next (s.timeSend p)
/-- TIME_RECORD. -/
def execTimeRecord (p : PortId) (s : State) : Host.Outcome State Fault Refusal := .next (s.timeRecord p)
/-- TIME_HOLDOVER. -/
def execTimeHoldover (s : State) : Host.Outcome State Fault Refusal := .next s.timeHoldover
/-- BARRIER_CFG_WRITE. -/
def execBarrierCfgWrite (val : Word) (s : State) : Host.Outcome State Fault Refusal := .next (s.barrierCfg val)
/-- BARRIER_GO. -/
def execBarrierGo (val : Word) (s : State) : Host.Outcome State Fault Refusal := .next (s.barrierGo val)
/-- BARRIER_RECORD. -/
def execBarrierRecord (p : PortId) (s : State) : Host.Outcome State Fault Refusal := .next (s.barrierRecord p)
/-- BARRIER_FIRE. -/
def execBarrierFire (s : State) : Host.Outcome State Fault Refusal := .next s.barrierFire

end Sys2Proof.Machine
end

