-- ==== Sys2Proof/Machine/HostPort.lean ====
section
/-! DEFINITION. The PCIe functions of the Treadle dies (11 §11.1, §11.2, §11.8): links up and down, resets, detach,
configuration requests and poisoned writes. The configuration header itself is that of PCI Express; what the model keeps of
it is what the OZ40 uses (log entry 34). -/

namespace Sys2Proof.Machine

/-- The spools of a function. -/
def State.fnSpools (s : State) (td : Td) (f : Fn) : List SpoolId := allSpools.filter fun sp => s.fnOf td sp == f
/-- A function changed. -/
def State.modFn (s : State) (td : Td) (f : Fn) (g : PcieFn → PcieFn) : State := s.setFn td f (g (s.fn td f))

/-! ## Detach (R371–R373) -/

/-- One spool at the detach of its function: after a link loss or reset no read is answered any more (causes 1 to 3), after Bus Master
Enable is cleared those that are open are answered and not wanted (R338, R350). -/
def State.detachSpool (s : State) (td : Td) (cause : Nat) (sp : SpoolId) : State :=
  let s0 := (s.setSreg td sp 0x14 0).modSpool td sp fun x => if cause = 4 then x.stopReads else { x.stopReads with reads := [] }
  let s1 := s0.abortWaiting td sp
  let outs := (s1.spool td sp).bolts.filter fun b => b.phase == .started && b.hdr.op == 3
  let s2 := outs.foldl (fun s b => s.endOut td sp b 11) s1
  let lands := (s2.spool td sp).bolts.filter fun b => b.phase == .started && b.hdr.lands
  let s3 := lands.foldl (fun s b => s.failLand td sp b) s2
  let n := (s3.spool td sp).order.length + (s3.spool td sp).reports.length
  let s4 := (List.range n).foldl (fun s _ => s.ticketWrite td sp) s3
  s4.modReg (spoolReg td sp 0x24) fun v => putBit (putFld v 1 0 0) 2 false
/-- A function is detached (R371): 1 link down, 2 reset or link disable, 3 FLR, 4 Bus Master Enable cleared. -/
def State.detach (s : State) (td : Td) (f : Fn) (cause : Nat) : State :=
  ((s.fnSpools td f).foldl (fun s sp => s.detachSpool td cause sp) s).logTd td 0x5002 f.val (BitVec.ofNat 64 cause)
/-- PCIE_LINK_DOWN (R371). -/
def State.linkDown (s : State) (td : Td) (f : Fn) : State :=
  if (s.fn td f).up then
    (s.modFn td f fun x => { x with up := false }).detach td f 1
  else s

/-! ## Resets (R341, R503) -/

/-- The settings of a function that its port's reset returns to their reset values. -/
def State.resetFn (s : State) (td : Td) (f : Fn) : State :=
  let s1 := s.setFn td f {}
  let s2 := (s.fnSpools td f).foldl (fun s sp =>
    ([0x00, 0x08, 0x10, 0x14] : List Nat).foldl (fun s o => s.setReg (spoolReg td sp o) 0) s) s1
  let lo := trd td (0x100000 + 0x20000 * f.val)
  let s3 := s2.setReg (trd td (0x1C + 4 * f.val)) 0
  { s3 with regs := sdrop (fun a => lo ≤ a && a < lo + 0x8100) s3.regs }
/-- A function whose link goes down with its port's reset, detached. -/
def State.resetDetach (s : State) (td : Td) (f : Fn) (cause : Nat) : State :=
  let up := (s.fn td f).up
  let s1 := s.modFn td f fun x => { x with up := false }
  (if up then s1.detach td f cause else s1).resetFn td f
/-- Functions that a Treadle die presents (R337). -/
def State.fnsOf (s : State) (td : Td) : List Fn := if s.bifurcated td then [0, 1] else [0]
/-- A PERSTn_N pin. -/
def State.setPerst (s : State) (td : Td) (high : Bool) : State :=
  { s with pins := if td = 0 then { s.pins with perst0 := high } else { s.pins with perst1 := high } }
/-- A PERSTn_N pin's level. -/
def State.perst (s : State) (td : Td) : Bool := if td = 0 then s.pins.perst0 else s.pins.perst1
/-- PCIE_FUNDAMENTAL_RESET (R341): PERSTn_N falls. -/
def State.fundamentalReset (s : State) (td : Td) : State :=
  (s.fnsOf td).foldl (fun s f => s.resetDetach td f 2) (s.setPerst td false)

/-! ## Links and configuration (R337–R342) -/

/-- The Treadle die runs: from power-on step 5, or, of TD0 function a, in recovery (R444). -/
def State.tdRuns (s : State) (td : Td) (f : Fn) : Bool :=
  if s.power.recovery then td == 0 && f == 0
  else match s.power.seq with
    | .powerOn n => 5 < n
    | _ => 2 ≤ s.pwrState
/-- PCIE_LINK_UP (R337, R338): 16, 32 or 64 GT/s at a width the link may have. -/
def State.linkUp (s : State) (td : Td) (f : Fn) (rate : Nat) (width : BitVec 5) : State :=
  let w := width.toNat
  let two := s.bifurcated td && !s.power.recovery
  let okay := [1, 4, 8].contains w || (w == 16 && !two)
  if s.tdRuns td f && s.perst td && (f == 0 || two) && okay && !(s.fn td f).up then
    s.modFn td f fun x => { x with up := true, rate := Fin.ofNat 4 (rate + 1), width := width }
  else s
/-- Copy selection has ended (R340). -/
def State.copySelected (s : State) : Bool := bit (s.getReg (tpl 0x10)) 16
/-- The identities of a function (R339): Vendor, Device, Class Code, Revision, Subsystem Vendor and Subsystem IDs. -/
def State.identities (s : State) : List Nat :=
  let f := s.temple.fuses
  let x := s.temple.settings
  [Config.vendorId.toNat, if f.oz240 then 0x0D41 else 0x0D40, 0x120000, f.rev.toNat, x.ssvid.toNat, x.ssid.toNat]
/-- What a configuration write does to a function. -/
def PcieFn.configure (x : PcieFn) : ConfigOp → PcieFn
  | .read => x
  | .busMaster => { x with bme := true }
  | .barSize n => { x with bar0Log := 30 + n.val }
  | .deviceControl a b r => { x with mps := 128 * 2 ^ a.val, mrrs := 128 * 2 ^ b.val, relaxed := r }
  | .msixControl e m => { x with msixEn := e, msixMask := m }
  | .completionTimeout r o => { x with ctoRange := r, ctoOff := o }
  | .ecrc g c => { x with ecrcGen := g, ecrcCheck := c }
  | .aer m v => { x with aerMask := m, aerSev := v }
/-- A function that a configuration write leaves enabled and not masked sends what was pending (PRESUMED, log entry 33). -/
def State.flushMsix (s : State) (td : Td) (f : Fn) : ConfigOp → State
  | .msixControl true false => (List.range 2048).foldl (fun s vec => s.unmask td f vec) s
  | _ => s
/-- What the MSI-X capability of a function names (R344): BAR0, and the offsets of the table and of the Pending Bit Array under the
current BAR0 size (Table 11.2). -/
def State.msixCap (s : State) (td : Td) (f : Fn) : List Nat :=
  let at' := fun (a : Nat) => a - (2 ^ 32 - 2 ^ (s.fn td f).bar0Log)
  [0, at' (msixEntry td f 0), at' (msixPba td f 0)]
/-- CONFIG_REQUEST (R340). -/
def State.configRequest (s : State) (td : Td) (f : Fn) (op : ConfigOp) : State :=
  if !(s.fn td f).up then s
  else if !s.copySelected then s.emit (.configAnswer td f none)
  else
    let s1 := (s.modFn td f fun x => x.configure op).flushMsix td f op
    s1.emit (.configAnswer td f (some (s.identities, s1.msixCap td f)))
/-- BUS_MASTER_CLEAR (R371). -/
def State.busMasterClear (s : State) (td : Td) (f : Fn) : State :=
  let s1 := s.modFn td f fun x => { x with bme := false }
  if !(s.fn td f).up || !s.copySelected then s
  else if (s.fnSpools td f).any fun sp => s.spoolState td sp != 0 then s1.detach td f 4 else s1
/-- POISONED_WRITE (R367): discarded, reported and logged. -/
def State.poisonedWrite (s : State) (td : Td) (f : Fn) : State :=
  if (s.fn td f).up then (s.aerReport td f true).logTd td 0x5004 0 0 else s

/-- PCIE_LINK_DOWN. -/
def execPcieLinkDown (td : Td) (fn : Fn) (s : State) : Host.Outcome State Fault Refusal := .next (s.linkDown td fn)
/-- PCIE_FUNDAMENTAL_RESET. -/
def execPcieFundamentalReset (td : Td) (s : State) : Host.Outcome State Fault Refusal := .next (s.fundamentalReset td)
/-- HOT_RESET. -/
def execHotReset (td : Td) (fn : Fn) (s : State) : Host.Outcome State Fault Refusal := .next (s.resetDetach td fn 2)
/-- LINK_DISABLE. -/
def execLinkDisable (td : Td) (fn : Fn) (s : State) : Host.Outcome State Fault Refusal := .next (s.resetDetach td fn 2)
/-- FUNCTION_LEVEL_RESET. -/
def execFunctionLevelReset (td : Td) (fn : Fn) (s : State) : Host.Outcome State Fault Refusal :=
  .next (s.resetDetach td fn 3)
/-- BUS_MASTER_CLEAR. -/
def execBusMasterClear (td : Td) (fn : Fn) (s : State) : Host.Outcome State Fault Refusal := .next (s.busMasterClear td fn)
/-- PCIE_LINK_UP. -/
def execPcieLinkUp (td : Td) (fn : Fn) (rate : Fin 3) (width : BitVec 5) (s : State) : Host.Outcome State Fault Refusal :=
  .next (s.linkUp td fn rate.val width)
/-- CONFIG_REQUEST. -/
def execConfigRequest (td : Td) (fn : Fn) (op : ConfigOp) (s : State) : Host.Outcome State Fault Refusal :=
  .next (s.configRequest td fn op)
/-- POISONED_WRITE. -/
def execPoisonedWrite (td : Td) (fn : Fn) (s : State) : Host.Outcome State Fault Refusal := .next (s.poisonedWrite td fn)

end Sys2Proof.Machine
end

