-- ==== Sys2Proof/Machine/Overseer.lean ====
section
/-! DEFINITION. The Overseer (14 §14.1, §14.2): comparator, faults, resync, SAFE, self-test, halts; the event logs and the
error interrupt (14 §14.3, §14.4). -/

namespace Sys2Proof.Machine

/-! ## Faults and SAFE (R449–R454) -/

/-- STATE of HDL_OVS_STATUS set. -/
def State.ovsState (s : State) (n : Nat) : State := s.modReg (hdl 0x1000) fun v => putFld v 1 0 n
/-- A fault recorded (Table 14.2): LAST, the first fault, its counter, its event. 1 SUPERVISOR_DIVERGE, 2 DELAY_PARITY,
3 COMPARATOR_STUCK. -/
def State.ovsRecord (s : State) (kind b : Nat) : State :=
  let s1 := s.modReg (hdl 0x1000) fun v => putFld v 7 4 kind
  let s2 := if bit (s1.getReg (hdl 0x1008)) 2 then s1
    else s1.setReg (hdl 0x1008) (BitVec.ofNat 64 (kind + 4 + 2 ^ 8 * (b % 256) + 2 ^ 32 * s.pickNum.toNat))
  let s3 := if kind = 1 then s2.count (hdl 0x1010) 1 else if kind = 2 then s2.count (hdl 0x1014) 1 else s2
  s3.logOvs (0x8800 + kind) 0 (s3.getReg (hdl 0x1008))
/-- SAFE is entered (R454): RUN falls, and what the end of the last pick does is done at once when no pick runs. `again`
says it is under R452 or on checkpoint parity. -/
def State.enterSafe (s : State) (again : Bool) : State :=
  if s.safe then s
  else
    let s1 := s.ovsState 2
    let s2 := if again then s1.logOvs 0x8804 0 (s1.getReg (hdl 0x1008)) else s1
    let s3 := s2.setReg (hdl 0x20) 0
    match s.heddle.phase with
    | .stopped | .waiting => s3.endPicks
    | _ => s3
/-- SUPERVISOR_DIVERGE or DELAY_PARITY (R450–R452). -/
def State.ovsFault (s : State) (kind b : Nat) : State :=
  let s1 := s.ovsRecord kind b
  if s.safe then s1
  else
    let o := s.overseer
    let picks := true :: o.faultPicks.drop 1
    let n := picks.countP fun x => x
    let s2 := { s1 with overseer := { o with resync := true, resyncEnded := false, faultNow := true, faultPicks := picks, again := [] } }
    let s3 := (s2.modReg (hdl 0x1000) fun v => putFld v 12 8 n).ovsState 1
    let s4 := if s3.heddle.phase == .window && s3.heddle.vote == .none then s3.voteLate else s3
    if 3 ≤ n then s4.enterSafe true else s4
/-- The lowest bit of a bundle that is 1. -/
def lowBit (v : BitVec 256) : Nat := ((List.range 256).find? fun i => v.getLsbD i).getD 0
/-- Equal bundles (R446, R453): the outputs leave, behind those of a self-test's cycle; those of the cycle of a self-test that has
passed wait for the next cycle. -/
def State.ovsRelease (s : State) (out : BitVec 256) : State :=
  let l := s.overseer.again ++ [out]
  if s.overseer.testAt = some (s.getReg (hdl 0x00)) then { s with overseer := { s.overseer with again := l } }
  else { s with overseer := { s.overseer with again := [] }, out := s.out ++ l.map .overseer }
/-- OVERSEER_COMPARE (R445, R446, R449, R453): one Overseer cycle. -/
def State.compare (s : State) (oa ob : BitVec 256) (bad : Option Byte) : State :=
  let o := s.overseer
  let out := o.delay.headD 0
  let s1 := { s with overseer := { o with delay := o.delay.drop 1 ++ [oa] } }
  if o.resync && !o.resyncEnded then s1
  else match bad with
    | some r => s1.ovsFault 2 r.toNat
    | none => if out = ob then s1.ovsRelease out else s1.ovsFault 1 (lowBit (out ^^^ ob))
/-- RESYNC_END (R450, R451): a fell voted READY and not decided becomes unresolved; bad parity of the checkpoint is SAFE. -/
def State.resyncEnd (s : State) (bad : Bool) : State :=
  let o := s.overseer
  if !o.resync || o.resyncEnded then s
  else
    let s1 := { s with overseer := { o with resyncEnded := true } }
    let s2 := if s.curPick.isSome && s.heddle.vote == .ready && !s.heddle.decided then s1.unresolve else s1
    if bad then s2.enterSafe true else s2
/-- COMPARATOR_SELFTEST (R453): the bits the comparator reports for an inverted bit k. -/
def State.selftest (s : State) (reported : BitVec 256) : State :=
  if !s.weftRuns || s.weft % 1000000 != 0 then s
  else
    let k := (s.getReg (hdl 0x1018)).toNat % 256
    let s1 := s.countWrap (hdl 0x1018) 1
    if !reported.getLsbD k then (s1.ovsRecord 3 k).enterSafe false
    else
      let more := reported &&& ~~~(BitVec.ofNat 256 (2 ^ k))
      if more = 0 then { s1 with overseer := { s1.overseer with testAt := some (s.getReg (hdl 0x00)) } }
      else s1.ovsFault 1 (lowBit more)
/-- OVS_HALT (R448): code 0x80. -/
def State.ovsHalt (s : State) (val : Word) : State :=
  let g : CoreId := BitVec.ofNat 8 (fld val 7 0)
  if s.answers .hdl && bit val 31 && s.works g && s.runs g then s.halt g 0x80 0 0 0 else s

/-! ## Event logs (R455–R457) -/

/-- Events in the order of R456: those of one ns by SRC, then by CODE. -/
def eventOrder (l : List Event) : List Event :=
  let key := fun (e : Event) => (e.weft.toNat * 2 ^ 16 + e.src.toNat) * 2 ^ 16 + e.code.toNat
  l.mergeSort fun a b => key a ≤ key b
/-- A log register of a die. -/
def logReg (d : LogDie) (o : Nat) : Nat := (logBlock d).base + 0x7F000 + o
/-- LOG_QUEUE_ENTER (R456): the events of the ns enter the queue, and those that find it full are lost. -/
def State.logEnter (s : State) (d : LogDie) : State :=
  let l := s.log d
  let fit := Config.logQueueCap - l.queue.length
  (s.setLog d { l with now := [], queue := l.queue ++ (eventOrder l.now).take fit }).count (logReg d 0xC) (l.now.length - fit)
/-- A log entry (Table 14.4). -/
def Event.bytes (e : Event) (seq : Nat) : List Byte :=
  leBytes 8 e.weft.toNat ++ leBytes 2 e.code.toNat ++ leBytes 2 e.src.toNat ++ leBytes 4 e.pick.toNat ++
    leBytes 2 e.epoch.toNat ++ leBytes 2 e.aux.toNat ++ leBytes 4 seq ++ leBytes 8 e.data.toNat
/-- LOG_ENTRY_WRITE (R456, R457): the oldest event, no more than one in 16 ns and none in the ns of its detection. -/
def State.logWrite (s : State) (d : LogDie) : State :=
  let l := s.log d
  match l.queue with
  | [] => s
  | e :: t =>
    let soon := match l.lastWrite with | some w => s.since w < 16 | none => false
    if soon || e.weft.toNat == s.weft then s
    else
      let seq := (s.getReg (logReg d 0)).toNat
      let full := 1024 ≤ sub32 seq (s.getReg (logReg d 4)).toNat
      let s1 := s.setBytes ((logBlock d).base + 0x80000 + seq % 1024 * 32) (e.bytes seq)
      let s2 := (s1.count (logReg d 8) (if full then 1 else 0)).countWrap (logReg d 0) 1
      { s2.setLog d { l with queue := t, lastWrite := some (s.getReg (hdl 0x00)) } with
        statusDue := s2.statusDue ++ [e.code] }

/-! ## HDL_ERR_STATUS and the error interrupt (R458) -/

/-- The error interrupt: one message from each function whose vector is enabled (R345). -/
def State.errorInterrupt (s : State) : State :=
  ([0, 1] : List Td).foldl (fun s td => (s.fnsOf td).foldl (fun s f =>
    let v := s.getReg (trd td (0x1C + 4 * f.val))
    if bit v 31 then s.sendMsix td f (fld v 10 0) else s) s) s
/-- The enabled class bits that are set. -/
def State.errPending (s : State) : Dword := s.getReg (hdl 0x1020) &&& s.getReg (hdl 0x1024) &&& 0xFFF
/-- ERROR_STATUS_SET (R458): the class bit and ALARM of the oldest event entered in a log. -/
def State.errorSet (s : State) : State :=
  match s.statusDue with
  | [] => s
  | code :: t =>
    let alarm := bit code 11
    let was := s.errPending
    let s1 := ({ s with statusDue := t }).modReg (hdl 0x1020) fun v =>
      let w := putBit v (fld code 15 12) true
      if alarm then putBit w 15 true else w
    if alarm || (was == 0 && s1.errPending != 0) then s1.errorInterrupt else s1
/-- A write of HDL_ERR_EN (R458). -/
def State.errEnable (s : State) (val : Dword) : State :=
  let was := s.errPending
  let s1 := s.setReg (hdl 0x1024) (val &&& 0xFFF)
  if was == 0 && s1.errPending != 0 then s1.errorInterrupt else s1

/-- OVERSEER_COMPARE. -/
def execOverseerCompare (oa ob : BitVec 256) (delayBad : Option Byte) (s : State) : Host.Outcome State Fault Refusal :=
  .next (s.compare oa ob delayBad)
/-- RESYNC_END. -/
def execResyncEnd (checkpointBad : Bool) (s : State) : Host.Outcome State Fault Refusal := .next (s.resyncEnd checkpointBad)
/-- COMPARATOR_SELFTEST. -/
def execComparatorSelftest (reported : BitVec 256) (s : State) : Host.Outcome State Fault Refusal :=
  .next (s.selftest reported)
/-- OVS_HALT. -/
def execOvsHalt (val : Word) (s : State) : Host.Outcome State Fault Refusal := .next (s.ovsHalt val)
/-- LOG_QUEUE_ENTER. -/
def execLogQueueEnter (d : LogDie) (s : State) : Host.Outcome State Fault Refusal := .next (s.logEnter d)
/-- LOG_ENTRY_WRITE. -/
def execLogEntryWrite (d : LogDie) (s : State) : Host.Outcome State Fault Refusal := .next (s.logWrite d)
/-- ERROR_STATUS_SET. -/
def execErrorStatusSet (s : State) : Host.Outcome State Fault Refusal := .next s.errorSet

end Sys2Proof.Machine
end

