-- ==== Sys2Proof/Machine/Temple.lean ====
section
/-! DEFINITION. The configuration copies of the Temple die (13 §13.7): the flash and its operations, the tests of a copy,
the selection, and the device settings. SHA-384, ECDSA P-384 and CRC-32C are the standard functions the chapter names. -/

namespace Sys2Proof.Machine

/-! ## The flash (R438, R441) -/

/-- A flash byte; an unlisted one is erased (log entry 35). -/
def State.flashByte (s : State) (a : Nat) : Byte := sget (fun _ => 0xFF) s.temple.flash a
/-- A flash byte set. -/
def State.setFlash (s : State) (a : Nat) (b : Byte) : State :=
  { s with temple := { s.temple with flash := sset (fun _ => 0xFF) s.temple.flash a b } }
/-- Bytes of the flash. -/
def State.flashBytes (s : State) (a n : Nat) : List Byte := (List.range n).map fun i => s.flashByte (a + i)
/-- n flash bytes from an address take free values (log entry 3): what a failed or stopped operation leaves. -/
def State.freeFlash (s : State) (a n : Nat) : State :=
  let s1 := (List.range n).foldl (fun s i => s.setFlash (a + i) (BitVec.ofNat 8 (Config.freeValue (s.free + i)).toNat)) s
  { s1 with free := s.free + n }
/-- The base of a copy: false A, true B. -/
def copyBase (b : Bool) : Nat := if b then 0x800000 else 0
/-- The bytes [a, a + n) touch the selected copy. -/
def State.touchesSelected (s : State) (a n : Nat) : Bool :=
  let sel := fld (s.getReg (tpl 0x10)) 1 0
  (sel == 1 && a < 0x800000) || (sel == 2 && 0x800000 < a + n)
/-- A shutdown is under way (R481, R513). -/
def State.shuttingDown (s : State) : Bool :=
  match s.power.seq with
  | .phaseA _ => true
  | .phaseB _ _ => true
  | _ => false
/-- A flash operation is refused (R441, R513). -/
def State.flashRefused (s : State) (op addr len : Nat) : Bool :=
  let badLen := len == 0 || 4096 < len
  s.shuttingDown ||
    match op with
    | 1 => badLen
    | 2 => badLen || (addr / 256 != (addr + len - 1) / 256) || s.touchesSelected addr len
    | _ => addr % 0x10000 != 0 || s.touchesSelected addr 0x10000
/-- A write of TPL_FLASH_CTRL with GO = 1 (R441). -/
def State.flashGo (s : State) (op : Nat) : State :=
  let addr := fld (s.getReg (tpl 0x404)) 23 0
  let len := fld (s.getReg (tpl 0x408)) 12 0
  if !s.answers .tpl || bit (s.getReg (tpl 0x40C)) 0 then s
  else if s.flashRefused op addr len then s.modReg (tpl 0x40C) fun v => putBit v 1 true
  else
    let s1 := s.modReg (tpl 0x40C) fun v => putBit v 0 true
    { s1 with temple := { s1.temple with busy := some { op := op, addr := addr, len := len } } }
/-- What a completed operation does; a byte above the 16 MiB that the Temple die uses reads as a free value. -/
def State.flashEffect (s : State) (x : FlashOp) (fail : Bool) : State :=
  match x.op with
  | 1 =>
    let s1 := (List.range x.len).foldl (fun s i =>
      let b := if x.addr + i < 0x1000000 then s.flashByte (x.addr + i)
        else BitVec.ofNat 8 (Config.freeValue (s.free + i)).toNat
      s.setByte (flashBuf + i) b) s
    { s1 with free := s.free + x.len }
  | 2 =>
    if fail then s.freeFlash x.addr x.len
    else (List.range x.len).foldl (fun s i => s.setFlash (x.addr + i) (s.byte (flashBuf + i))) s
  | _ =>
    if fail then s.freeFlash x.addr 0x10000
    else { s with temple := { s.temple with flash := sdrop (fun a => x.addr ≤ a && a < x.addr + 0x10000) s.temple.flash } }
/-- ERR sets, and is logged (R441, R459). -/
def State.flashErr (s : State) : State :=
  (s.modReg (tpl 0x40C) fun v => putBit v 2 true).logTpl 0xA004 0 (s.getReg (tpl 0x404))
/-- FLASH_OP_DONE (R441). -/
def State.flashDone (s : State) (fail : Bool) : State :=
  match s.temple.busy with
  | none => s
  | some x =>
    let s1 := s.flashEffect x fail
    let s2 := (if fail && x.op != 1 then s1.flashErr else s1).modReg (tpl 0x40C) fun v => putBit v 0 false
    { s2 with temple := { s2.temple with busy := none } }
/-- Phase A step 4 (R481): an erase in progress stops, what its block then holds is free. -/
def State.flashStop (s : State) : State :=
  match s.temple.busy with
  | some x =>
    if x.op = 3 then
      let s1 := (s.freeFlash x.addr 0x10000).modReg (tpl 0x40C) fun v => putBit v 0 false
      { s1 with temple := { s1.temple with busy := none } }
    else s
  | none => s

/-! ## ECDSA over P-384 (R439) -/

/-- The prime of the field. -/
def p384 : Nat := 2 ^ 384 - 2 ^ 128 - 2 ^ 96 + 2 ^ 32 - 1
/-- The order of the base point. -/
def n384 : Nat :=
  0xffffffffffffffffffffffffffffffffffffffffffffffffc7634d81f4372ddf581a0db248b0a77aecec196accc52973
/-- The coefficient b of the curve y² = x³ − 3x + b. -/
def b384 : Nat :=
  0xb3312fa7e23ee7e4988e056be3f82d19181d9c6efe8141120314088f5013875ac656398d8a2ed19d2a85c8edd3ec2aef
/-- The base point. -/
def g384 : Nat × Nat :=
  (0xaa87ca22be8b05378eb1c71ef320ad746e1d3b628ba79b9859f741e082542a385502f25dbf55296c3a545e3872760ab7,
   0x3617de4a96262c6f5d9e98bf9292dc29f8f41dbd289a147ce9da3113b5f0b8c00a60b1ce1d7e819d7a431d7c90ea0e5f)
/-- a to the power of the number whose bits, most significant first, are listed, mod m. -/
def powMod (m a : Nat) : List Bool → Nat → Nat
  | [], acc => acc
  | b :: t, acc => powMod m a t (let x := acc * acc % m; if b then x * a % m else x)
/-- The 384 bits of a number, most significant first. -/
def bits384 (k : Nat) : List Bool := (List.range 384).map fun i => k / 2 ^ (383 - i) % 2 == 1
/-- The inverse of a modulo a prime (Fermat). -/
def invMod (m a : Nat) : Nat := powMod m a (bits384 (m - 2)) 1
/-- The sum of two points; none is the point at infinity. -/
def ecAdd : Option (Nat × Nat) → Option (Nat × Nat) → Option (Nat × Nat)
  | none, q => q
  | p, none => p
  | some (x1, y1), some (x2, y2) =>
    if x1 = x2 ∧ (y1 + y2) % p384 = 0 then none
    else
      let num := if x1 = x2 then 3 * x1 * x1 + p384 - 3 else y2 + p384 - y1
      let den := if x1 = x2 then 2 * y1 % p384 else (x2 + p384 - x1) % p384
      let l := num * invMod p384 den % p384
      let x3 := (l * l + 2 * p384 - x1 - x2) % p384
      some (x3, (l * (x1 + p384 - x3) + p384 - y1) % p384)
/-- A multiple of a point, by the bits of the factor. -/
def ecMul (p : Nat × Nat) : List Bool → Option (Nat × Nat) → Option (Nat × Nat)
  | [], acc => acc
  | b :: t, acc => ecMul p t (let d := ecAdd acc acc; if b then ecAdd d (some p) else d)
/-- An uncompressed point of the curve. -/
def parseKey (l : List Byte) : Option (Nat × Nat) :=
  let x := beNat (slice l 1 48)
  let y := beNat (slice l 49 48)
  if l.length = 97 ∧ l.head? = some 4 ∧ x < p384 ∧ y < p384 ∧ (y * y + 3 * x) % p384 = (x * x * x + b384) % p384 then
    some (x, y)
  else none
/-- The signature (r, s) is valid for the key over the hash. -/
def ecdsaValid (key : Nat × Nat) (r t : Nat) (hash : List Byte) : Bool :=
  if r = 0 ∨ n384 ≤ r ∨ t = 0 ∨ n384 ≤ t then false
  else
    let w := invMod n384 t
    let u := beNat hash * w % n384
    let v := r * w % n384
    match ecAdd (ecMul g384 (bits384 u) none) (ecMul key (bits384 v) none) with
    | some (x, _) => x % n384 == r
    | none => false

/-! ## Copies (Tables 13.7–13.9, R439) -/

/-- A directory item: type, offset, length. -/
structure Item where
  type : Nat
  off : Nat
  len : Nat
deriving DecidableEq, Repr

/-- The directory of a copy. -/
def directory (hdr : List Byte) : List Item :=
  (List.range (leAt hdr 0x10 2)).map fun i =>
    { type := leAt hdr (0x40 + 16 * i) 2, off := leAt hdr (0x44 + 16 * i) 4, len := leAt hdr (0x48 + 16 * i) 4 }
/-- The header tests of an intact copy (R439, the first three points). -/
def headerOk (hdr : List Byte) : Bool :=
  let len := leAt hdr 0x0C 4
  let n := leAt hdr 0x10 2
  let items := directory hdr
  slice hdr 0 4 == [0x4F, 0x5A, 0x43, 0x46] && leAt hdr 4 2 == 1 && 4096 ≤ len && len ≤ 8388604 && len % 4 == 0 &&
    1 ≤ n && n ≤ 252 && (items.all fun i => i.off + i.len ≤ len && 1 ≤ i.type && i.type ≤ 5) &&
    (([1, 2, 3, 4, 5] : List Nat).all fun t => (items.countP fun i => i.type == t) == 1)
/-- The CRC test of a copy whose header is valid. -/
def State.copyCrc (s : State) (b : Bool) (hdr : List Byte) : Bool :=
  let len := leAt hdr 0x0C 4
  (crc32c (s.flashBytes (copyBase b) len)).toNat == leNat (s.flashBytes (copyBase b + len) 4)
/-- The bytes of the one item of a type. -/
def State.copyItem (s : State) (b : Bool) (hdr : List Byte) (type : Nat) : List Byte :=
  match (directory hdr).find? fun i => i.type == type with
  | some i => s.flashBytes (copyBase b + i.off) i.len
  | none => []
/-- The count of 1 bits of a number below 2^64. -/
def ones (v : Dword) : Nat := (List.range 64).countP fun i => v.getLsbD i
/-- The signature and SVN tests of an intact copy. -/
def State.copySigned (s : State) (b : Bool) (hdr : List Byte) : Bool :=
  let block := s.copyItem b hdr 5
  let body := ([1, 2, 3, 4] : List Nat).flatMap fun t => s.copyItem b hdr t
  let key := slice block 0 97
  let keyHash : BitVec 384 := BitVec.ofNat 384 (leNat (sha384 key))
  keyHash == s.temple.fuses.keyHash && ones s.temple.fuses.svn ≤ leAt (s.copyItem b hdr 4) 0 4 &&
    match parseKey key with
    | some q => ecdsaValid q (beNat (slice block 97 48)) (beNat (slice block 145 48)) (sha384 body)
    | none => false
/-- The state of a copy, as far as the intact tests go: 0 intact, 1 header, 2 CRC (Table 13.10). -/
def State.copyState (s : State) (b : Bool) : Nat :=
  let hdr := s.flashBytes (copyBase b) 4096
  if !headerOk hdr then 1 else if !s.copyCrc b hdr then 2 else 0
/-- SEQ of a copy, 0 where its header fails. -/
def State.copySeq (s : State) (b : Bool) : Nat :=
  let hdr := s.flashBytes (copyBase b) 4096
  if headerOk hdr then leAt hdr 8 4 else 0
/-- A copy is verified. -/
def State.copyVerified (s : State) (b : Bool) : Bool := s.copySigned b (s.flashBytes (copyBase b) 4096)
/-- The order in which the intact copies are tried (R440). -/
def copyOrder (aOk bOk : Bool) (seqA seqB : Nat) : List Bool :=
  match aOk, bOk with
  | true, true => if 2 ^ 31 < (seqA + 2 ^ 32 - seqB) % 2 ^ 32 then [true, false] else [false, true]
  | true, false => [false]
  | false, true => [true]
  | false, false => []
/-- The device settings item's fields (Tables 13.9, 15.9), each at its default where the item ends before it. -/
def parseSettings (l : List Byte) : Settings :=
  let f := fun (i n d : Nat) => if i + n ≤ l.length then leAt l i n else d
  let therm := f 76 1 110
  { bif0 := f 4 1 0 % 2 == 1, bif1 := f 4 1 0 / 2 % 2 == 1
    ssvid := BitVec.ofNat 16 (f 8 2 0), ssid := BitVec.ofNat 16 (f 10 2 0)
    pwrW := f 64 2 1650, pwrOther := f 66 2 180, slumberDefault := f 68 1 3 == 1
    wakeEn := BitVec.ofNat 8 (f 69 1 0x0F), policyHost := BitVec.ofNat 8 (f 70 1 0x1F)
    policySmb := BitVec.ofNat 8 (f 71 1 0x1F), holdupMs := f 72 2 20, avsTmo := f 74 2 500
    thermC := if 90 ≤ therm ∧ therm ≤ 125 then therm else 110, slew := BitVec.ofNat 12 (f 77 2 0x660) }
/-- The selection among the copies (R440): the selected one with the states of both, 3 where a tried one fails its
verification. -/
def State.chooseCopy (s : State) : Option Bool × Nat × Nat :=
  let a := s.copyState false
  let b := s.copyState true
  let order := copyOrder (a == 0) (b == 0) (s.copySeq false) (s.copySeq true)
  match order.find? fun x => s.copyVerified x with
  | some true => (some true, if order == [true, false] then a else if a = 0 then 3 else a, b)
  | some false => (some false, a, if order == [false, true] then b else if b = 0 then 3 else b)
  | none => (none, if a = 0 then 3 else a, if b = 0 then 3 else b)
/-- What a selection logs (R459): a copy that is intact and not verified, the copy selected, or recovery mode. -/
def State.logCopies (s : State) (sel : Option Bool) (a b : Nat) : State :=
  let st := fld (s.getReg (tpl 0x10)) 15 0
  let seqs := s.getReg (tpl 0x18)
  let s1 := ([a, b].filter fun x => x == 3).foldl (fun s _ => s.logTpl 0xA002 st seqs) s
  if sel.isSome then s1.logTpl 0xA001 st seqs else s1.logTpl 0xA803 0 0
/-- Selection (R440, R444, R459, R503): status and SEQ registers, settings and the registers they reset, or recovery mode. -/
def State.selectCopy (s : State) : State :=
  let (sel, a, b) := s.chooseCopy
  let st := (match sel with | none => 2 ^ 12 | some x => if x then 2 else 1) + 2 ^ 4 * a + 2 ^ 8 * b + 2 ^ 16
  let s1 := ((s.setReg (tpl 0x10) (BitVec.ofNat 64 st)).setReg (tpl 0x18)
    (BitVec.ofNat 64 (s.copySeq false + 2 ^ 32 * s.copySeq true))).logCopies sel a b
  match sel with
  | none => { s1 with power := { s1.power with recovery := true } }
  | some x =>
    let t := parseSettings (s.copyItem x (s.flashBytes (copyBase x) 4096) 4)
    let s2 := s1.setReg (hdl 0x1130) (BitVec.ofNat 64 (t.pwrW % 2 ^ 11 + 2 ^ 16 * (t.pwrOther % 2 ^ 12)))
    let s3 := (s2.setReg (hdl 0x1134) (BitVec.ofNat 64 (t.avsTmo % 2 ^ 13))).setReg (hdl 0x113C)
      (BitVec.ofNat 64 t.slew.toNat)
    { s3 with temple := { s3.temple with settings := t } }

/-- FLASH_READ. -/
def execFlashRead (s : State) : Host.Outcome State Fault Refusal := .next (s.flashGo 1)
/-- FLASH_PROGRAM. -/
def execFlashProgram (s : State) : Host.Outcome State Fault Refusal := .next (s.flashGo 2)
/-- FLASH_ERASE. -/
def execFlashErase (s : State) : Host.Outcome State Fault Refusal := .next (s.flashGo 3)
/-- FLASH_OP_DONE. -/
def execFlashOpDone (fail : Bool) (s : State) : Host.Outcome State Fault Refusal := .next (s.flashDone fail)

end Sys2Proof.Machine
end

