-- ==== Sys2Proof/Machine/Power.lean ====
section
/-! DEFINITION. Power states, shutdown and power-on (15 §15.1–§15.4), AVSBus and the core clocks (R472, R473, R492). A
transition ends when its command says that its power-good, acknowledgement or time has come. -/

namespace Sys2Proof.Machine

/-! ## Registers of the power logic -/

/-- The power logic changed. -/
def State.modPower (s : State) (f : Power → Power) : State := { s with power := f s.power }
/-- A field of HDL_PWR_STATE (R475). -/
def State.pwrField (s : State) (hi lo x : Nat) : State := s.modReg (hdl 0x1104) fun v => putFld v hi lo x
/-- A bit of the SMBus ALERT register set (Table 15.7). -/
def State.alert (s : State) (i : Nat) : State := s.modPower fun p => { p with alert := putBit p.alert i true }
/-- STATE changes: one POWER_STATE entry (R474, Table 15.12). -/
def State.setPwr (s : State) (new : Nat) : State :=
  let old := s.pwrState
  let c := fld (s.getReg (hdl 0x1104)) 15 12
  ((s.pwrField 2 0 new).logHdl 0x7001 s.power.ask.requester (BitVec.ofNat 64 (old + 2 ^ 8 * new + 2 ^ 16 * c))).alert 0
/-- A refusal (R476): its counter, HDL_PWR_LAST, POWER_REFUSED and ALERT. -/
def State.refusePwr (s : State) (a : PwrAsk) (who index : Nat) : State :=
  let v : Dword := BitVec.ofNat 64 (a.requester % 16 + 2 ^ 4 * (a.target % 8) + 2 ^ 8 * who + 2 ^ 12 * (index % 256) + 2 ^ 31
    + 2 ^ 32 * (s.weft % 2 ^ 32))
  ((((s.count (hdl (0x110C + 4 * who)) 1).setReg (hdl 0x1108) v).logHdl 0x7002 a.requester v).alert 1)
/-- A refusal of a change that no request of Table 15.4 made: its target is a free value, its requester one of the hosts
(log entry 37). -/
def State.refuseHost (s : State) (who index : Nat) : State :=
  let f := (Config.freeValue s.free).toNat
  s.nextFree.refusePwr { requester := f % 2, target := f / 2 % 8, cause := 0 } who index
/-- A sequence begins: CAUSE and PHASE (R475). -/
def State.beginSeq (s : State) (a : PwrAsk) (q : PwrSeq) (phase : Nat) : State :=
  ((s.pwrField 15 12 a.cause).pwrField 9 8 phase).modPower fun p =>
    { p with seq := q, ask := a, stepAt := s.getReg (hdl 0x00), aDone := false, aborted := false }
/-- The sequence ends: PHASE reads 0. -/
def State.endSeq (s : State) : State := (s.pwrField 9 8 0).modPower fun p => { p with seq := .none, refused := false }
/-- The next part of a sequence begins now. -/
def State.seqAt (s : State) (q : PwrSeq) : State :=
  s.modPower fun p => { p with seq := q, stepAt := s.getReg (hdl 0x00) }

/-! ## AVSBus (R472, R473, Table 15.2) -/

/-- VDD_CORE of an operating point, none of a frequency outside Table 15.2. -/
def coreMillivolt (mhz : Nat) : Option Nat :=
  ([(800, 620), (900, 640), (1000, 660), (1100, 680), (1200, 700), (1300, 730), (1400, 750), (1500, 775), (1600, 800)] :
    List (Nat × Nat)).lookup mhz
/-- The acknowledged voltage of a regulator; its start-up voltage is 0.70 V (R471). -/
def State.millivolt (s : State) (j : Nat) : Nat := sget (fun _ => 700) s.power.millivolt j
/-- The frame of a request on one bus. -/
def State.avsSend (s : State) (j : Fin 16) (mv : Nat) (raise rep : Bool) : State :=
  let r : AvsReq := { millivolt := mv, raise := raise, repeated := rep, sent := s.getReg (hdl 0x00) }
  (s.modPower fun p => { p with avs := sins (serase p.avs j.val) j.val r }).emit (.avs j mv)
/-- One request on each bus whose voltage differs and that owes no acknowledgement (R472). -/
def State.avsAll (s : State) (mv : Nat) : State :=
  (List.finRange 16).foldl (fun s j =>
    if s.millivolt j.val == mv || (s.power.avs.lookup j.val).isSome then s
    else s.avsSend j mv (s.millivolt j.val < mv) false) s
/-- Some regulator stands below a voltage. -/
def State.below (s : State) (mv : Nat) : Bool := (List.range 16).any fun j => s.millivolt j < mv
/-- One request on every bus (power-on step 6). -/
def State.avsEvery (s : State) (mv : Nat) : State :=
  (List.finRange 16).foldl (fun s j => s.avsSend j mv (s.millivolt j.val ≤ mv) false) s
/-- The voltage of HDL_CLK_CFG. -/
def State.clkMillivolt (s : State) : Nat := (coreMillivolt s.fcore).getD 800
/-- Some bus still owes an acknowledgement. -/
def State.avsBusy (s : State) : Bool := !s.power.avs.isEmpty

/-! ## The core clocks (R492) -/

/-- A change of HDL_CLK_CFG begins: a raise of VDD_CORE comes before it, a lowering after it (R473). -/
def State.clkChange (s : State) (val : Word) : State :=
  match coreMillivolt (fld val 11 0) with
  | none => s
  | some mv =>
    let up := s.below mv
    let s1 := s.modHeddle fun h => { h with clkChange := true, clkWanted := if up then some val else none }
    if up then s1.avsAll mv else s1.setReg (hdl 0x44) (BitVec.ofNat 64 val.toNat)
/-- CLK_CFG_WRITE (R492). -/
def State.clkWrite (s : State) (val : Word) : State :=
  let v := val &&& 0x10FFF
  if !s.answers .hdl || s.active || (coreMillivolt (fld v 11 0)).isNone then s
  else if s.pwrState = 2 || s.heddle.clkChange then s.modHeddle fun h => { h with clkDoze := some v }
  else s.clkChange v
/-- CLOCK_CHANGE_DONE (R492): every core PLL has relocked; VDD_CORE is lowered where the frequency fell. -/
def State.clkDone (s : State) : State :=
  if !s.heddle.clkChange || s.heddle.clkWanted.isSome then s
  else
    let next := s.heddle.clkDoze
    let s1 := (s.modHeddle fun h => { h with clkChange := false, clkDoze := none }).avsAll s.clkMillivolt
    match next with
    | some v => s1.clkChange v
    | none => s1

/-- What HDL_CLK_CFG holds once a deferred write has been applied. -/
def State.clkNext (s : State) : Word := s.heddle.clkDoze.getD (BitVec.ofNat 32 (s.getReg (hdl 0x44)).toNat)

/-! ## Resets (R478, R482, R503, R520, R529) -/

/-- Blocks whose registers and state a loss of the main rails resets: every block but the Heddle and Temple dies'. -/
def railBlock (a : Nat) : Bool :=
  match blockOf a with
  | some (.hdl, _) => false
  | some (.tpl, _) => false
  | _ => true
/-- The logs of the Heddle and Temple dies. -/
def keepLogs (l : List (Nat × DieLog)) : List (Nat × DieLog) := l.filter fun e => 38 ≤ e.1
/-- The Loom, Selvedge and Treadle dies lose their state (R482): memories read 0 from here. -/
def State.railReset (s : State) : State :=
  { s with
    regs := sdrop railBlock s.regs, mem := sdrop railBlock s.mem, badPar := s.badPar.filter fun a => !railBlock a
    undefs := { base := s.heddle.gen }, low := s.low.filter fun (x : LowHalf) => !railBlock x.addr
    latches := s.latches.filter fun (x : Latch) => !railBlock x.first
    cores := [], td0 := {}, td1 := {}, ports := [], sds := [], tallies := [], logs := keepLogs s.logs }
/-- AUX retention registers of the Heddle die, and the log registers and logs of the Heddle and Temple dies (R478). -/
def auxKept (a : Nat) : Bool :=
  match blockOf a with
  | some (.hdl, o) => o == 0x1104 || o == 0x1108 || (0x1110 ≤ o && o < 0x1128) || o == 0x1138 || 0x7F000 ≤ o
  | some (.tpl, o) => 0x7F000 ≤ o
  | _ => false
/-- The logs across a power-on: the weft counter starts anew, so the writer's last entry counts no more. -/
def restartLogs (l : List (Nat × DieLog)) : List (Nat × DieLog) := (keepLogs l).map fun e => (e.1, { e.2 with lastWrite := none })
/-- Every state resets but the AUX retention (R478); `cold` resets that too. The pins, the fuses, the flash and what waits
outside the package stay. -/
def State.powerReset (s : State) (cold : Bool) : State :=
  let p := s.power
  let blank : State :=
    { pending := s.pending, pins := s.pins, out := s.out, free := s.free
      undefs := { base := s.heddle.gen }, heddle := { gen := s.heddle.gen }
      temple := { fuses := s.temple.fuses, flash := s.temple.flash } }
  if cold then { blank with power := { cold := true } }
  else
    { blank with
      regs := sdrop (fun a => !auxKept a) s.regs, mem := sdrop (fun a => !auxKept a) s.mem, logs := restartLogs s.logs
      temple := { blank.temple with settings := { wakeEn := s.temple.settings.wakeEn } }
      power := { ask := p.ask, pendAsk := p.pendAsk, supplyFail := p.supplyFail, reboot := p.reboot, wake := p.wake
                 retained := p.retained } }

/-! ## The Treadle retention state (R482) -/

/-- A register of the Treadle retention state: Table 11.3, TRD_TKT_LOST, TRD_DROP_UNREPORTED, TRD_LAND_QUOTA. -/
def retainedReg (a : Nat) : Bool :=
  match blockOf a with
  | some (.trd _, o) => (0x1000 ≤ o && o < 0x2400) || o == 0x14 || o == 0x18
  | _ => false
/-- What of a spool's logic is retained: the ticket head, the history of R353, and the second copies of ledger 6, in which the bolts
lost with the die count as completed (Table 9.6). -/
def Spool.retained (x : Spool) : Spool :=
  { thead := x.thead, history := x.history, completed := x.completed + BitVec.ofNat 32 x.bolts.length, last := x.last }
/-- Phase B step 2. -/
def State.retain (s : State) : State :=
  s.modPower fun p => { p with retained :=
    { regs := s.regs.filter fun e => retainedReg e.1
      spools0 := s.td0.spools.map fun e => (e.1, e.2.retained), spools1 := s.td1.spools.map fun e => (e.1, e.2.retained) } }
/-- The retention state returns into the Treadle dies. -/
def State.restore (s : State) : State :=
  let r := s.power.retained
  let s1 := r.regs.foldl (fun s e => s.setReg e.1 e.2) s
  let s2 := s1.setTd 0 { s1.td 0 with spools := r.spools0 }
  s2.setTd 1 { s2.td 1 with spools := r.spools1 }
/-- Every port passes through a fundamental reset (11 §11.3, at a power-on that is not cold). -/
def State.resetPorts (s : State) : State :=
  ([0, 1] : List Td).foldl (fun s td => (s.fnsOf td).foldl (fun s f => s.resetFn td f) s) s

/-! ## Shutdown (R480–R483) -/

/-- The pick has ended: STATE becomes HOLD (R481 step 2); an aborted shutdown ends here, its clocks brought back (R483). -/
def State.phaseAHold (s : State) : State :=
  if s.active then s
  else
    let doze := s.pwrState == 2
    let s1 := if s.pwrState = 3 then s else s.setPwr 3
    if s.power.aborted then
      (let s2 := (s1.endSeq).modPower fun p => { p with supplyFail := false, aborted := false }
      if doze then (s2.modHeddle fun h => { h with clkDoze := none }).clkChange s.clkNext else s2)
    else s1
/-- A shutdown begins, or one in Phase A takes a lower target (R480, R481 step 1). -/
def State.startShutdown (s : State) (a : PwrAsk) : State :=
  let s1 := (s.beginSeq a (.phaseA a.target) 1).dropRun.progStopNow
  s1.modPower fun p => { p with next := none }
/-- A shutdown may begin: not in SLUMBER or OFF, not in Phase B, in Phase A only to a lower target (R480). -/
def State.mayShut (s : State) (target : Nat) : Bool :=
  match s.power.seq with
  | .phaseA t => target < t
  | .phaseB _ _ => false
  | _ => 2 ≤ s.pwrState
/-- Entry into a step of Phase B (R482). -/
def State.phaseBEnter (s : State) (target n : Nat) : State :=
  let s1 := s.seqAt (.phaseB target n)
  match n with
  | 1 => ([0, 1] : List Td).foldl (fun s td => ([0, 1] : List Fn).foldl (fun s f => s.linkDown td f) s) s1
  | 2 => s1.retain
  | 3 => s1.modPower fun p => { p with enCore := false, millivolt := [], avs := [] }
  | 4 => s1.modPower fun p => { p with enSerdes := false }
  | 5 => s1.modPower fun p => { p with enSram := false }
  | _ => s1.modPower fun p => { p with enIo := false, smbLive := false }
/-- Phase B begins. -/
def State.phaseB (s : State) (target : Nat) : State := (s.pwrField 9 8 2).phaseBEnter target 1
/-- The target of Phase B is reached. -/
def State.phaseBEnd (s : State) (target : Nat) : State :=
  let off := (List.range 36).filter fun d => !bit (s.getReg (hdl 0x1128)) d
  let s1 := (s.setPwr target).endSeq.railReset
  s1.modPower fun p => { p with recovery := false, dieDown := [], dieUp := [], dieQueue := [], dieOff := off }
/-- PHASE_B_STEP (R482). -/
def State.phaseBStep (s : State) : State :=
  match s.power.seq with
  | .phaseB t n => if n = 6 || (n = 5 && t != 0) then s.phaseBEnd t else s.phaseBEnter t (n + 1)
  | _ => s
/-- Every ticket that a spool can issue (R481 step 3). -/
def State.issueTickets (s : State) : State :=
  ([0, 1] : List Td).foldl (fun s td => allSpools.foldl (fun s sp =>
    (List.range ((s.spool td sp).order.length + (s.spool td sp).reports.length)).foldl (fun s _ => s.ticketWrite td sp) s) s) s
/-- PHASE_A_DONE (R481, R483): the pick has ended, bolts abort, an erase stops, a page program has finished. -/
def State.phaseADone (s : State) : State :=
  match s.power.seq with
  | .phaseA t =>
    let programs := match s.temple.busy with | some x => x.op == 2 | none => false
    if s.active || programs || s.power.aDone then s
    else
      let s1 := s.phaseAHold
      (match s1.power.seq with
      | .phaseA _ =>
        let s2 := (s1.abortAll.issueTickets).flashStop
        if s.power.supplyFail && s.pins.pwrFailN then s2.modPower fun p => { p with aDone := true } else s2.phaseB t
      | _ => s1)
  | _ => s

/-! ## Requests (R474–R477, R484) -/

/-- The settings deny a requester a target (R476, Table 15.9). -/
def State.denied (s : State) (a : PwrAsk) : Bool :=
  match a.requester with
  | 0 => !bit s.temple.settings.policyHost a.target
  | 1 => !bit s.temple.settings.policyHost a.target
  | 2 => !bit s.temple.settings.policySmb a.target
  | _ => false
/-- The next single step from a state towards a target (R474, log entry 38). -/
def nextPwr (cur target : Nat) : Nat := if cur < target then (if cur = 1 then 3 else cur + 1) else cur - 1
/-- The voltage that HOLD needs, a deferred clock write applied. -/
def State.holdMillivolt (s : State) : Nat := (coreMillivolt (fld s.clkNext 11 0)).getD 800
/-- The single step towards the target of `a` begins; a raise of VDD_CORE comes first (R473). -/
def State.beginStep (s : State) (a : PwrAsk) : State :=
  let cur := s.pwrState
  let n := nextPwr cur a.target
  let s1 := s.beginSeq a (.step n) 0
  if n = 3 ∧ cur < 3 then
    let s2 := if cur = 1 then s1.modPower fun p => { p with enSram := true, enSerdes := true, enCore := true } else s1
    s2.avsAll s.holdMillivolt
  else s1
/-- A request is carried out: towards its target by single steps, or by a shutdown. -/
def State.pursue (s : State) (a : PwrAsk) : State :=
  if a.target = s.pwrState then s.endSeq
  else if a.target ≤ 1 then (if s.mayShut a.target then s.startShutdown a else s)
  else s.beginStep a
/-- The PENDING_UP fields (R475, R484). -/
def State.setPend (s : State) (a : Option PwrAsk) : State :=
  ((match a with
    | some x => s.pwrField 7 4 (8 + x.target % 8)
    | none => s.pwrField 7 4 0)).modPower fun p => { p with pendAsk := a }
/-- A request during a shutdown, or while a refused power-on is reversed (R484), `t` the state being entered. -/
def State.askLate (s : State) (a : PwrAsk) (t : Nat) : State :=
  if t < a.target then
    (s.setPend (some { a with cause := 6 })).logHdl 0x7003 a.requester (BitVec.ofNat 64 (a.target + 2 ^ 8 * t))
  else
    let s1 := s.setPend none
    if a.target ≤ 1 && s.mayShut a.target then s1.startShutdown a else s1
/-- The tests of R476, then the request. -/
def State.askNow (s : State) (a : PwrAsk) : State :=
  if s.denied a then s.refusePwr a 1 0
  else if a.target = s.pwrState ∧ s.power.seq = .none then s
  else if a.target = 4 && s.safe then s.refusePwr a 2 0
  else if a.requester ≤ 2 && s.pwrState == 4 && s.active && a.target != 4 then s.refusePwr a 3 0
  else if a.requester = 3 ∧ a.target = 3 ∧ s.pwrState = 4 then (s.pursue a).dropRun.progStopNow
  else match s.power.seq with
    | .none => s.pursue a
    | _ => if a.target ≤ 1 && s.mayShut a.target then s.startShutdown a else s.modPower fun p => { p with next := some a }
/-- A power state request (R475, R476, R484): a target of no state is discarded. -/
def State.askPower (s : State) (a : PwrAsk) : State :=
  if 4 < a.target then s
  else match s.power.seq with
    | .phaseA t => s.askLate a t
    | .phaseB t _ => s.askLate a t
    | _ => s.askNow a
/-- POWER_REQUEST (R475): a write of HDL_PWR_REQ through a Treadle die. -/
def State.powerRequest (s : State) (td : Td) (val : Word) : State :=
  if s.answers .hdl && bit val 31 then s.askPower { requester := td.val, target := fld val 2 0, cause := 1 } else s

/-! ## Single steps -/

/-- What the end of a step does beside STATE: leaving SLUMBER the Treadle retention state returns (R482), leaving DOZE a
deferred clock write applies (R492), entering DOZE VDD_CORE falls to 600 mV (R473). -/
def State.arrive (s : State) (old new : Nat) : State :=
  let s1 := if old = 1 then s.restore else s
  if old < 3 then
    (s1.setReg (hdl 0x44) (BitVec.ofNat 64 s.clkNext.toNat)).modHeddle fun h => { h with clkDoze := none }
  else if new = 2 then s1.avsAll 600
  else s1
/-- A sequence has ended in a state of rest: the request that came meanwhile, or the rest of its own, is carried out. -/
def State.afterSeq (s : State) : State :=
  match s.power.next with
  | some a => (s.modPower fun p => { p with next := none }).endSeq.askNow a
  | none => s.pursue s.power.ask
/-- A single step ends. -/
def State.pwrStepDone (s : State) (n : Nat) : State :=
  let up := n = 3 && s.pwrState < 3
  let wait := (up && s.avsBusy) || (s.pwrState = 4 && s.active) || ((n = 4 || n = 2) && s.heddle.clkChange)
  if wait then s
  else if up && s.below s.holdMillivolt then s.avsAll s.holdMillivolt
  else
    let old := s.pwrState
    ((s.setPwr n).endSeq.arrive old n).afterSeq
/-- The queued target is carried out as a request of its requester (R484). -/
def State.carryOut (s : State) : State :=
  match s.power.pendAsk with
  | some a =>
    let s1 := (s.setPend none).askNow a
    (match s1.power.seq with
    | .step n => s1.pwrStepDone n
    | _ => s1)
  | none => s
/-- POWER_TRANSITION_DONE (R474): a single step ends, or HOLD of Phase A is reached, or a queued target is carried out. -/
def State.transitionDone (s : State) : State :=
  match s.power.seq with
  | .step n => s.pwrStepDone n
  | .phaseA _ => s.phaseAHold
  | .none => if 1 ≤ s.pwrState then s.carryOut else s
  | _ => s

/-! ## Power-on (R478, R479, Table 15.5) -/

/-- Why a power-on is due, with the request it serves, none where none is due. -/
def State.powerOnDue (s : State) : Option PwrAsk :=
  let p := s.power
  if p.cold then some { requester := 0, target := 3, cause := 0 }
  else if p.supplyFail then some { requester := 3, target := 3, cause := 7 }
  else if p.reboot then some { requester := p.ask.requester, target := 3, cause := 9 }
  else if p.wake then some { requester := 4, target := 3, cause := 5 }
  else p.pendAsk
/-- POWER_ON (R479): the package leaves OFF by step 1. -/
def State.powerOn (s : State) : State :=
  if s.power.seq ≠ .none ∨ s.pwrState ≠ 0 ∨ !(s.pins.vddAux && s.pins.resetN && s.pins.pwrFailN) then s
  else match s.powerOnDue with
    | none => s
    | some a =>
      let p := s.power
      let s1 := (s.powerReset p.cold).modPower fun q => { q with cold := p.cold, smbLive := true }
      let s2 := if !(p.cold || p.supplyFail || p.reboot || p.wake) then s1.setPend none else s1
      (s2.setReg (hdl 0x10) 1).beginSeq a (.powerOn 1) 3
/-- The request that a power-on serves beyond its end state: a wake's or a queued one's (R489, R484). -/
def State.powerOnGoal (s : State) : Bool :=
  let p := s.power
  !(p.cold || p.supplyFail || p.reboot)
/-- Step 8: the end state (R479). -/
def State.powerOnEnd (s : State) : State :=
  let goal := s.powerOnGoal
  let final := if s.temple.settings.slumberDefault then 1 else 3
  let a := s.power.ask
  let s1 := (s.setPwr final).endSeq.modPower fun p =>
    { p with cold := false, supplyFail := false, reboot := false, wake := false
             ask := if goal then a else { a with target := final } }
  let s2 := if final = 1 then
      s1.railReset.modPower fun p => { p with enSram := false, enSerdes := false, enCore := false, millivolt := [] }
    else s1
  s2.afterSeq
/-- POWER_ON_STEP_DONE (R479, R444): a step's end has come; in recovery mode only what TD0 needs is enabled. -/
def State.powerOnStep (s : State) : State :=
  let rec' := s.power.recovery
  match s.power.seq with
  | .powerOn n =>
    (match n with
    | 1 => s.seqAt (.powerOn 2)
    | 2 => (s.selectCopy.modPower fun p => { p with enIo := true }).seqAt (.powerOn 3)
    | 3 => (s.modPower fun p => { p with enSram := !rec' }).seqAt (.powerOn 4)
    | 4 =>
      let s1 := (s.modPower fun p => { p with enSerdes := true }).seqAt (.powerOn 5)
      if s.power.cold then s1 else s1.restore.resetPorts
    | 5 =>
      let s1 := s.seqAt (.powerOn 6)
      if rec' then s1 else (s1.modPower fun p => { p with enCore := true }).avsEvery s.clkMillivolt
    | 6 => if s.avsBusy then s else s.seqAt (.powerOn 7)
    | _ => s.powerOnEnd)
  | _ => s
/-- A power-on is refused (R479): the enabled rails come down in the order of Phase B, towards SLUMBER with cause 8. -/
def State.refusePowerOn (s : State) (who index : Nat) : State :=
  let s1 := (s.refusePwr s.power.ask who index).pwrField 15 12 8
  (s1.modPower fun p =>
    { p with refused := true, cold := false, supplyFail := false, reboot := false, wake := false }).phaseBEnter 1 3
/-- POWER_GOOD_TIMEOUT (R479): the rail's power-good has not asserted within 10 ms. -/
def State.pgTimeout (s : State) : State :=
  match s.power.seq with
  | .powerOn n =>
    let on : Bool := match n with
      | 3 => s.power.enIo
      | 4 => s.power.enSram
      | 5 => s.power.enSerdes
      | 6 => s.power.enCore
      | _ => false
    if on && 10000000 ≤ s.since s.power.stepAt then s.refusePowerOn 5 (n - 3) else s
  | _ => s

/-! ## AVSBus outcomes (R472, R473) -/

/-- The request of a bus is over. -/
def State.avsDrop (s : State) (j : Nat) : State := s.modPower fun p => { p with avs := p.avs.filter fun e => e.1 != j }
/-- The change of HDL_CLK_CFG that waited for its raise takes effect once every bus has answered. -/
def State.clkRaised (s : State) : State :=
  match s.heddle.clkWanted with
  | some v =>
    let mv := (coreMillivolt (fld v 11 0)).getD 800
    if s.avsBusy then s
    else if s.below mv then s.avsAll mv
    else (s.setReg (hdl 0x44) (BitVec.ofNat 64 v.toNat)).modHeddle fun h => { h with clkWanted := none }
  | none => s
/-- AVS_ACK (R472). -/
def State.avsAck (s : State) (j : Fin 16) : State :=
  match s.power.avs.lookup j.val with
  | none => s
  | some r =>
    let s1 := s.modPower fun p => { p with millivolt := sset (fun _ => 700) p.millivolt j.val r.millivolt }
    (s1.avsDrop j.val).clkRaised
/-- A refused change of HDL_CLK_CFG leaves the register unchanged (R492). -/
def State.clkRefused (s : State) (j : Nat) : State :=
  if s.heddle.clkWanted.isSome then
    ((s.modPower fun p => { p with avs := [] }).modHeddle fun h =>
      { h with clkWanted := none, clkChange := false, clkDoze := none }).refuseHost 4 j
  else s
/-- A raise has failed: the change that needed it is refused (R473). -/
def State.raiseFailed (s : State) (j : Nat) : State :=
  let quiet := s.modPower fun p => { p with avs := [] }
  match s.power.seq with
  | .powerOn _ => quiet.refusePowerOn 4 j
  | .step n =>
    if n = 3 ∧ s.pwrState < 3 then
      let s1 := ((quiet.refusePwr s.power.ask 4 j).modHeddle fun h => { h with clkDoze := none }).endSeq
      if s.pwrState = 1 then s1.modPower fun p => { p with enSram := false, enSerdes := false, enCore := false, millivolt := [] }
      else s1
    else s.clkRefused j
  | _ => s.clkRefused j
/-- AVS_TIMEOUT (R472): repeated once, then logged; a failed lowering completes. -/
def State.avsTimeout (s : State) (j : Fin 16) : State :=
  match s.power.avs.lookup j.val with
  | none => s
  | some r =>
    if s.since r.sent < 1000 * fld (s.getReg (hdl 0x1134)) 12 0 then s
    else if !r.repeated then s.avsSend j r.millivolt r.raise true
    else
      let v : Dword := BitVec.ofNat 64 (r.millivolt % 2 ^ 16 + 2 ^ 16 * (s.millivolt j.val % 2 ^ 16) + (if r.raise then 2 ^ 32
        else 0))
      let s1 := (s.avsDrop j.val).logHdl 0x7804 j.val v
      if r.raise then s1.raiseFailed j.val else s1

/-! ## The supply and the reset pin (R478, R480, R483, R485) -/

/-- VDD_AUX_RISE (R478): a cold power-on is due. -/
def State.auxRise (s : State) : State :=
  let s1 := s.powerReset true
  { s1 with pins := { s1.pins with vddAux := true } }
/-- RESET_N_ASSERT (R478, R499): the whole package resets. -/
def State.resetLow (s : State) : State :=
  let s1 := s.powerReset true
  { s1 with pins := { s1.pins with resetN := false }, power := { s1.power with cold := false } }
/-- RESET_N_RELEASE (R478): a cold power-on is due. -/
def State.resetHigh (s : State) : State :=
  if s.pins.resetN then s
  else
    { s with pins := { s.pins with resetN := true }, power := { s.power with cold := s.pins.vddAux } }
/-- PWR_FAIL_FALL (R480, R481, R483). -/
def State.failFall (s : State) : State :=
  let s1 := { s with pins := { s.pins with pwrFailN := false }, power := { s.power with failHighSince := none } }
  let inA := match s.power.seq with | .phaseA _ => true | _ => false
  if inA && s.power.supplyFail && s.power.aDone then s1.phaseB 0
  else if s.mayShut 0 || (inA && s.power.aborted) then
    let phase := fld (s.getReg (hdl 0x1104)) 9 8
    let s2 := (s1.logHdl 0x7806 0 (BitVec.ofNat 64 (s.pwrState + 2 ^ 8 * phase))).alert 4
    (s2.modPower fun p => { p with supplyFail := true }).startShutdown { requester := 3, target := 0, cause := 2 }
  else s1
/-- PWR_FAIL_RISE (R483). -/
def State.failRise (s : State) : State :=
  { s with pins := { s.pins with pwrFailN := true }, power := { s.power with failHighSince := some (s.getReg (hdl 0x00)) } }
/-- SUPPLY_RETURN_TIMEOUT (R483): 2 ms of good supply call Phase A off. -/
def State.supplyReturn (s : State) : State :=
  match s.power.seq, s.power.failHighSince with
  | .phaseA _, some t =>
    if s.power.supplyFail && s.pins.pwrFailN && 2000000 ≤ s.since t then
      ((s.pwrField 15 12 7).modPower fun p => { p with aborted := true }).phaseAHold
    else s
  | _, _ => s
/-- REBOOT (R443): a shutdown to OFF that a power-on follows. -/
def State.rebootWrite (s : State) : State :=
  if !s.answers .tpl || s.active || !s.mayShut 0 then s
  else
    let who := (Config.freeValue s.free).toNat % 2
    (s.nextFree.modPower fun p => { p with reboot := true }).startShutdown { requester := who, target := 0, cause := 9 }

/-- CLK_CFG_WRITE. -/
def execClkCfgWrite (val : Word) (s : State) : Host.Outcome State Fault Refusal := .next (s.clkWrite val)
/-- CLOCK_CHANGE_DONE. -/
def execClockChangeDone (s : State) : Host.Outcome State Fault Refusal := .next s.clkDone
/-- REBOOT. -/
def execReboot (s : State) : Host.Outcome State Fault Refusal := .next s.rebootWrite
/-- POWER_REQUEST. -/
def execPowerRequest (td : Td) (val : Word) (s : State) : Host.Outcome State Fault Refusal := .next (s.powerRequest td val)
/-- POWER_TRANSITION_DONE. -/
def execPowerTransitionDone (s : State) : Host.Outcome State Fault Refusal := .next s.transitionDone
/-- VDD_AUX_RISE. -/
def execVddAuxRise (s : State) : Host.Outcome State Fault Refusal := .next s.auxRise
/-- RESET_N_ASSERT. -/
def execResetNAssert (s : State) : Host.Outcome State Fault Refusal := .next s.resetLow
/-- RESET_N_RELEASE. -/
def execResetNRelease (s : State) : Host.Outcome State Fault Refusal := .next s.resetHigh
/-- POWER_ON. -/
def execPowerOn (s : State) : Host.Outcome State Fault Refusal := .next s.powerOn
/-- POWER_ON_STEP_DONE. -/
def execPowerOnStepDone (s : State) : Host.Outcome State Fault Refusal := .next s.powerOnStep
/-- POWER_GOOD_TIMEOUT. -/
def execPowerGoodTimeout (s : State) : Host.Outcome State Fault Refusal := .next s.pgTimeout
/-- PWR_FAIL_FALL. -/
def execPwrFailFall (s : State) : Host.Outcome State Fault Refusal := .next s.failFall
/-- PWR_FAIL_RISE. -/
def execPwrFailRise (s : State) : Host.Outcome State Fault Refusal := .next s.failRise
/-- SUPPLY_RETURN_TIMEOUT. -/
def execSupplyReturnTimeout (s : State) : Host.Outcome State Fault Refusal := .next s.supplyReturn
/-- PHASE_A_DONE. -/
def execPhaseADone (s : State) : Host.Outcome State Fault Refusal := .next s.phaseADone
/-- PHASE_B_STEP. -/
def execPhaseBStep (s : State) : Host.Outcome State Fault Refusal := .next s.phaseBStep
/-- AVS_ACK. -/
def execAvsAck (j : Fin 16) (s : State) : Host.Outcome State Fault Refusal := .next (s.avsAck j)
/-- AVS_TIMEOUT. -/
def execAvsTimeout (j : Fin 16) (s : State) : Host.Outcome State Fault Refusal := .next (s.avsTimeout j)

end Sys2Proof.Machine
end

