-- ==== Sys2Proof/Machine/Sideband.lean ====
section
/-! DEFINITION. Die islands (15 §15.5), wake sources and the SMBus window (§15.6), the power limit and temperatures (§15.8),
the writes of HDL_PWR_LIMIT, HDL_AVS_TMO and HDL_PAD_SLEW, and the JTAG port (§15.9). -/

namespace Sys2Proof.Machine

/-! ## Die islands (R487, R488, R515) -/

/-- The die (0–31 Loom, 32–35 Selvedge) that a block belongs to. -/
def blockDie : Block → Option Nat
  | .ldie d => some d.val
  | .core g => some (g.toNat / 8)
  | .slv n => some (32 + n.val)
  | _ => none
/-- A device address lies in a beam, a block or an auxiliary window of a die. -/
def inDie (d a : Nat) : Bool :=
  if a < 0x80000000 then a / 0x4000000 == d
  else if a < 0xC0000000 then (a - 0x80000000) / 0x2000000 == d
  else match blockOf a with
    | some (b, _) => blockDie b == some d
    | none => false
/-- Keys of the granules and take-up of a die's cores (State.undefs). -/
def dieKeys (d : Nat) : List Nat :=
  if d < 32 then (List.range 1024).map (fun i => 1024 * d + i) ++ (List.range 8).map (fun c => 32768 + 8 * d + c) else []
/-- A die takes its reset values, its memories 0 with good parity (R488, R515, R520, R529). -/
def State.dieReset (s : State) (d : Nat) : State :=
  let keys := dieKeys d
  { s with
    regs := sdrop (inDie d) s.regs, mem := sdrop (inDie d) s.mem, badPar := s.badPar.filter fun a => !inDie d a
    undefs := { s.undefs with
      written := s.undefs.written.filter fun a => !inDie d a
      still := keys.foldl addKey s.undefs.still
      kept := s.undefs.kept.filter fun (e : Nat × Nat) => !keys.contains e.1 }
    low := s.low.filter fun (x : LowHalf) => !inDie d x.addr
    latches := s.latches.filter fun (x : Latch) => !inDie d x.first
    cores := sdrop (fun g => g / 8 == d) s.cores
    ports := sdrop (fun p => 32 + p / 6 == d) s.ports
    sds := sdrop (fun n => 32 + n == d) s.sds
    tallies := sdrop (fun n => n / 16 == d) s.tallies
    logs := sdrop (fun n => n == d) s.logs }
/-- A started bolt of either Treadle die targets a core of the die (R487). -/
def State.boltOnDie (s : State) (d : Nat) : Bool :=
  ([0, 1] : List Td).any fun td => (s.td td).spools.any fun e => e.2.bolts.any fun b =>
    (b.phase == .started || b.phase == .landed) && b.hdr.tcore.toNat < 256 && b.hdr.tcore.toNat / 8 == d
/-- A bit of HDL_PWR_DIE. -/
def State.dieBit (s : State) (d : Nat) (b : Bool) : State := s.modReg (hdl 0x1128) fun v => putBit v d b
/-- A write of one bit of HDL_PWR_DIE that changes it (R487). -/
def State.dieWrite (s : State) (d : Nat) (b : Bool) : State :=
  if b then
    let down := s.power.dieDown.contains d
    (s.dieBit d true).modPower fun p =>
      if down then { p with dieQueue := addKey p.dieQueue d } else { p with dieUp := addKey p.dieUp d }
  else if d < 32 && (s.progState != 0 || s.boltOnDie d) then s.refuseHost 6 d
  else if 32 ≤ d && s.active then s.refuseHost 3 d
  else
    (s.dieBit d false).modPower fun p =>
      { p with dieDown := addKey p.dieDown d, dieUp := p.dieUp.filter (· != d), dieQueue := p.dieQueue.filter (· != d) }
/-- DIE_POWER_WRITE (R487). -/
def State.diePower (s : State) (val : Dword) : State :=
  if !s.answers .hdl || s.pwrState < 3 then s
  else (List.range 36).foldl (fun s d => if bit val d == bit (s.getReg (hdl 0x1128)) d then s else s.dieWrite d (bit val d)) s
/-- DIE_POWER_DONE (R487, R488): a die has powered down, or up from its reset values. -/
def State.dieDone (s : State) (d : Nat) : State :=
  let p := s.power
  if p.dieDown.contains d then
    let again := p.dieQueue.contains d
    (s.dieReset d).modPower fun q =>
      { q with dieDown := q.dieDown.filter (· != d), dieQueue := q.dieQueue.filter (· != d), dieOff := addKey q.dieOff d
               dieUp := if again then addKey q.dieUp d else q.dieUp }
  else if p.dieUp.contains d then
    (s.dieReset d).modPower fun q => { q with dieUp := q.dieUp.filter (· != d), dieOff := q.dieOff.filter (· != d) }
  else s
/-- An island fault in the log of the Heddle die, which R502 names; its source is the Loom die (Table 14.6, log entry 53). -/
def State.logIsland (s : State) (d : Die) (aux : Nat) (data : Dword) : State := s.logEvent 38 (0x120 + d.val) 0x7805 aux data
/-- ISLAND_FAULT (R502, R514): kind bit 0 a switch did not close, 1 did not open, 2 the voltage is out of range. -/
def State.islandFault (s : State) (who : Island) (kind : BitVec 3) : State :=
  let data : Dword := BitVec.ofNat 64 kind.toNat
  match who with
  | .core g =>
    if s.fusedOff g then s
    else
      let s1 := s.modReg (ldie (dieOf g) 0x10) fun v => putBit v (8 + g.toNat % 8) true
      let s2 := if s.runs g then s1.halt g 0x82 0 0 0 else s1.haltCore g 0x82 0 0 0
      s2.logIsland (dieOf g) g.toNat data
  | .die d =>
    let s1 := s.modReg (ldie d 0x10) fun v => putBit v 16 true
    let hit := (List.range 8).map (coreOf d)
    (hit.foldl (fun s g => if s.runs g then s.halt g 0x82 0 0 0 else s) s1).logIsland d (0x120 + d.val) data

/-! ## Wake (R489, R491) -/

/-- A wake source asks for HOLD (R489, R485): from OFF a power-on is due, in SLUMBER a request; HDL_WAKE_LAST names it. -/
def State.wakeUp (s : State) (src : Nat) : State :=
  let s1 := s.setReg (hdl 0x1138) (BitVec.ofNat 64 src)
  if s.pwrState = 1 ∧ s.power.seq = .none then s1.askPower { requester := 4, target := 3, cause := 5 }
  else if s.pwrState = 0 ∧ s.power.refused then s1.askPower { requester := 4, target := 3, cause := 5 }
  else if s.pwrState = 0 ∧ s.power.seq = .none ∧ s.pins.pwrFailN ∧ s.pins.vddAux ∧ s.pins.resetN then
    s1.modPower fun p => { p with wake := true }
  else s
/-- A wake source is enabled (Table 15.9). -/
def State.wakeOn (s : State) (i : Nat) : Bool := bit s.temple.settings.wakeEn i
/-- WAKE_N_LOW (R489). -/
def State.wakePin (s : State) : State := if s.wakeOn 1 then s.wakeUp 2 else s
/-- PERST_RISE (R489). -/
def State.perstRise (s : State) (td : Td) : State :=
  let s1 := s.setPerst td true
  if !s.perst td && s.wakeOn 2 then s1.wakeUp (3 + td.val) else s1
/-- GPIO0_EDGE (R489). -/
def State.gpioEdge (s : State) (rising : Bool) : State := if s.wakeOn 3 && s.wakeOn 4 == rising then s.wakeUp 5 else s
/-- An address match before the window answers (R491): ACK, then NACK; it wakes the package from OFF. -/
def State.addressMatch (s : State) : State :=
  if s.power.smbLive then s
  else
    let s1 := s.emit (.smbus none)
    if s.wakeOn 0 && s.pwrState == 0 then s1.wakeUp 1 else s1

/-! ## The SMBus window (R490, R491, Table 15.7) -/

/-- An answer of the window, or what an address match does while it does not answer. -/
def State.smbAnswer (s : State) (l : List Byte) : State :=
  if s.power.smbLive then s.emit (.smbus (some l)) else s.addressMatch
/-- A write of the window: its effect if the PEC is right, else a NACK. -/
def State.smbWrite (s : State) (pec : Bool) (f : State → State) : State :=
  if !s.power.smbLive then s.addressMatch
  else if !pec then s.emit (.smbus none)
  else f (s.emit (.smbus (some [])))
/-- SMB_REQ (R475, R490): other bits set or a target of no state: discarded. -/
def State.smbReq (s : State) (val : Byte) (pec : Bool) : State :=
  s.smbWrite pec fun s =>
    if fld val 7 3 ≠ 0 then s else s.askPower { requester := 2, target := fld val 2 0, cause := 1 }
/-- The hottest reported temperature in °C (log entry 6). -/
def State.hottest (s : State) : Int :=
  match s.power.temps.map fun e => e.2.toInt with
  | [] => 0
  | t :: l => l.foldl max t
/-- The sum of the last 10 power samples. -/
def State.powerSum (s : State) : Nat := s.power.samples.sum
/-- SMB_ALERT_CLEAR. -/
def State.smbClear (s : State) (val : Byte) (pec : Bool) : State :=
  s.smbWrite pec fun s => s.modPower fun p => { p with alert := p.alert &&& ~~~val }

/-! ## Power limit and temperature (R496, R497) -/

/-- AVS_TELEMETRY (R496): a package power sample from the sum of the VDD_CORE powers. -/
def State.telemetry (s : State) (watts : Nat) : State :=
  if !s.power.enCore then s
  else
    let lim := s.getReg (hdl 0x1130)
    let samples := ((watts + fld lim 27 16) :: s.power.samples).take 10
    let above := 10 * fld lim 10 0 < samples.sum
    let n := if above then s.power.overCount + 1 else 0
    let s1 := s.modPower fun p => { p with samples := samples, overCount := n }
    if n < 3 then s1 else (s1.alert 3).askPower { requester := 3, target := 3, cause := 3 }
/-- THERMAL_REPORT (R497). -/
def State.thermal (s : State) (d : LogDie) (temp : BitVec 16) : State :=
  if !s.weftRuns then s
  else
    let limit : Int := s.temple.settings.thermC
    let s1 := s.modPower fun p => { p with temps := sins (serase p.temps d.val) d.val temp }
    let s2 := if limit - 10 ≤ temp.toInt then s1.alert 2 else s1
    if limit ≤ temp.toInt then s2.askPower { requester := 3, target := 0, cause := 4 } else s2
/-- PWR_LIMIT_WRITE (R496). -/
def State.limitWrite (s : State) (val : Word) : State :=
  let w := fld val 10 0
  if !s.answers .hdl || w < 100 || 1650 < w then s
  else s.setReg (hdl 0x1130) (BitVec.ofNat 64 (w + 2 ^ 16 * fld val 27 16))
/-- AVS_TMO_WRITE (R472). -/
def State.tmoWrite (s : State) (val : Word) : State :=
  let u := fld val 12 0
  if !s.answers .hdl || u < 50 || 5000 < u then s else s.setReg (hdl 0x1134) (BitVec.ofNat 64 u)
/-- PAD_SLEW_WRITE (R498): a field written 0b11 keeps its value. -/
def State.slewWrite (s : State) (val : Word) : State :=
  if !s.answers .hdl then s
  else
    let put := fun (v : Dword) (i : Nat) =>
      let x := fld val (2 * i + 1) (2 * i)
      if x = 3 then v else putFld v (2 * i + 1) (2 * i) x
    s.modReg (hdl 0x113C) fun v => (List.range 6).foldl put v

/-! ## JTAG (R500) -/

/-- JTAG_INSTRUCTION: every other opcode is BYPASS, and so is every instruction while picks run. A load says that TRST_N
is high (log entry 7). -/
def State.jtagLoad (s : State) (op : JtagOp) : State :=
  let op' := if s.active then .bypass else match op with | .other => .bypass | x => x
  { s with jtag := { held := false, op := op' }, pins := { s.pins with trstN := true } }
/-- TRST_N_ASSERT: Test-Logic-Reset selects IDCODE (log entry 7). -/
def State.trstLow (s : State) : State := { s with jtag := {}, pins := { s.pins with trstN := false } }

/-- DIE_POWER_WRITE. -/
def execDiePowerWrite (val : Dword) (s : State) : Host.Outcome State Fault Refusal := .next (s.diePower val)
/-- DIE_POWER_DONE. -/
def execDiePowerDone (d : Fin 36) (s : State) : Host.Outcome State Fault Refusal := .next (s.dieDone d.val)
/-- ISLAND_FAULT. -/
def execIslandFault (who : Island) (kind : BitVec 3) (s : State) : Host.Outcome State Fault Refusal :=
  .next (s.islandFault who kind)
/-- WAKE_N_LOW. -/
def execWakeNLow (s : State) : Host.Outcome State Fault Refusal := .next s.wakePin
/-- PERST_RISE. -/
def execPerstRise (td : Td) (s : State) : Host.Outcome State Fault Refusal := .next (s.perstRise td)
/-- GPIO0_EDGE. -/
def execGpio0Edge (rising : Bool) (s : State) : Host.Outcome State Fault Refusal := .next (s.gpioEdge rising)
/-- SMBUS_ADDRESS_MATCH. -/
def execSmbusAddressMatch (s : State) : Host.Outcome State Fault Refusal := .next s.addressMatch
/-- SMB_STATE: HDL_PWR_STATE[15:0]. -/
def execSmbState (s : State) : Host.Outcome State Fault Refusal :=
  .next (s.smbAnswer (leBytes 2 (fld (s.getReg (hdl 0x1104)) 15 0)))
/-- SMB_REQ. -/
def execSmbReq (val : Byte) (pecOk : Bool) (s : State) : Host.Outcome State Fault Refusal := .next (s.smbReq val pecOk)
/-- SMB_REFUSAL: HDL_PWR_LAST. -/
def execSmbRefusal (s : State) : Host.Outcome State Fault Refusal :=
  .next (s.smbAnswer (leBytes 8 (s.getReg (hdl 0x1108)).toNat))
/-- SMB_TEMP. -/
def execSmbTemp (s : State) : Host.Outcome State Fault Refusal := .next (s.smbAnswer (leBytes 2 (unsigned 16 s.hottest)))
/-- SMB_POWER: the average of the last 10 samples. -/
def execSmbPower (s : State) : Host.Outcome State Fault Refusal := .next (s.smbAnswer (leBytes 2 (s.powerSum / 10)))
/-- SMB_ALERT_READ. -/
def execSmbAlertRead (s : State) : Host.Outcome State Fault Refusal := .next (s.smbAnswer [s.power.alert])
/-- SMB_ALERT_CLEAR. -/
def execSmbAlertClear (val : Byte) (pecOk : Bool) (s : State) : Host.Outcome State Fault Refusal :=
  .next (s.smbClear val pecOk)
/-- SMB_LOGSEQ: HDL_LOG_SEQ. -/
def execSmbLogseq (s : State) : Host.Outcome State Fault Refusal :=
  .next (s.smbAnswer (leBytes 4 (s.getReg (logReg 38 0)).toNat))
/-- AVS_TELEMETRY. -/
def execAvsTelemetry (coreWatts : Nat) (s : State) : Host.Outcome State Fault Refusal := .next (s.telemetry coreWatts)
/-- THERMAL_REPORT. -/
def execThermalReport (d : LogDie) (temp : BitVec 16) (s : State) : Host.Outcome State Fault Refusal :=
  .next (s.thermal d temp)
/-- PWR_LIMIT_WRITE. -/
def execPwrLimitWrite (val : Word) (s : State) : Host.Outcome State Fault Refusal := .next (s.limitWrite val)
/-- AVS_TMO_WRITE. -/
def execAvsTmoWrite (val : Word) (s : State) : Host.Outcome State Fault Refusal := .next (s.tmoWrite val)
/-- PAD_SLEW_WRITE. -/
def execPadSlewWrite (val : Word) (s : State) : Host.Outcome State Fault Refusal := .next (s.slewWrite val)
/-- JTAG_INSTRUCTION. -/
def execJtagInstruction (op : JtagOp) (s : State) : Host.Outcome State Fault Refusal := .next (s.jtagLoad op)
/-- TRST_N_ASSERT. -/
def execTrstNAssert (s : State) : Host.Outcome State Fault Refusal := .next s.trstLow

end Sys2Proof.Machine
end

