-- ==== Sys2Proof/Machine/HostWrite.lean ====
section
/-! DEFINITION. Host writes of registers and core memories (00 R10–R16, 01 R29, R32, R33, 16 R503–R513, 17 R517–R525): each
register's own rule where it has one, else the access codes of Table 0.8; 32-bit halves; and the snapshot groups of
R506 and R523. -/

namespace Sys2Proof.Machine

/-! ## One whole register -/

/-- The plain write of a register by its access codes (Table 0.8, R12, R16). -/
def State.plainWrite (s : State) (b : Block) (o : Nat) (r : RegSpec) (val : Dword) : State :=
  let a := b.base + o
  let v1 := merge r.rw (s.getReg a) val
  let v2 := if s.idleAt b o then merge r.rwl v1 val else v1
  s.setReg a (v2 &&& ~~~(r.w1c &&& val))
/-- A write of a Heddle die register (Table 16.4). -/
def State.hdlWrite (s : State) (req : Requester) (o : Nat) (r : RegSpec) (val : Dword) : State :=
  let w : Word := BitVec.ofNat 32 val.toNat
  if 0x200 ≤ o ∧ o < 0x220 then s.progMap ((o - 0x200) / 4) w
  else if 0x800 ≤ o ∧ o < 0x1000 then s.kpairWrite ((o - 0x800) / 8) val
  else match o with
    | 0x08 => s.loadWeft val.toNat
    | 0x20 => if bit val 0 then s.pickRun else s.pickStop
    | 0x28 => s.periodWrite w
    | 0x2C => s.reserveWrite w
    | 0x44 => s.clkWrite w
    | 0x60 => s.fellResolve val
    | 0x108 => s.plainWrite .hdl o r (if bit val 0 then val &&& 0xFFFFFF0001 else val)
    | 0x110 => if s.active then s else s.timeCfg w
    | 0x118 => s.hopsWrite w
    | 0x11C => s.timeoutWrite w
    | 0x120 => s.barrierCfg w
    | 0x124 => s.barrierGo w
    | 0x228 => s.progEnd val
    | 0x230 => if bit val 1 then s.progStop else if bit val 0 then s.progStart else s
    | 0x101C => s.ovsHalt w
    | 0x1024 => s.errEnable val
    | 0x1100 =>
      (match req with
      | .smbus => s
      | .td0a => s.powerRequest 0 w
      | .td0b => s.powerRequest 0 w
      | _ => s.powerRequest 1 w)
    | 0x1128 => s.diePower val
    | 0x1130 => s.limitWrite w
    | 0x1134 => s.tmoWrite w
    | 0x113C => s.slewWrite w
    | _ => s.plainWrite .hdl o r val
/-- A write of a Temple die register (Tables 13.10, 16.6). -/
def State.tplWrite (s : State) (o : Nat) (r : RegSpec) (val : Dword) : State :=
  match o with
  | 0x20 => if bit val 0 then s.rebootWrite else s
  | 0x200 => if bit val 0 then s.digestStart else s
  | 0x400 => if bit val 31 && fld val 1 0 != 0 then s.flashGo (fld val 1 0) else s
  | _ => s.plainWrite .tpl o r val
/-- A write of a Treadle die register (Tables 11.3, 14.8, 16.3): the loader's high-water mark stands for the last bolt executed too
(R349, Table 9.6), and a write of UPTO may make an armed Tally channel compare (R465). -/
def State.trdWrite (s : State) (td : Td) (o : Nat) (r : RegSpec) (val : Dword) : State :=
  let w : Word := BitVec.ofNat 32 val.toNat
  if 0x1000 ≤ o ∧ o < 0x2000 then
    let sp : SpoolId := Fin.ofNat 64 ((o - 0x1000) / 0x40)
    (match o % 0x40 with
    | 0x10 => s.spoolCfg td sp w
    | 0x14 => if bit val 0 then s.spoolEnable td sp else s.spoolDisable td sp
    | 0x1C => s.spoolHead td sp w
    | 0x28 =>
      let s1 := s.plainWrite (.trd td) o r val
      s1.modSpool td sp fun x => { x with last := BitVec.ofNat 64 (s1.sreg td sp 0x28) }
    | _ => s.plainWrite (.trd td) o r val)
  else if 0x4000 ≤ o ∧ o < 0x4400 then
    let n : TallyNo := Fin.ofNat 16 ((o - 0x4000) / 0x40)
    (match o % 0x40 with
    | 0x00 => s.tallyCfg td n w
    | 0x04 =>
      let s1 := if bit val 1 then s.tallyReset td n else s
      if bit val 0 then s1.tallyArm td n else s1
    | 0x20 => (s.plainWrite (.trd td) o r val).tallyCheck td n
    | _ => s.plainWrite (.trd td) o r val)
  else if 0x100000 ≤ o then
    (s.plainWrite (.trd td) o r val).unmask td (if o < 0x120000 then 0 else 1) (o % 0x20000 / 16)
  else s.plainWrite (.trd td) o r val
/-- A write of a Selvedge die register (Tables 12.2, 12.7): DOWN clears under R403. -/
def State.slvWrite (s : State) (n : Sd) (o : Nat) (r : RegSpec) (val : Dword) : State :=
  if o < 0x600 then
    let p : PortId := portOf n (o / 0x100)
    (match o % 0x100 with
    | 0x00 => s.portCtrl p (BitVec.ofNat 32 val.toNat)
    | 0x10 => s.portCred p (BitVec.ofNat 32 val.toNat)
    | _ => s.plainWrite (.slv n) o r val)
  else if 0x10000 ≤ o ∧ o < 0x12000 then
    let s1 := if bit val 3 then s.routeClear n ((o - 0x10000) / 8) else s
    s1.plainWrite (.slv n) o r val
  else s.plainWrite (.slv n) o r val
/-- A write of a Loom die shared register (Table 16.8). -/
def State.ldieWrite (s : State) (d : Die) (o : Nat) (r : RegSpec) (val : Dword) : State :=
  if 0x4000 ≤ o ∧ o < 0x4400 ∧ o % 0x40 = 4 then
    (if bit val 0 then s.tallyGo d (Fin.ofNat 16 ((o - 0x4000) / 0x40)) else s)
  else s.plainWrite (.ldie d) o r val
/-- A write of a core register (Tables 17.3–17.7). -/
def State.coreWrite (s : State) (g : CoreId) (o : Nat) (r : RegSpec) (val : Dword) : State :=
  if 0x300 ≤ o ∧ o < 0x310 then s.carryMapWrite g ((o - 0x300) / 4) (BitVec.ofNat 32 val.toNat)
  else if o = 0x330 then (if bit val 63 then s.injectArm g (fld val 22 0) else s.injectDisarm g)
  else s.plainWrite (.core g) o r val
/-- A write of a whole register of a block that answers. -/
def State.regWrite (s : State) (req : Requester) (b : Block) (o : Nat) (r : RegSpec) (val : Dword) : State :=
  match b with
  | .hdl => s.hdlWrite req o r val
  | .tpl => s.tplWrite o r val
  | .trd td => s.trdWrite td o r val
  | .slv n => s.slvWrite n o r val
  | .ldie d => s.ldieWrite d o r val
  | .core g => s.coreWrite g o r val

/-! ## Snapshot groups (R506, R523) -/

/-- The registers of a group, its first first (Table 16.2). -/
def snapRegs : SnapGroup → List (Block × Nat)
  | .weft => [(.hdl, 0x00), (.hdl, 0x38), (.hdl, 0x3C)]
  | .fellLast => [(.hdl, 0x58), (.hdl, 0x50)]
  | .dropInfo => [(.hdl, 0x68), (.hdl, 0x70), (.hdl, 0x78), (.hdl, 0x48)]
  | .ledgerFail => [(.hdl, 0x300), (.hdl, 0x308)]
  | .hist => [(.tpl, 0x2C0), (.tpl, 0x2C8), (.tpl, 0x2D0), (.tpl, 0x2D8), (.tpl, 0x2E0)]
/-- The group whose first register lies at an offset. -/
def snapAt : Block → Nat → Option SnapGroup
  | .hdl, 0x00 => some .weft
  | .hdl, 0x58 => some .fellLast
  | .hdl, 0x68 => some .dropInfo
  | .hdl, 0x300 => some .ledgerFail
  | .tpl, 0x2C0 => some .hist
  | _, _ => none
/-- A requester's latch of a group released. -/
def State.dropLatch (s : State) (req : Requester) (first : Nat) : State :=
  { s with latches := s.latches.filter fun (l : Latch) => !(l.req == req && l.first == first) }
/-- A group latched for a requester. -/
def State.holdLatch (s : State) (req : Requester) (first : Nat) (vals : List (Nat × Dword)) : State :=
  let s1 := s.dropLatch req first
  { s1 with latches := s1.latches ++ [{ req := req, first := first, vals := vals }] }
/-- The first register's device address and block of a group. -/
def snapFirst (grp : SnapGroup) : Nat := ((snapRegs grp).map fun r => r.1.base + r.2).headD 0
/-- The block of a group. -/
def snapBlock (grp : SnapGroup) : Block := ((snapRegs grp).map (·.1)).headD .hdl
/-- A write to a group's first register (R506): `on` is bit 0 of the value. -/
def State.snapWrite (s : State) (req : Requester) (grp : SnapGroup) (on : Bool) : State :=
  if !s.answers (snapBlock grp) then s
  else if on then s.holdLatch req (snapFirst grp) ((snapRegs grp).map fun r => (r.1.base + r.2, s.liveReg r.1 r.2))
  else s.dropLatch req (snapFirst grp)
/-- The members of a core's group (R523), CORE_SNAP_PICK aside. -/
def coreSnapRegs : List Nat := [0x108, 0x10C, 0x118, 0x11C, 0x314, 0x318, 0x31C, 0x408, 0x310, 0x800]
/-- A write to CORE_STEP (R523). -/
def State.coreSnapWrite (s : State) (req : Requester) (g : CoreId) (on : Bool) : State :=
  if !s.coreAnswers g then s
  else if on then
    s.holdLatch req (coreReg g 0x108)
      ((coreSnapRegs.map fun o => (coreReg g o, s.liveReg (.core g) o)) ++
        [(coreReg g 0x12C, BitVec.ofNat 64 s.pickNum.toNat)])
  else s.dropLatch req (coreReg g 0x108)

/-! ## Accesses (R10, R11) -/

/-- A write of 4 bytes of byte memory: descriptor tables of idle cores (R519), the flash buffer (R441, R513); the event
logs are RO. -/
def State.byteWrite (s : State) (b : Block) (o : Nat) (val : Word) : State :=
  match b with
  | .core g => if s.runs g then s else s.hostBytes (b.base + o) (leBytes 4 val.toNat)
  | .tpl =>
    if o < 0x11000 ∧ !bit (s.getReg (tpl 0x40C)) 0 then s.setBytes (b.base + o) (leBytes 4 val.toNat) else s
  | _ => s
/-- The block and offset of an address that a requester may write. -/
def State.target (s : State) (a : Nat) : Option (Block × Nat) :=
  match blockOf a with
  | some (b, o) => if s.answers b && !s.hidden b o then some (b, o) else none
  | none => none
/-- The low half stored (R11). -/
def State.storeLow (s : State) (req : Requester) (a : Nat) (val : Word) : State :=
  let s1 := s.clearLow req a
  { s1 with low := s1.low ++ [{ req := req, addr := a, val := val }] }
/-- A high-half write (R11): the pending low half, else what stands there, no W1C bit of it set. -/
def State.highWrite (s : State) (req : Requester) (b : Block) (o : Nat) (r : RegSpec) (hi : Word) : State :=
  let a := b.base + o
  let held := s.low.any fun (x : LowHalf) => x.req == req && x.addr == a
  let w1c := match b with | .slv _ => (8 : Dword) | _ => r.w1c
  let low : Dword := if held then BitVec.ofNat 64 (s.lowFor req a) else BitVec.ofNat 64 (s.lowFor req a) &&& ~~~w1c
  (s.regWrite req b o r (BitVec.ofNat 64 (hi.toNat * 2 ^ 32) ||| low)).clearLow req a
/-- A 32-bit write at an aligned address. -/
def State.write32 (s : State) (req : Requester) (a : Nat) (val : Word) : State :=
  match s.target a with
  | none => s
  | some (b, o) =>
    if bytesAt b o then s.byteWrite b o val
    else match snapAt b o with
      | some grp => s.snapWrite req grp (bit val 0)
      | none =>
        match b, o with
        | .core g, 0x108 => s.coreSnapWrite req g (bit val 0)
        | _, _ =>
          match b.spec o with
          | some r =>
            if r.wide then s.storeLow req a val else s.regWrite req b o r (BitVec.ofNat 64 val.toNat)
          | none =>
            if 4 ≤ o ∧ o % 8 = 4 then
              (match b.spec (o - 4) with
              | some r => if r.wide then s.highWrite req b (o - 4) r val else s
              | none => s)
            else s
/-- A 64-bit write at an aligned address: of a 64-bit register, else of its two halves. -/
def State.write64 (s : State) (req : Requester) (a : Nat) (val : Dword) : State :=
  let lo : Word := BitVec.ofNat 32 val.toNat
  let hi : Word := BitVec.ofNat 32 (val.toNat / 2 ^ 32)
  let halves := (s.write32 req a lo).write32 req (a + 4) hi
  match s.target a with
  | none => halves
  | some (b, o) =>
    match snapAt b o, b.spec o with
    | some grp, _ => s.snapWrite req grp (bit val 0)
    | none, some r => if r.wide && !bytesAt b o then (s.regWrite req b o r val).clearLow req a else halves
    | none, none => halves
/-- A register write of a size in bytes is performed (R10): any other size or alignment is discarded. -/
def State.writeNow (s : State) (req : Requester) (a size : Nat) (val : Dword) : State :=
  if size = 4 ∧ a % 4 = 0 then s.write32 req a (BitVec.ofNat 32 val.toNat)
  else if size = 8 ∧ a % 8 = 0 then s.write64 req a val
  else s
/-- The running core whose register window holds an address (R518). -/
def State.windowOf (s : State) (a : Nat) : Option CoreId :=
  match blockOf a with
  | some (.core g, _) => if s.coreAnswers g && s.runs g then some g else none
  | _ => none
/-- A size and an alignment that R10 admits. -/
def legalAccess (a size : Nat) : Bool := (size == 4 && a % 4 == 0) || (size == 8 && a % 8 == 0)
/-- A register write (R10): at once, or through the service slot of the running core that it reaches (R518). -/
def State.hostWrite (s : State) (req : Requester) (a size : Nat) (val : Dword) : State :=
  match s.windowOf a with
  | some g =>
    if legalAccess a size then s.modCore g fun c => { c with svc := c.svc ++ [.reg req a size val] } else s
  | none => s.writeNow req a size val
/-- LOW_HALF_WRITE (R11): of a 64-bit register, no snapshot group's first. -/
def State.lowHalf (s : State) (req : Requester) (a : Nat) (val : Word) : State :=
  match s.target a with
  | some (b, o) =>
    (match b.spec o with
    | some r => if r.wide && (snapAt b o).isNone && !bytesAt b o then s.storeLow req a val else s
    | none => s)
  | none => s
/-- HIGH_HALF_WRITE (R11): `a` is the address of the high half. -/
def State.highHalf (s : State) (req : Requester) (a : Nat) (val : Word) : State :=
  match s.target a with
  | some (b, o) =>
    if o % 8 = 4 && !bytesAt b o then
      (match b.spec (o - 4) with
      | some r => if r.wide then s.highWrite req b (o - 4) r val else s
      | none => s)
    else s
  | none => s

/-- BAR0_MEMORY_WRITE (R29, R32, R33, R168): core memories by any length and alignment, registers by R10; a request of
which a byte is discarded is counted once in TRD_BAR_DISCARD of its Treadle die. -/
def State.bar0Write (s : State) (td : Td) (fn : Fn) (off : Nat) (l : List Byte) : State :=
  if !s.answers (.trd td) then s
  else match s.barAddr td fn off with
    | none => s
    | some a =>
      if (memAt a).isNone then s.hostWrite (reqOf td fn) a l.length (BitVec.ofNat 64 (leNat l))
      else
        let r := s.memWrite (l.zipIdx.map fun e => (a + e.2, e.1))
        if r.2 then r.1.count (trd td 0x10) 1 else r.1

/-- REGISTER_WRITE. -/
def execRegisterWrite (req : Requester) (addr : Word) (size : Nat) (val : Dword) (s : State) :
    Host.Outcome State Fault Refusal := .next (s.hostWrite req addr.toNat size val)
/-- LOW_HALF_WRITE. -/
def execLowHalfWrite (req : Requester) (addr val : Word) (s : State) : Host.Outcome State Fault Refusal :=
  .next (s.lowHalf req addr.toNat val)
/-- HIGH_HALF_WRITE. -/
def execHighHalfWrite (req : Requester) (addr val : Word) (s : State) : Host.Outcome State Fault Refusal :=
  .next (s.highHalf req addr.toNat val)
/-- SNAPSHOT_LATCH. -/
def execSnapshotLatch (req : Requester) (grp : SnapGroup) (s : State) : Host.Outcome State Fault Refusal :=
  .next (s.snapWrite req grp true)
/-- SNAPSHOT_RELEASE. -/
def execSnapshotRelease (req : Requester) (grp : SnapGroup) (s : State) : Host.Outcome State Fault Refusal :=
  .next (s.snapWrite req grp false)
/-- CORE_SNAPSHOT_LATCH. -/
def execCoreSnapshotLatch (req : Requester) (g : CoreId) (s : State) : Host.Outcome State Fault Refusal :=
  .next (s.coreSnapWrite req g true)
/-- CORE_SNAPSHOT_RELEASE. -/
def execCoreSnapshotRelease (req : Requester) (g : CoreId) (s : State) : Host.Outcome State Fault Refusal :=
  .next (s.coreSnapWrite req g false)
/-- BAR0_MEMORY_WRITE. -/
def execBar0MemoryWrite (td : Td) (fn : Fn) (addr : Word) (bytes : List Byte) (s : State) :
    Host.Outcome State Fault Refusal := .next (s.bar0Write td fn addr.toNat bytes)

end Sys2Proof.Machine
end

