-- ==== Sys2Proof/Machine/ReedFunc.lean ====
section
/-! DEFINITION. The functions of RD_FUNC (06 R220, Table 6.7): the exact cases and special values of the table, and fixed-point
evaluations with 1,024 fraction bits and a sticky bit elsewhere, rounded once to FP32 (log entry 21). -/

namespace Sys2Proof.Machine

/-- Fraction bits of the evaluations. -/
abbrev fracBits : Nat := 1024
/-- One, in fixed point. -/
def fixOne : Nat := 2 ^ fracBits

/-- Sum of a series of fixed-point terms: the term of index i + 1 is `next i` of the term of index i. -/
def series (next : Nat → Nat → Nat) : Nat → Nat → Nat → Nat
  | 0, _, _ => 0
  | n + 1, i, t => t + series next n (i + 1) (next i t)
/-- The same with alternating signs, the first term positive. -/
def altSeries (next : Nat → Nat → Nat) : Nat → Nat → Nat → Int
  | 0, _, _ => 0
  | n + 1, i, t => (t : Int) - altSeries next n (i + 1) (next i t)

/-- atanh(a / b) scaled by `one`, for a / b at most 1/3. -/
def atanhQ (one a b : Nat) : Nat :=
  ((List.range 420).foldl (fun (x : Nat × Nat) i => (x.1 + x.2 / (2 * i + 1), x.2 * a / b * a / b)) (0, one * a / b)).1
/-- arctan(1 / n) scaled by `one`. -/
def atanInv (one n : Nat) : Int :=
  ((List.range 420).foldl (fun (x : Int × Nat) i =>
    (x.1 + (if i % 2 = 0 then 1 else -1) * ((x.2 / (2 * i + 1) : Nat) : Int), x.2 / (n * n))) ((0 : Int), one / n)).1
/-- ln 2 in fixed point. -/
def fixLn2 : Nat := 2 * atanhQ fixOne 1 3
/-- π scaled (Machin). -/
def piAt (one : Nat) : Nat := (16 * atanInv one 5 - 4 * atanInv one 239).toNat

/-- Fixed point of m × 2^e, cut. -/
def fixOf (m : Nat) (e : Int) : Nat := (cut m e (-(fracBits : Int))).1
/-- The value of a fixed-point number known to lie strictly between it and the next one. -/
def fixNum (neg : Bool) (v : Nat) (e : Int) : Num := .fin neg (2 * v + 1) (e - fracBits - 1)

/-- e^r in fixed point, for a fixed-point r below 1. -/
def fixExp (r : Nat) : Nat := series (fun i t => t * r / fixOne / (i + 1)) 200 0 fixOne
/-- e^(m × 2^e) or its inverse as v × 2^k, for an argument below 256: the fixed-point mantissa and k. -/
def expSplit (neg : Bool) (m : Nat) (e : Int) : Nat × Int :=
  let x := fixOf m e
  let k := x / fixLn2
  let r := x % fixLn2
  if neg then (fixExp (fixLn2 - r), -(k : Int) - 1) else (fixExp r, k)
/-- e^(−m × 2^e) in fixed point. -/
def fixExpNeg (m : Nat) (e : Int) : Nat :=
  let x := expSplit true m e
  x.1 / 2 ^ (-x.2).toNat
/-- The logarithm of m × 2^e (m not 0) in fixed point. -/
def fixLn (m : Nat) (e : Int) : Int :=
  let b := bitLen m - 1
  let y := m * 2 ^ (300 - b)
  let one := 2 ^ 300
  2 * (atanhQ fixOne (y - one) (y + one) : Int) + (e + b) * fixLn2

/-- m × 2^e is at least the natural number. -/
def magGe (m : Nat) (e : Int) (n : Nat) : Bool := n * 2 ^ (-(min e 0)).toNat ≤ m * 2 ^ (max e 0).toNat

/-- e^x (FUNC 0) of a finite x. -/
def expOf (neg : Bool) (m : Nat) (e : Int) : Num :=
  if m = 0 then .fin false 1 0
  else if magGe m e 256 then (if neg then .fin false 0 0 else .inf false)
  else
    let x := expSplit neg m e
    rn (fixNum false x.1 x.2)
/-- 2^x (FUNC 1) of a finite x. -/
def exp2Of (neg : Bool) (m : Nat) (e : Int) : Num :=
  if magGe m e 256 then (if neg then .fin false 0 0 else .inf false)
  else
    let x := fixOf m e
    let k := x / fixOne
    let r := x % fixOne
    if r = 0 then rn (.fin false 1 (if neg then -(k : Int) else k))
    else
      let t := if neg then fixOne - r else r
      rn (fixNum false (fixExp (t * fixLn2 / fixOne)) (if neg then -(k : Int) - 1 else k))
/-- A signed fixed-point value rounded to FP32. -/
def fixRn (v : Int) : Num := rn (fixNum (v < 0) (if v < 0 then v.natAbs - 1 else v.natAbs) 0)
/-- ln x (FUNC 2) of a positive x. -/
def lnOf (m : Nat) (e : Int) : Num :=
  if m = 2 ^ (-e).toNat ∧ e ≤ 0 then .fin false 0 0 else fixRn (fixLn m e)
/-- log2 x (FUNC 3) of a positive x. -/
def log2Of (m : Nat) (e : Int) : Num :=
  if m = 2 ^ (bitLen m - 1) then rn (ofInt (e + bitLen m - 1))
  else fixRn (fixLn m e * fixOne / fixLn2)
/-- 1 / x (FUNC 4) of a nonzero x. -/
def recipOf (neg : Bool) (m : Nat) (e : Int) : Num :=
  let q := quotSticky 1 m (-e)
  rn (.fin neg q.1 q.2)
/-- √x (FUNC 5) of a positive x. -/
def sqrtOf (m : Nat) (e : Int) : Num :=
  let up := (e % 2).toNat
  let n := m * 2 ^ (up + 128)
  let t := Nat.sqrt n
  rn (.fin false (2 * t + (if t * t = n then 0 else 1)) ((e - up) / 2 - 64 - 1))
/-- 1 / √x (FUNC 6) of a positive x. -/
def rsqrtOf (m : Nat) (e : Int) : Num :=
  let up := (e % 2).toNat
  let n := 2 ^ 256 / (m * 2 ^ up)
  let t := Nat.sqrt n
  rn (.fin false (2 * t + (if t * t * (m * 2 ^ up) = 2 ^ 256 then 0 else 1)) (-((e - up) / 2) - 128 - 1))
/-- 1 / (1 + e^−x) in fixed point (FUNC 7), for a magnitude below 256. -/
def fixSigmoid (neg : Bool) (m : Nat) (e : Int) : Nat :=
  let q := fixExpNeg m e
  (if neg then q else fixOne) * fixOne / (fixOne + q)
/-- SIGMOID of a finite x. -/
def sigmoidOf (neg : Bool) (m : Nat) (e : Int) : Num :=
  if m = 0 then .fin false 1 (-1)
  else if magGe m e 256 then .fin false (if neg then 0 else 1) 0
  else rn (fixNum false (fixSigmoid neg m e) 0)
/-- TANH of a finite nonzero x. -/
def tanhOf (neg : Bool) (m : Nat) (e : Int) : Num :=
  if magGe m e 64 then .fin neg 1 0
  else
    let q := fixExpNeg m (e + 1)
    rn (fixNum neg ((fixOne - q) * fixOne / (fixOne + q)) 0)
/-- SILU of a finite nonzero x. -/
def siluOf (neg : Bool) (m : Nat) (e : Int) : Num :=
  if magGe m e 256 then (if neg then .fin true 0 0 else .fin false m e)
  else rn (.fin neg (m * (2 * fixSigmoid neg m e + 1)) (e - fracBits - 1))
/-- Φ(x) in fixed point, for a magnitude below 16. -/
def fixPhi (neg : Bool) (m : Nat) (e : Int) : Nat :=
  let x := fixOf m e
  let xx := x * x / fixOne
  let terms := ((List.range 900).foldl (fun (a : Int × Nat) i =>
    (a.1 + (if i % 2 = 0 then 1 else -1) * ((a.2 / (2 * i + 1) : Nat) : Int), a.2 * xx / fixOne / (2 * (i + 1))))
    ((0 : Int), x)).1
  let root := Nat.sqrt (2 * piAt fixOne * fixOne)
  let h := terms.toNat * fixOne / root
  if neg then fixOne / 2 - h else fixOne / 2 + h
/-- GELU of a finite nonzero x. -/
def geluOf (neg : Bool) (m : Nat) (e : Int) : Num :=
  if magGe m e 16 then (if neg then .fin true 0 0 else .fin false m e)
  else rn (.fin neg (m * (2 * fixPhi neg m e + 1)) (e - fracBits - 1))

/-- Scale of the reduction of a circular argument. -/
def fixWide : Nat := 2 ^ (fracBits + 256)
/-- x mod π/2 of a magnitude, in the wide scale, and the quadrant. -/
def quadrant (m : Nat) (e : Int) : Nat × Nat :=
  let half := piAt fixWide / 2
  let x := fixOf m e * 2 ^ 256
  (x % half, x / half % 4)
/-- sin r of a wide r below π/2. -/
def fixSin (r : Nat) : Int :=
  altSeries (fun i t => t * r / fixWide * r / fixWide / ((2 * i + 2) * (2 * i + 3))) 200 0 r
/-- cos r of a wide r below π/2. -/
def fixCos (r : Nat) : Int :=
  altSeries (fun i t => t * r / fixWide * r / fixWide / ((2 * i + 1) * (2 * i + 2))) 200 0 fixWide
/-- A wide value rounded to FP32. -/
def wideRn (neg : Bool) (v : Int) : Num := rn (.fin neg (2 * v.toNat + 1) (-(fracBits : Int) - 257))
/-- SIN of a finite nonzero x. -/
def sinOf (neg : Bool) (m : Nat) (e : Int) : Num :=
  let (r, q) := quadrant m e
  wideRn (neg != decide (2 ≤ q)) (if q % 2 = 0 then fixSin r else fixCos r)
/-- COS of a finite x. -/
def cosOf (m : Nat) (e : Int) : Num :=
  if m = 0 then .fin false 1 0
  else
    let (r, q) := quadrant m e
    wideRn (q == 1 || q == 2) (if q % 2 = 0 then fixCos r else fixSin r)

/-- RD_FUNC of one value (R220, Table 6.7). -/
def rdFuncOf (func : Nat) (x : Num) : Num :=
  match x with
  | .nan => .nan
  | .inf neg =>
    match func with
    | 0 | 1 | 7 => if neg then .fin false 0 0 else if func = 7 then .fin false 1 0 else .inf false
    | 2 | 3 | 5 => if neg then .nan else .inf false
    | 4 => .fin neg 0 0
    | 6 => if neg then .nan else .fin false 0 0
    | 8 => .fin neg 1 0
    | 9 | 0xA => if neg then .fin true 0 0 else .inf false
    | _ => .nan
  | .fin neg m e =>
    let zero := m == 0
    match func with
    | 0 => expOf neg m e
    | 1 => exp2Of neg m e
    | 2 => if zero then .inf true else if neg then .nan else lnOf m e
    | 3 => if zero then .inf true else if neg then .nan else log2Of m e
    | 4 => if zero then .inf neg else recipOf neg m e
    | 5 => if zero then .fin neg 0 0 else if neg then .nan else sqrtOf m e
    | 6 => if zero then .inf neg else if neg then .nan else rsqrtOf m e
    | 7 => sigmoidOf neg m e
    | 8 => if zero then .fin neg 0 0 else tanhOf neg m e
    | 9 => if zero then .fin neg 0 0 else siluOf neg m e
    | 0xA => if zero then .fin neg 0 0 else geluOf neg m e
    | 0xB => if zero then .fin neg 0 0 else sinOf neg m e
    | _ => cosOf m e

end Sys2Proof.Machine
end

