-- ==== Sys2Proof/Machine/Reed.lean ====
section
/-! DEFINITION. The Reed commands (06 §6.3): reductions by the fixed tree (R217–R219), the multi-pass operations (R221, R222),
MX quantisation (R223) and RD_FUNC (R220). -/

namespace Sys2Proof.Machine

/-! ## The tree (R217) -/

/-- One level of the tree. -/
def treeLevel {α : Type} (op : α → α → α) : List α → List α
  | a :: b :: t => op a b :: treeLevel op t
  | l => l
/-- A group of 32 values to one. -/
def treeGroup {α : Type} (op : α → α → α) (i : α) (l : List α) : α :=
  let v := l ++ List.replicate (32 - l.length) i
  (treeLevel op (treeLevel op (treeLevel op (treeLevel op (treeLevel op v))))).headD i
/-- The reduction of a row. -/
def treeRow {α : Type} (op : α → α → α) (i : α) (row : List α) : α :=
  (chunks 32 row.length row).foldl (fun acc grp => op acc (treeGroup op i grp)) i

/-- −0.0. -/
def negZero : Num := .fin true 0 0
/-- The tree sum of FP32 values. -/
def treeSum (row : List Num) : Num := treeRow fadd negZero row
/-- The pair of RD_ARGMAX with the larger value, on equal values with the lower index. -/
def argOp (a b : Num × Nat) : Num × Nat :=
  if a.1.isNan && b.1.isNan then (if b.2 < a.2 then b else a)
  else if a.1.isNan then a
  else if b.1.isNan then b
  else if a.1.lt b.1 then b
  else if b.1.lt a.1 then a
  else if b.2 < a.2 then b else a
/-- The index of the first NaN or first maximum. -/
def argMax (row : List Num) : Nat := (treeRow argOp (.inf true, 2 ^ 32 - 1) row.zipIdx).2
/-- The first index of the largest integer. -/
def argMaxInt (row : List Int) : Nat :=
  ((row.zipIdx).foldl (fun (b : Option (Int × Nat)) x => match b with
    | none => some x
    | some y => if y.1 < x.1 then some x else b) none).elim 0 (·.2)

/-- A reduction of float values, in FP32 (R217). -/
def reduceFloat (op : Nat) (row : List Num) : Num :=
  match op with
  | 0x60 => treeSum row
  | 0x61 => treeSum (row.map fun x => fmul x x)
  | 0x62 => treeRow fmax (.inf true) row
  | 0x63 => treeRow fmin (.inf false) row
  | _ => fdivNat (treeSum row) row.length
/-- A reduction of integers, exact (R218). -/
def reduceInt (op : Nat) (row : List Int) : Int :=
  match op with
  | 0x60 => row.foldl (· + ·) 0
  | 0x62 => row.foldl max (row.headD 0)
  | _ => row.foldl min (row.headD 0)

/-! ## Written values and flags (R211, R212, Table 6.1) -/

/-- One written Reed element: its code and the flags NaN, OVF, SAT. -/
abbrev RdOut := Nat × Bool × Bool × Bool
/-- A float result written. -/
def rdFloat (fmt : Nat) (sr : Option Nat) (finite : Bool) (r : Num) : RdOut :=
  let o := floatOut fmt sr finite r
  (o.1, o.2.1, o.2.2, false)
/-- An integer result written, saturated. -/
def rdInt (fmt : Nat) (v : Int) : RdOut :=
  let o := intOut fmt true v
  (o.1, false, false, o.2)

/-- One row of a reduction. -/
def reduceRow (op fx fd : Nat) (sr : Option Nat) (row : List Nat) : RdOut :=
  if isFloat fx then
    let l := row.map (floatFmt fx).decode
    if op = 0x65 then rdInt fd (argMax l) else rdFloat fd sr (l.all (·.isFin)) (reduceFloat op l)
  else
    let l := row.map (intOf fx)
    if op = 0x65 then rdInt fd (argMaxInt l)
    else if isFloat fd then rdFloat fd sr true (rn (ofInt (reduceInt op l)))
    else rdInt fd (reduceInt op l)

/-! ## Multi-pass operations (R221) -/

/-- RSQRT and RECIP of Table 6.7. -/
def rsqrt (x : Num) : Num := rdFuncOf 6 x
/-- The values y of a row, and the factor q. -/
def multiPass (op : Nat) (eps : Num) (row : List Num) : List Num × Num :=
  let n := row.length
  if op = 0x67 then
    let q := rsqrt (fadd (fdivNat (treeSum (row.map fun x => fmul x x)) n) eps)
    (row.map fun x => fmul x q, q)
  else if op = 0x66 then
    let mu := fdivNat (treeSum row) n
    let d := row.map fun x => fsub x mu
    let q := rsqrt (fadd (fdivNat (treeSum (d.map fun x => fmul x x)) n) eps)
    (d.map fun x => fmul x q, q)
  else
    let m := treeRow fmax (.inf true) row
    let e := row.map fun x => rdFuncOf 0 (fsub x m)
    let q := rdFuncOf 4 (treeSum e)
    (e.map fun x => fmul x q, q)

/-! ## MX quantisation (R223) -/

/-- emax of an MX element format. -/
def mxEmax (fmt : Nat) : Int := if fmt = 6 then 8 else if fmt = 7 then 15 else 0
/-- Floor of log2 of the largest magnitude of finite values, none if all are 0. -/
def mxLog (l : List Num) : Option Int :=
  l.foldl (fun b x => match x with
    | .fin _ m e => if m = 0 then b else
        (match b with | none => some (e + bitLen m - 1) | some y => some (max y (e + bitLen m - 1)))
    | _ => b) none
/-- A finite value divided by 2^E. -/
def downBy (x : Num) (k : Int) : Num :=
  match x with
  | .fin n m e => .fin n m (e - k)
  | y => y
/-- An MXINT8 element: round(x × 2^6) saturated to ±127 (R223, R264). -/
def mxInt8 (sr : Option Nat) (x : Num) : Nat × Bool :=
  match x with
  | .fin neg m e =>
    let (t, r, sh) := cut m (e + 6) 0
    let up := match sr with
      | none => decide (sh ≠ 0 ∧ (2 ^ sh < 2 * r ∨ 2 ^ sh = 2 * r ∧ t % 2 = 1))
      | some g => decide (g < r * 65536 / 2 ^ sh)
    let v : Int := ((if up then t + 1 else t : Nat) : Int)
    let c := clampInt (-127, 127) (if neg then -v else v)
    (unsigned 8 c.1, c.2)
  | _ => (0, false)
/-- A block: its element codes with their saturation, its scale byte. `first` is the index of its first element. -/
def mxBlock (fmt : Nat) (sr : Nat → Option Nat) (l : List (Num × Nat)) : List (Nat × Bool) × Nat :=
  let vals := l.map (·.1)
  if vals.any fun x => !x.isFin then (l.map fun _ => (0, false), 0xFF)
  else match mxLog vals with
    | none => (l.map fun _ => (0, false), 0)
    | some lg =>
      let k := (clampInt (-127, 127) (lg - mxEmax fmt)).1
      let el := fun (x : Num × Nat) =>
        if fmt = 8 then mxInt8 (sr x.2) (downBy x.1 k) else (floatFmt fmt).encode (sr x.2) (downBy x.1 k)
      (l.map el, (k + 127).toNat)

/-! ## Commands -/

/-- The flags of a list of outputs (bits 3–5 of Table 6.1). -/
def rdFlags (l : List RdOut) : Nat :=
  flagBit (l.any (·.2.1)) 3 + flagBit (l.any (·.2.2.1)) 4 + flagBit (l.any (·.2.2.2)) 5

/-- The codes a Reed command writes into its elements with their flags, and the scale bytes of RD_MXQ. -/
def State.rdOutputs (s : State) (g : CoreId) (x : Cmd) (sd dd : Desc) : List RdOut × List Nat :=
  let op := fld x.op 7 0
  let raw := s.elems g sd
  let sr := s.srOf g (bit x.op 36) x
  let n := sd.sz 0 + 1
  let dec := (floatFmt sd.fmt).decode
  if op ≤ 0x65 then
    ((chunks n raw.length raw).zipIdx.map fun r => reduceRow op sd.fmt dd.fmt (sr r.2) r.1, [])
  else if op ≤ 0x68 then
    let eps := num32 (s.creg g 0x504).toNat
    let ys := (chunks n raw.length raw).flatMap fun r =>
      let v := r.map dec
      let m := multiPass op eps v
      m.1.map fun y => (y, v.all (·.isFin) && m.2.isFin)
    (ys.zipIdx.map fun y => rdFloat dd.fmt (sr y.2) y.1.2 y.1.1, [])
  else if op = 0x69 then
    let blocks := (chunks 32 raw.length ((raw.map dec).zipIdx)).map fun b => mxBlock dd.fmt sr b
    (blocks.flatMap fun b => b.1.map fun e => (e.1, false, e.2, false), blocks.map (·.2))
  else
    let f := fld x.op 35 32
    (raw.zipIdx.map fun e =>
      let v := dec e.1
      rdFloat dd.fmt (sr e.2) (v.isFin && !(v.isZero && (f == 2 || f == 3 || f == 4 || f == 6))) (rdFuncOf f v), [])

/-- The clk in which row r of a multi-pass operation is first presented and its first output group, from the acceptance on
(R222, Table 6.8): G groups a row. -/
def passTimes (op grp r : Nat) : Nat × Nat :=
  if op = 0x67 then (1 + r * (2 * grp + 30), 1 + r * (2 * grp + 30) + grp + 30)
  else (1 + r * (3 * grp + 44), 1 + r * (3 * grp + 44) + 2 * grp + 44)
/-- The clk from the acceptance on in which group k of a Reed source is presented: `grp` groups a row (R208, R219, R222). -/
def rdReadAt (op grp k : Nat) : Nat := if op = 0x66 ∨ op = 0x67 ∨ op = 0x68 then (passTimes op grp (k / grp)).1 + k % grp else 1 + k
/-- The clk from the acceptance on in which output group k of a Reed command is presented (R219, R220, R222, R223): a reduction's
after the last result of the group is formed. -/
def rdWriteAt (op rows grp k : Nat) : Nat :=
  if op ≤ 0x65 then grp * min (32 * k + 32) rows + 4 + (if op = 0x64 then 12 else 8)
  else if op ≤ 0x68 then (passTimes op grp (k / grp)).2 + k % grp
  else if op = 0x69 then 14 + k
  else 16 + k
/-- The rows of an operand, each in groups of 32 elements (R207). -/
def Desc.rowGroups {α : Type} (d : Desc) (l : List α) (w : Nat) : List (List α) :=
  (chunks (w * (d.sz 0 + 1)) l.length l).flatMap fun r => chunks (32 * w) r.length r

/-- A Reed command accepted (R207–R210, R219–R223): 32 elements of one row a group. The scales of RD_MXQ go in groups of 32
blocks, in the clk after the last of them is formed. -/
def State.reed (s : State) (g : CoreId) (opcode : Nat) : State :=
  match s.nextOp g 3 opcode with
  | none => s
  | some x =>
    let sd := s.desc g (fld x.op 19 8)
    let dd := s.desc g (fld x.op 31 20)
    let ro := s.rdOutputs g x sd dd
    let codes := ro.1.map (·.1)
    let rows := (sd.sz 1 + 1) * (sd.sz 2 + 1) * (sd.sz 3 + 1)
    let grp := ceilDiv (sd.sz 0 + 1) 32
    let t := s.now
    let red := decide (opcode ≤ 0x65)
    let outGroups := if red then dd.writesBy codes 32 else dd.rowGroups (dd.writes codes) dd.e
    let flags := (if red then chunks 32 ro.1.length ro.1 else dd.rowGroups ro.1 1).map rdFlags
    let blocks := ro.2.length
    let scales :=
      if opcode = 0x69 then
        let sc := s.desc g dd.scale
        writeSteps 7 sc.gath (sc.writesBy ro.2 32) (fun k => t + 15 + min (32 * k + 31) (blocks - 1))
          (fun k => flagBit (((ro.2.drop (32 * k)).take 32).any (· == 0xFF)) 3) (fun _ => [])
      else []
    s.accept g x (opcode = 0x66 ∨ opcode = 0x67 ∨ opcode = 0x68)
      (readSteps 6 sd.gath (sd.rowGroups sd.stream sd.e) (fun k => t + rdReadAt opcode grp k) ++
        writeSteps 7 dd.gath outGroups (fun k => t + rdWriteAt opcode rows grp k) (flags.getD · 0) (fun _ => []) ++ scales)

/-- RD_SUM (0x60). -/
def execRdSum (g : CoreId) (s : State) : Host.Outcome State Fault Refusal := .next (s.reed g 0x60)
/-- RD_SUMSQ (0x61). -/
def execRdSumsq (g : CoreId) (s : State) : Host.Outcome State Fault Refusal := .next (s.reed g 0x61)
/-- RD_MAX (0x62). -/
def execRdMax (g : CoreId) (s : State) : Host.Outcome State Fault Refusal := .next (s.reed g 0x62)
/-- RD_MIN (0x63). -/
def execRdMin (g : CoreId) (s : State) : Host.Outcome State Fault Refusal := .next (s.reed g 0x63)
/-- RD_MEAN (0x64). -/
def execRdMean (g : CoreId) (s : State) : Host.Outcome State Fault Refusal := .next (s.reed g 0x64)
/-- RD_ARGMAX (0x65). -/
def execRdArgmax (g : CoreId) (s : State) : Host.Outcome State Fault Refusal := .next (s.reed g 0x65)
/-- RD_LNORM (0x66). -/
def execRdLnorm (g : CoreId) (s : State) : Host.Outcome State Fault Refusal := .next (s.reed g 0x66)
/-- RD_RMSNORM (0x67). -/
def execRdRmsnorm (g : CoreId) (s : State) : Host.Outcome State Fault Refusal :=
  .next (s.reed g 0x67)
/-- RD_SOFTMAX (0x68). -/
def execRdSoftmax (g : CoreId) (s : State) : Host.Outcome State Fault Refusal :=
  .next (s.reed g 0x68)
/-- RD_MXQ (0x69). -/
def execRdMxq (g : CoreId) (s : State) : Host.Outcome State Fault Refusal := .next (s.reed g 0x69)
/-- RD_FUNC (0x6A). -/
def execRdFunc (g : CoreId) (s : State) : Host.Outcome State Fault Refusal := .next (s.reed g 0x6A)

end Sys2Proof.Machine
end

