-- ==== Sys2Proof/Machine/Slot.lean ====
section
/-! DEFINITION. The service slot of a core (01 R26–R28): which beat it moves, and what that beat does. -/

namespace Sys2Proof.Machine

/-- A beat of the service slot: bytes of a payload enter the fell buffer; an access of the beam goes to port SVC, if that is free
(R148); an access of the card store, the take-up or the registers is performed (R31, R33, R518). -/
def State.serve (s : State) (g : CoreId) (x : SvcBeat) : State :=
  match x with
  | .land td sp seq off l => s.serveLand g td sp seq off l
  | .reg req a size val => s.writeNow req a size val
  | .bar0 td fn off n got bad =>
    (match s.nextRead td fn off n got with
    | none => s
    | some (a, m) =>
      match memAt a with
      | some (_, 0) => s.modCore g fun c => { c with svcPort := some x }
      | some _ =>
        s.lineRead g td fn off n got bad ((List.range m).map fun i => s.byte (a + i)) (s.readErrors a m)
      | none => s.hostReadNow td fn off.toNat a n)
  | _ => s.modCore g fun c => { c with svcPort := some x }
/-- A beat that goes to port SVC while the one before it still waits there stays in the landing queue. -/
def State.svcBlocked (s : State) (g : CoreId) (x : SvcBeat) : Bool :=
  (s.core g).svcPort.isSome &&
    match x with
    | .land .. => false
    | .reg .. => false
    | .bar0 td fn off n got _ =>
      (match (s.nextRead td fn off n got).bind fun y => memAt y.1 with
      | some (_, 0) => true
      | _ => false)
    | _ => true
/-- SERVICE_SLOT_ACCESS (R26–R28): in slot 63 of the rotation, one beat of the service landing queue moves, by the order of R27. -/
def State.serviceSlot (s : State) (g : CoreId) : State :=
  if !s.works g || !s.slotFree g .service then s
  else match nextSvc ((s.core g).svc.take Config.landingCap) with
    | none => s
    | some x =>
      if s.svcBlocked g x then s
      else ((s.useSlot g .service).modCore g fun c => { c with svc := c.svc.erase x }).serve g x
/-- OVERSEER_RESERVE_READ (R469): the Overseer reads a word at an offset of the system reserve, through the service slot (R26). -/
def State.reserveRead (s : State) (g : CoreId) (off : Nat) : State :=
  if s.works g && 3 ≤ s.pwrState then
    s.modCore g fun c => { c with svc := c.svc ++ [.overseer (0x7F0000 + 4 * (off % 65536 / 4)) false] }
  else s

/-- SERVICE_SLOT_ACCESS. -/
def execServiceSlotAccess (g : CoreId) (s : State) : Host.Outcome State Fault Refusal := .next (s.serviceSlot g)
/-- OVERSEER_RESERVE_READ. -/
def execOverseerReserveRead (g : CoreId) (off : BitVec 16) (s : State) : Host.Outcome State Fault Refusal :=
  .next (s.reserveRead g off.toNat)

end Sys2Proof.Machine
end

