-- ==== Sys2Proof/Machine/Dispatch.lean ====
section
/-! DEFINITION. One arm per command: a direct call of its meaning. -/

namespace Sys2Proof.Machine

def exec (i : Instr) (s : State) : Host.Outcome State Fault Refusal :=
  match i with
  | .registerWrite req addr size val => Sys2Proof.Machine.execRegisterWrite req addr size val s
  | .lowHalfWrite req addr val => Sys2Proof.Machine.execLowHalfWrite req addr val s
  | .highHalfWrite req addr val => Sys2Proof.Machine.execHighHalfWrite req addr val s
  | .snapshotLatch req grp => Sys2Proof.Machine.execSnapshotLatch req grp s
  | .snapshotRelease req grp => Sys2Proof.Machine.execSnapshotRelease req grp s
  | .coreSnapshotLatch req g => Sys2Proof.Machine.execCoreSnapshotLatch req g s
  | .coreSnapshotRelease req g => Sys2Proof.Machine.execCoreSnapshotRelease req g s
  | .bar0MemoryWrite td fn addr bytes => Sys2Proof.Machine.execBar0MemoryWrite td fn addr bytes s
  | .bar0MemoryRead td fn addr len => Sys2Proof.Machine.execBar0MemoryRead td fn addr len s
  | .bar0ReadRelease g => Sys2Proof.Machine.execBar0ReadRelease g s
  | .serviceSlotAccess g => Sys2Proof.Machine.execServiceSlotAccess g s
  | .configRequest td fn op => Sys2Proof.Machine.execConfigRequest td fn op s
  | .spoolTailDoorbell td fn sp val => Sys2Proof.Machine.execSpoolTailDoorbell td fn sp val s
  | .spoolTheadDoorbell td fn sp val => Sys2Proof.Machine.execSpoolTheadDoorbell td fn sp val s
  | .spoolEnable td sp => Sys2Proof.Machine.execSpoolEnable td sp s
  | .spoolDisable td sp => Sys2Proof.Machine.execSpoolDisable td sp s
  | .spoolHeadWrite td sp val => Sys2Proof.Machine.execSpoolHeadWrite td sp val s
  | .spoolCfgWrite td sp val => Sys2Proof.Machine.execSpoolCfgWrite td sp val s
  | .spoolStopped td sp => Sys2Proof.Machine.execSpoolStopped td sp s
  | .boltFetch td sp => Sys2Proof.Machine.execBoltFetch td sp s
  | .boltHeaderArrive td sp hdr => Sys2Proof.Machine.execBoltHeaderArrive td sp hdr s
  | .boltStart td sp => Sys2Proof.Machine.execBoltStart td sp s
  | .landPayloadArrive td sp payload => Sys2Proof.Machine.execLandPayloadArrive td sp payload s
  | .outCopyBeat td sp => Sys2Proof.Machine.execOutCopyBeat td sp s
  | .fenceComplete td sp => Sys2Proof.Machine.execFenceComplete td sp s
  | .ticketWrite td sp => Sys2Proof.Machine.execTicketWrite td sp s
  | .poisonedWrite td fn => Sys2Proof.Machine.execPoisonedWrite td fn s
  | .pcieLinkDown td fn => Sys2Proof.Machine.execPcieLinkDown td fn s
  | .pcieFundamentalReset td => Sys2Proof.Machine.execPcieFundamentalReset td s
  | .hotReset td fn => Sys2Proof.Machine.execHotReset td fn s
  | .linkDisable td fn => Sys2Proof.Machine.execLinkDisable td fn s
  | .functionLevelReset td fn => Sys2Proof.Machine.execFunctionLevelReset td fn s
  | .busMasterClear td fn => Sys2Proof.Machine.execBusMasterClear td fn s
  | .tallyArm td n => Sys2Proof.Machine.execTallyArm td n s
  | .tallyStreamReset td n => Sys2Proof.Machine.execTallyStreamReset td n s
  | .weftTick => Sys2Proof.Machine.execWeftTick s
  | .weftRefLost => Sys2Proof.Machine.execWeftRefLost s
  | .weftRefReturn err => Sys2Proof.Machine.execWeftRefReturn err s
  | .weftSetWrite req hi => Sys2Proof.Machine.execWeftSetWrite req hi s
  | .pickRun => Sys2Proof.Machine.execPickRun s
  | .pickStop => Sys2Proof.Machine.execPickStop s
  | .pickPeriodWrite val => Sys2Proof.Machine.execPickPeriodWrite val s
  | .pickReserveWrite val => Sys2Proof.Machine.execPickReserveWrite val s
  | .clkCfgWrite val => Sys2Proof.Machine.execClkCfgWrite val s
  | .clockChangeDone => Sys2Proof.Machine.execClockChangeDone s
  | .pickStart => Sys2Proof.Machine.execPickStart s
  | .pickStartAckTimeout g => Sys2Proof.Machine.execPickStartAckTimeout g s
  | .fellWindowOpen => Sys2Proof.Machine.execFellWindowOpen s
  | .ledgerCheckDone => Sys2Proof.Machine.execLedgerCheckDone s
  | .decisionDeadline => Sys2Proof.Machine.execDecisionDeadline s
  | .readyRecord p => Sys2Proof.Machine.execReadyRecord p s
  | .lateRecord p => Sys2Proof.Machine.execLateRecord p s
  | .decisionRecord p => Sys2Proof.Machine.execDecisionRecord p s
  | .drainEnd g => Sys2Proof.Machine.execDrainEnd g s
  | .squashEnd g => Sys2Proof.Machine.execSquashEnd g s
  | .fellResolve val => Sys2Proof.Machine.execFellResolve val s
  | .stagedWriteArrive g => Sys2Proof.Machine.execStagedWriteArrive g s
  | .cardFetch g => Sys2Proof.Machine.execCardFetch g s
  | .cardDecode g => Sys2Proof.Machine.execCardDecode g s
  | .issue g => Sys2Proof.Machine.execIssue g s
  | .loop g => Sys2Proof.Machine.execLoop g s
  | .endpick g => Sys2Proof.Machine.execEndpick g s
  | .cardRetire g => Sys2Proof.Machine.execCardRetire g s
  | .shedSelect g => Sys2Proof.Machine.execShedSelect g s
  | .selectorReadDone g => Sys2Proof.Machine.execSelectorReadDone g s
  | .undoCancelAck g src => Sys2Proof.Machine.execUndoCancelAck g src s
  | .prologueStart g => Sys2Proof.Machine.execPrologueStart g s
  | .captureHit g => Sys2Proof.Machine.execCaptureHit g s
  | .beamRead g port off mask => Sys2Proof.Machine.execBeamRead g port off mask s
  | .storeBufferDrain g bank => Sys2Proof.Machine.execStoreBufferDrain g bank s
  | .parInjectArm g off => Sys2Proof.Machine.execParInjectArm g off s
  | .parInjectDisarm g => Sys2Proof.Machine.execParInjectDisarm g s
  | .carryMapWrite g m val => Sys2Proof.Machine.execCarryMapWrite g m val s
  | .wvPass g => Sys2Proof.Machine.execWvPass g s
  | .wvDrain g => Sys2Proof.Machine.execWvDrain g s
  | .arrayGateGroup g => Sys2Proof.Machine.execArrayGateGroup g s
  | .arrayUngateGroup g => Sys2Proof.Machine.execArrayUngateGroup g s
  | .btAdd g => Sys2Proof.Machine.execBtAdd g s
  | .btSub g => Sys2Proof.Machine.execBtSub g s
  | .btMul g => Sys2Proof.Machine.execBtMul g s
  | .btFma g => Sys2Proof.Machine.execBtFma g s
  | .btAxpy g => Sys2Proof.Machine.execBtAxpy g s
  | .btMax g => Sys2Proof.Machine.execBtMax g s
  | .btMin g => Sys2Proof.Machine.execBtMin g s
  | .btAbs g => Sys2Proof.Machine.execBtAbs g s
  | .btNeg g => Sys2Proof.Machine.execBtNeg g s
  | .btRelu g => Sys2Proof.Machine.execBtRelu g s
  | .btCvt g => Sys2Proof.Machine.execBtCvt g s
  | .btClamp g => Sys2Proof.Machine.execBtClamp g s
  | .btCmpgt g => Sys2Proof.Machine.execBtCmpgt g s
  | .btAnd g => Sys2Proof.Machine.execBtAnd g s
  | .btOr g => Sys2Proof.Machine.execBtOr g s
  | .btXor g => Sys2Proof.Machine.execBtXor g s
  | .btShl g => Sys2Proof.Machine.execBtShl g s
  | .btShra g => Sys2Proof.Machine.execBtShra g s
  | .rdSum g => Sys2Proof.Machine.execRdSum g s
  | .rdSumsq g => Sys2Proof.Machine.execRdSumsq g s
  | .rdMax g => Sys2Proof.Machine.execRdMax g s
  | .rdMin g => Sys2Proof.Machine.execRdMin g s
  | .rdMean g => Sys2Proof.Machine.execRdMean g s
  | .rdArgmax g => Sys2Proof.Machine.execRdArgmax g s
  | .rdLnorm g => Sys2Proof.Machine.execRdLnorm g s
  | .rdRmsnorm g => Sys2Proof.Machine.execRdRmsnorm g s
  | .rdSoftmax g => Sys2Proof.Machine.execRdSoftmax g s
  | .rdMxq g => Sys2Proof.Machine.execRdMxq g s
  | .rdFunc g => Sys2Proof.Machine.execRdFunc g s
  | .hlCopy g => Sys2Proof.Machine.execHlCopy g s
  | .hlTranspose g => Sys2Proof.Machine.execHlTranspose g s
  | .hlGather g => Sys2Proof.Machine.execHlGather g s
  | .hlScatter g => Sys2Proof.Machine.execHlScatter g s
  | .cdVoxel g => Sys2Proof.Machine.execCdVoxel g s
  | .cdRules g => Sys2Proof.Machine.execCdRules g s
  | .cdGather g => Sys2Proof.Machine.execCdGather g s
  | .cdBev g => Sys2Proof.Machine.execCdBev g s
  | .knotAdd g => Sys2Proof.Machine.execKnotAdd g s
  | .knotAddSend g => Sys2Proof.Machine.execKnotAddSend g s
  | .knotSignalArrive g => Sys2Proof.Machine.execKnotSignalArrive g s
  | .knotWait g => Sys2Proof.Machine.execKnotWait g s
  | .writeAckArrive g => Sys2Proof.Machine.execWriteAckArrive g s
  | .chanSend g => Sys2Proof.Machine.execChanSend g s
  | .chanSendPerform g => Sys2Proof.Machine.execChanSendPerform g s
  | .messageArrive g => Sys2Proof.Machine.execMessageArrive g s
  | .messageAckArrive g => Sys2Proof.Machine.execMessageAckArrive g s
  | .chanRecv g => Sys2Proof.Machine.execChanRecv g s
  | .chanRecvPerform g => Sys2Proof.Machine.execChanRecvPerform g s
  | .creditArrive g => Sys2Proof.Machine.execCreditArrive g s
  | .mark g => Sys2Proof.Machine.execMark g s
  | .shCopy g => Sys2Proof.Machine.execShCopy g s
  | .shRelay g => Sys2Proof.Machine.execShRelay g s
  | .shCancel g => Sys2Proof.Machine.execShCancel g s
  | .gateReady g e => Sys2Proof.Machine.execGateReady g e s
  | .transferStart g e => Sys2Proof.Machine.execTransferStart g e s
  | .transferTimeout g e => Sys2Proof.Machine.execTransferTimeout g e s
  | .meshBeatSend g cls => Sys2Proof.Machine.execMeshBeatSend g cls s
  | .meshBeatLand g cls => Sys2Proof.Machine.execMeshBeatLand g cls s
  | .portEnable p val => Sys2Proof.Machine.execPortEnable p val s
  | .portDisable p val => Sys2Proof.Machine.execPortDisable p val s
  | .portReset p val => Sys2Proof.Machine.execPortReset p val s
  | .portCredWrite p val => Sys2Proof.Machine.execPortCredWrite p val s
  | .detectRound p => Sys2Proof.Machine.execDetectRound p s
  | .detectRoundEnd p => Sys2Proof.Machine.execDetectRoundEnd p s
  | .signalDetect p => Sys2Proof.Machine.execSignalDetect p s
  | .trainDone p => Sys2Proof.Machine.execTrainDone p s
  | .alignDone p => Sys2Proof.Machine.execAlignDone p s
  | .measureDone p partnerMeas partnerMin => Sys2Proof.Machine.execMeasureDone p partnerMeas partnerMin s
  | .attemptTimeout p => Sys2Proof.Machine.execAttemptTimeout p s
  | .lockLost p => Sys2Proof.Machine.execLockLost p s
  | .signalLost p => Sys2Proof.Machine.execSignalLost p s
  | .flitSend p => Sys2Proof.Machine.execFlitSend p s
  | .flitReceive p flit => Sys2Proof.Machine.execFlitReceive p flit s
  | .replayTimeout p => Sys2Proof.Machine.execReplayTimeout p s
  | .writePacket p => Sys2Proof.Machine.execWritePacket p s
  | .readReq p => Sys2Proof.Machine.execReadReq p s
  | .signalPacket p => Sys2Proof.Machine.execSignalPacket p s
  | .readData p => Sys2Proof.Machine.execReadData p s
  | .writeAck p => Sys2Proof.Machine.execWriteAck p s
  | .signalAck p => Sys2Proof.Machine.execSignalAck p s
  | .refused p => Sys2Proof.Machine.execRefused p s
  | .malformedPacket p vc => Sys2Proof.Machine.execMalformedPacket p vc s
  | .timeRecordSend p => Sys2Proof.Machine.execTimeRecordSend p s
  | .timeRecord p => Sys2Proof.Machine.execTimeRecord p s
  | .timeHoldover => Sys2Proof.Machine.execTimeHoldover s
  | .probeRecord p => Sys2Proof.Machine.execProbeRecord p s
  | .echoRecord p rtt => Sys2Proof.Machine.execEchoRecord p rtt s
  | .barrierCfgWrite val => Sys2Proof.Machine.execBarrierCfgWrite val s
  | .barrierGo val => Sys2Proof.Machine.execBarrierGo val s
  | .barrierRecord p => Sys2Proof.Machine.execBarrierRecord p s
  | .barrierFire => Sys2Proof.Machine.execBarrierFire s
  | .routeDownClear sd pkg => Sys2Proof.Machine.execRouteDownClear sd pkg s
  | .fabHopsWrite val => Sys2Proof.Machine.execFabHopsWrite val s
  | .shTimeoutWrite val => Sys2Proof.Machine.execShTimeoutWrite val s
  | .progStart => Sys2Proof.Machine.execProgStart s
  | .progStop => Sys2Proof.Machine.execProgStop s
  | .progMapWrite m val => Sys2Proof.Machine.execProgMapWrite m val s
  | .kpairWrite n val => Sys2Proof.Machine.execKpairWrite n val s
  | .digestStart => Sys2Proof.Machine.execDigestStart s
  | .digestDone => Sys2Proof.Machine.execDigestDone s
  | .boltDigestDone td sp seq => Sys2Proof.Machine.execBoltDigestDone td sp seq s
  | .historyAppend => Sys2Proof.Machine.execHistoryAppend s
  | .provenanceTagDone td sp seq => Sys2Proof.Machine.execProvenanceTagDone td sp seq s
  | .flashRead => Sys2Proof.Machine.execFlashRead s
  | .flashProgram => Sys2Proof.Machine.execFlashProgram s
  | .flashErase => Sys2Proof.Machine.execFlashErase s
  | .flashOpDone fail => Sys2Proof.Machine.execFlashOpDone fail s
  | .reboot => Sys2Proof.Machine.execReboot s
  | .overseerCompare oa ob delayBad => Sys2Proof.Machine.execOverseerCompare oa ob delayBad s
  | .resyncEnd checkpointBad => Sys2Proof.Machine.execResyncEnd checkpointBad s
  | .comparatorSelftest reported => Sys2Proof.Machine.execComparatorSelftest reported s
  | .ovsHalt val => Sys2Proof.Machine.execOvsHalt val s
  | .overseerReserveRead g off => Sys2Proof.Machine.execOverseerReserveRead g off s
  | .logQueueEnter d => Sys2Proof.Machine.execLogQueueEnter d s
  | .logEntryWrite d => Sys2Proof.Machine.execLogEntryWrite d s
  | .errorStatusSet => Sys2Proof.Machine.execErrorStatusSet s
  | .tallyPassGo d n => Sys2Proof.Machine.execTallyPassGo d n s
  | .tallyPassDone d n => Sys2Proof.Machine.execTallyPassDone d n s
  | .powerRequest td val => Sys2Proof.Machine.execPowerRequest td val s
  | .powerTransitionDone => Sys2Proof.Machine.execPowerTransitionDone s
  | .vddAuxRise => Sys2Proof.Machine.execVddAuxRise s
  | .resetNAssert => Sys2Proof.Machine.execResetNAssert s
  | .resetNRelease => Sys2Proof.Machine.execResetNRelease s
  | .powerOn => Sys2Proof.Machine.execPowerOn s
  | .powerOnStepDone => Sys2Proof.Machine.execPowerOnStepDone s
  | .powerGoodTimeout => Sys2Proof.Machine.execPowerGoodTimeout s
  | .pwrFailFall => Sys2Proof.Machine.execPwrFailFall s
  | .pwrFailRise => Sys2Proof.Machine.execPwrFailRise s
  | .supplyReturnTimeout => Sys2Proof.Machine.execSupplyReturnTimeout s
  | .phaseADone => Sys2Proof.Machine.execPhaseADone s
  | .phaseBStep => Sys2Proof.Machine.execPhaseBStep s
  | .avsAck j => Sys2Proof.Machine.execAvsAck j s
  | .avsTimeout j => Sys2Proof.Machine.execAvsTimeout j s
  | .avsTelemetry coreWatts => Sys2Proof.Machine.execAvsTelemetry coreWatts s
  | .thermalReport d temp => Sys2Proof.Machine.execThermalReport d temp s
  | .diePowerWrite val => Sys2Proof.Machine.execDiePowerWrite val s
  | .diePowerDone d => Sys2Proof.Machine.execDiePowerDone d s
  | .islandFault who kind => Sys2Proof.Machine.execIslandFault who kind s
  | .wakeNLow => Sys2Proof.Machine.execWakeNLow s
  | .perstRise td => Sys2Proof.Machine.execPerstRise td s
  | .gpio0Edge rising => Sys2Proof.Machine.execGpio0Edge rising s
  | .smbusAddressMatch => Sys2Proof.Machine.execSmbusAddressMatch s
  | .smbState => Sys2Proof.Machine.execSmbState s
  | .smbReq val pecOk => Sys2Proof.Machine.execSmbReq val pecOk s
  | .smbRefusal => Sys2Proof.Machine.execSmbRefusal s
  | .smbTemp => Sys2Proof.Machine.execSmbTemp s
  | .smbPower => Sys2Proof.Machine.execSmbPower s
  | .smbAlertRead => Sys2Proof.Machine.execSmbAlertRead s
  | .smbAlertClear val pecOk => Sys2Proof.Machine.execSmbAlertClear val pecOk s
  | .smbLogseq => Sys2Proof.Machine.execSmbLogseq s
  | .pwrLimitWrite val => Sys2Proof.Machine.execPwrLimitWrite val s
  | .avsTmoWrite val => Sys2Proof.Machine.execAvsTmoWrite val s
  | .padSlewWrite val => Sys2Proof.Machine.execPadSlewWrite val s
  | .jtagInstruction op => Sys2Proof.Machine.execJtagInstruction op s
  | .completionTimeout td sp payload => Sys2Proof.Machine.execCompletionTimeout td sp payload s
  | .pcieLinkUp td fn rate width => Sys2Proof.Machine.execPcieLinkUp td fn rate width s
  | .trstNAssert => Sys2Proof.Machine.execTrstNAssert s
  | .tallyCfgWrite td n val => Sys2Proof.Machine.execTallyCfgWrite td n val s

end Sys2Proof.Machine
end

