-- ==== Sys2Proof/Machine/Tick.lean ====
section
/-! DEFINITION. One clk of the core clocks: what happens in every clk whatever is commanded. The table has no row for it; it
is what a step does when no command waits (log entry 9). -/

namespace Sys2Proof.Machine

/-- A beat for the core is held at the router of its die in a clk (R28): it has arrived, and the landing queue of its class is full. -/
def Core.holdsBeat (c : Core) (now : Nat) : Bool :=
  (c.beatsIn.any fun b => b.due ≤ now && Config.landingCap ≤ (c.landQ (classNum b.cls)).length) ||
    Config.landingCap < c.svc.length
/-- LDIE_MESH_HOLD (Table 16.8): a clk counts once for a die. -/
def State.meshHold (s : State) : State :=
  (List.finRange 32).foldl (fun s d =>
    if (List.range 8).any fun c => (s.core (coreOf d c)).holdsBeat s.now then s.count (ldie d 0x20) 1 else s) s
/-- The end of a clk (R138, R145, R154, R183): port SVC, then every other access of a core's beam and what follows from it. -/
def State.endOfClk (s : State) (cores : List CoreId) : State :=
  cores.foldl (fun s g => (s.svcClk g).coreClk g) s
/-- The next clk (R9, R528): the clk of the pick, in a fell window that of the window too. -/
def State.nextClk (s : State) : State :=
  s.modHeddle fun h =>
    { h with now := h.now + 1, clk := h.clk + 1, winClk := if h.phase = .window then h.winClk + 1 else h.winClk }
/-- The start of a clk at a core (R127, R132, R286): queued increments, the next load of a prologue, a card that waits. -/
def State.startCore (s : State) (g : CoreId) : State :=
  let s1 := (s.knotClk g).prologueClk g
  if s1.runs g then s1.holdClk g else s1
/-- The start of a clk: what crosses the mesh to and from the Selvedge dies arrives, then each core. -/
def State.startOfClk (s : State) (cores : List CoreId) : State :=
  cores.foldl (fun s g => s.startCore g) (([0, 1, 2, 3] : List Sd).foldl (fun s n => s.crossClk n) s)
/-- One clk. -/
def State.tick (s : State) : State :=
  if s.clocksRun then
    let cores := s.workingCores
    (((s.meshHold).endOfClk cores).nextClk).startOfClk cores
  else s

end Sys2Proof.Machine
end

