-- ==== Sys2Proof/Safety.lean ====
section
/-! DEFINITION. What a safe state is: the canonical forms of the register file and the memory, which make equal machines
equal data, and fuses of one of the two grades; every step keeps them. -/

namespace Sys2Proof

open Sys2Proof.Machine

/-- The register file is in canonical form: addresses strictly rising, no register listed at its reset value. -/
abbrev Machine.regsWf (s : State) : Prop := swf regReset s.regs = true

/-- The memory is in canonical form: addresses strictly rising, no byte listed at what an unlisted one reads as. -/
abbrev Machine.memWf (s : State) : Prop := swf memReset s.mem = true

/-- The package is of one of the two grades (R1, R3). -/
abbrev Machine.gradeWf (s : State) : Prop := s.temple.fuses.graded = true

end Sys2Proof
end

