-- ==== Sys2Proof/WellFormed.lean ====
section
/-! DEFINITION. Which commands are well formed: the ranges of the operands that their Lean types do not fix (access sizes
of R10, payload and flit lengths of 11 and 12). A command that is not well formed cannot come from outside; exec is total on it. -/

namespace Sys2Proof

/-- A PCIe write or read carries 1 to 4,096 bytes (11 §11.1). -/
def payloadOk (n : Nat) : Bool := 1 ≤ n && n ≤ 4096

/-- A register access names 1, 2, 4 or 8 bytes (R10 discards the sizes that are not legal). -/
def sizeOk (n : Nat) : Bool := n == 1 || n == 2 || n == 4 || n == 8

/-- A link width of a host port (11 §11.1). -/
def widthOk (w : BitVec 5) : Bool := w == 1 || w == 2 || w == 4 || w == 8 || w == 16

/-- The operands of a command lie in their ranges. -/
def Instr.wellFormed : Instr → Bool
  | .registerWrite _ _ size _ => sizeOk size
  | .bar0MemoryWrite _ _ _ bytes => payloadOk bytes.length
  | .bar0MemoryRead _ _ _ len => payloadOk len
  | .boltHeaderArrive _ _ (some h) => h.length == 64
  | .landPayloadArrive _ _ (some p) => payloadOk p.length
  | .flitReceive _ f => f.length == 256
  | .pcieLinkUp _ _ _ w => widthOk w
  | .avsTelemetry w => w ≤ 65535
  | .weftRefReturn err => err.natAbs ≤ 1000000000
  | _ => true

end Sys2Proof
end

