-- ==== Sys2Proof/Certificates/Slice0/Obligations.lean ====
section
/-! DEFINITION. The statements about the model, over the meanings and operations of Sys2Proof.Machine. `Sys2Proof.Claims` holds
what several of them name. No command of the block faults or is refused; where one has no effect on a state, its statement says
so by the state itself. -/

open Sys2Proof Sys2Proof.Machine

/-- A step is exec of the command at the front of the queue (the model's own queue, log entry 1). -/
def Obligations.StepTakesFront : Prop :=
  ∀ (c : Instr) (s : State), step { s with pending := c :: s.pending } = exec c s

/-- A step on an empty queue is one clk (log entry 9). -/
def Obligations.IdleStepIsAClk : Prop :=
  ∀ (s : State), s.pending = [] → step s = .next s.tick ∧
    (s.clocksRun = false → s.tick = s) ∧
    (s.clocksRun = true →
      s.tick.heddle.now = s.heddle.now + 1 ∧ s.tick.heddle.clk = s.heddle.clk + 1 ∧
      s.tick.heddle.winClk = s.heddle.winClk + (if s.heddle.phase = .window then 1 else 0) ∧
      s.tick.heddle.phase = s.heddle.phase)

/-- The canonical forms are an invariant of every step. -/
def Obligations.EveryStepKeepsCanonicalForms : Prop :=
  ∀ (s t : State), regsWf s → memWf s → step s = .next t → regsWf t ∧ memWf t

/-- What no step touches: the fuses and with them the grade (R1, R3), what has left the package (log entry 2), the rest of the queue (log entry 1). -/
def Obligations.EveryStepKeepsFusesQueueAndRecord : Prop :=
  ∀ (s t : State), step s = .next t → t.temple.fuses = s.temple.fuses ∧ (gradeWf s → gradeWf t) ∧
    s.out <+: t.out ∧ t.pending = s.pending.tail

/-- State.reset; the pins' levels before a power-on are the model's choice (log entry 5). -/
def Obligations.ResetMeetsTheInvariant : Prop :=
  regsWf State.reset ∧ memWf State.reset ∧ gradeWf State.reset ∧ State.reset.temple.fuses.oz240 = false ∧ (∀ a, State.reset.getReg a = regReset a) ∧
  (∀ a, State.reset.rawByte a = memReset a) ∧ State.reset.pwrState = 0 ∧ State.reset.active = false ∧
  State.reset.anyRuns = false ∧ State.reset.pending = [] ∧ State.reset.power.seq = .none

namespace Sys2Proof.Claims

/-- The registers whose writes have a rule of their own, beside the access codes of Table 0.8. -/
def ownRule : Block → Nat → Bool
  | .hdl, o => (0x200 ≤ o && o < 0x220) || (0x800 ≤ o && o < 0x1000) ||
      [0x08, 0x20, 0x28, 0x2C, 0x44, 0x60, 0x108, 0x110, 0x118, 0x11C, 0x120, 0x124, 0x228, 0x230, 0x101C, 0x1024,
        0x1100, 0x1128, 0x1130, 0x1134, 0x113C].contains o
  | .tpl, o => [0x20, 0x200, 0x400].contains o
  | .trd _, o => (0x1000 ≤ o && o < 0x2000 && [0x10, 0x14, 0x1C, 0x28].contains (o % 0x40)) ||
      (0x4000 ≤ o && o < 0x4400 && [0x00, 0x04, 0x20].contains (o % 0x40)) || 0x100000 ≤ o
  | .slv _, o => (o < 0x600 && [0x00, 0x10].contains (o % 0x100)) || (0x10000 ≤ o && o < 0x12000)
  | .ldie _, o => 0x4000 ≤ o && o < 0x4400 && o % 0x40 == 4
  | .core _, o => (0x300 ≤ o && o < 0x310) || o == 0x330 || o == 0x108

/-- Bit i of a register after a write: cleared where the value is 1 in a W1C field, the value's in an RW field, the value's
in an RWL field of an idle block, else what it was (Table 0.8, R12, R16). -/
def writtenBit (r : RegSpec) (idle : Bool) (old val : Dword) (i : Nat) : Bool :=
  if r.w1c.getLsbD i && val.getLsbD i then false
  else if idle && r.rwl.getLsbD i then val.getLsbD i
  else if r.rw.getLsbD i then val.getLsbD i else old.getLsbD i

/-- A register that has no rule of its own and is the first of no snapshot group, at an address that a requester may
write. -/
abbrev plainAt (s : State) (a : Nat) (b : Block) (o : Nat) (r : RegSpec) : Prop :=
  s.target a = some (b, o) ∧ b.spec o = some r ∧ ownRule b o = false ∧ snapAt b o = none ∧ bytesAt b o = false

/-- A beat joins the service beats of a core (R26). -/
abbrev joins (s : State) (g : CoreId) (x : SvcBeat) : State := s.modCore g fun c => { c with svc := c.svc ++ [x] }

end Sys2Proof.Claims

open Sys2Proof.Claims

/-- A write of a register by the access codes of its fields (R10, R12, R16), at once or by the service slot (R518). -/
def Obligations.RegisterWriteByAccessCode : Prop :=
  ∀ (s : State) (req : Requester) (a : Word) (val : Dword) (b : Block) (o : Nat) (r : RegSpec),
    plainAt s a.toNat b o r →
    (a.toNat % 4 = 0 → r.wide = false → ∃ v : Dword,
      (∀ i < 64, v.getLsbD i = writtenBit r (s.idleAt b o) (s.getReg a.toNat) (BitVec.ofNat 64 (val.toNat % 2 ^ 32)) i) ∧
      (s.windowOf a.toNat = none → exec (.registerWrite req a 4 val) s = .next (s.setReg a.toNat v)) ∧
      ∀ g : CoreId, (s.windowOf a.toNat = some g → exec (.registerWrite req a 4 val) s = .next (joins s g (.reg req a.toNat 4 val))) ∧
        s.serve g (.reg req a.toNat 4 val) = s.setReg a.toNat v) ∧
    (a.toNat % 8 = 0 → r.wide = true → ∃ v : Dword,
      (∀ i < 64, v.getLsbD i = writtenBit r (s.idleAt b o) (s.getReg a.toNat) val i) ∧
      (s.windowOf a.toNat = none → exec (.registerWrite req a 8 val) s = .next ((s.setReg a.toNat v).clearLow req a.toNat)) ∧
      ∀ g : CoreId, (s.windowOf a.toNat = some g → exec (.registerWrite req a 8 val) s = .next (joins s g (.reg req a.toNat 8 val))) ∧
        s.serve g (.reg req a.toNat 8 val) = (s.setReg a.toNat v).clearLow req a.toNat)

/-- Illegal register accesses (R10). -/
def Obligations.IllegalRegisterAccess : Prop :=
  ∀ (s : State) (a : Word) (n : Nat),
    ¬ (n = 4 ∧ a.toNat % 4 = 0) → ¬ (n = 8 ∧ a.toNat % 8 = 0) →
    (∀ (req : Requester) (val : Dword), exec (.registerWrite req a n val) s = .next s) ∧
    (∀ (td : Td) (fn : Fn) (off : Word), s.answers (.trd td) = true → s.barAddr td fn off.toNat = some a.toNat → n ≠ 0 →
      memAt a.toNat = none → s.readErrors a.toNat n = [] →
      (s.servedBy a.toNat n = none →
        exec (.bar0MemoryRead td fn off n) s = .next (s.emit (.completion td fn off (List.replicate n 0) false))) ∧
      ∀ g : CoreId, (s.servedBy a.toNat n = some g →
          exec (.bar0MemoryRead td fn off n) s = .next (joins s g (.bar0 td fn off n [] false))) ∧
        s.serve g (.bar0 td fn off n [] false) = s.emit (.completion td fn off (List.replicate n 0) false))

/-- A word of the device address space at which nothing lies: no core memory, no register, no half of one, no byte memory. -/
abbrev Sys2Proof.Claims.reservedAt (a : Nat) : Prop :=
  memAt a = none ∧ ∀ (b : Block) (o : Nat), blockOf a = some (b, o) →
    bytesAt b o = false ∧ b.spec o = none ∧ (o % 8 = 4 → ∀ r : RegSpec, b.spec (o - 4) = some r → r.wide = false)

/-- Reserved address ranges (R13). -/
def Obligations.ReservedAddresses : Prop :=
  ∀ (s : State) (a : Word) (n : Nat),
    (n = 4 ∧ a.toNat % 4 = 0 ∧ reservedAt a.toNat) ∨
      (n = 8 ∧ a.toNat % 8 = 0 ∧ reservedAt a.toNat ∧ reservedAt (a.toNat + 4)) →
    (∀ (req : Requester) (val : Dword),
      (s.windowOf a.toNat = none → exec (.registerWrite req a n val) s = .next s) ∧
      ∀ g : CoreId, (s.windowOf a.toNat = some g → exec (.registerWrite req a n val) s = .next (joins s g (.reg req a.toNat n val))) ∧
        s.serve g (.reg req a.toNat n val) = s) ∧
    (∀ (td : Td) (fn : Fn) (off : Word), s.answers (.trd td) = true → s.barAddr td fn off.toNat = some a.toNat →
      s.readErrors a.toNat n = [] →
      (s.servedBy a.toNat n = none →
        exec (.bar0MemoryRead td fn off n) s = .next (s.emit (.completion td fn off (List.replicate n 0) false))) ∧
      ∀ g : CoreId, (s.servedBy a.toNat n = some g →
          exec (.bar0MemoryRead td fn off n) s = .next (joins s g (.bar0 td fn off n [] false))) ∧
        s.serve g (.bar0 td fn off n [] false) = s.emit (.completion td fn off (List.replicate n 0) false))

/-- The two halves of a 64-bit register (R11). -/
def Obligations.HalfWritesOfDwordRegister : Prop :=
  ∀ (s : State) (req : Requester) (a hi lo : Word) (b : Block) (o : Nat) (r : RegSpec),
    plainAt s a.toNat b o r → r.wide = true →
    exec (.lowHalfWrite req a lo) s = .next { s with low :=
      (s.low.filter fun (x : LowHalf) => !(x.req == req && x.addr == a.toNat)) ++ [{ req := req, addr := a.toNat, val := lo }] } ∧
    (s.target (a + 4).toNat = some (b, o + 4) → (o + 4) % 8 = 4 → bytesAt b (o + 4) = false →
      (∀ x ∈ s.low.find? (fun (x : LowHalf) => x.req == req && x.addr == a.toNat), ∃ v : Dword,
        (∀ i < 64, v.getLsbD i = writtenBit r (s.idleAt b o) (s.getReg a.toNat) (hi ++ x.val) i) ∧
        exec (.highHalfWrite req (a + 4) hi) s = .next ((s.setReg a.toNat v).clearLow req a.toNat)) ∧
      (s.low.find? (fun (x : LowHalf) => x.req == req && x.addr == a.toNat) = none → r.w1c = 0 → ∃ v : Dword,
        (∀ i < 32, v.getLsbD i = (s.getReg a.toNat).getLsbD i) ∧
        (∀ i < 64, 32 ≤ i → v.getLsbD i = writtenBit r (s.idleAt b o) (s.getReg a.toNat) (hi ++ (0 : Word)) i) ∧
        exec (.highHalfWrite req (a + 4) hi) s = .next ((s.setReg a.toNat v).clearLow req a.toNat)))

/-- Snapshot groups (R506, R523). -/
def Obligations.SnapshotLatchAndRelease : Prop :=
  ∀ (s : State) (req : Requester),
    (∀ grp : SnapGroup, s.answers (snapBlock grp) = true →
      exec (.snapshotLatch req grp) s = .next { s with latches :=
        (s.latches.filter fun (l : Latch) => !(l.req == req && l.first == snapFirst grp)) ++
          [{ req := req, first := snapFirst grp,
             vals := (snapRegs grp).map fun r => (r.1.base + r.2, s.liveReg r.1 r.2) }] } ∧
      exec (.snapshotRelease req grp) s = .next { s with latches :=
        (s.latches.filter fun (l : Latch) => !(l.req == req && l.first == snapFirst grp)) }) ∧
    (∀ g : CoreId, s.coreAnswers g = true →
      exec (.coreSnapshotLatch req g) s = .next { s with latches :=
        (s.latches.filter fun (l : Latch) => !(l.req == req && l.first == coreReg g 0x108)) ++
          [{ req := req, first := coreReg g 0x108,
             vals := (coreSnapRegs.map fun o => (coreReg g o, s.liveReg (.core g) o)) ++
               [(coreReg g 0x12C, BitVec.ofNat 64 s.pickNum.toNat)] }] } ∧
      exec (.coreSnapshotRelease req g) s = .next { s with latches :=
        (s.latches.filter fun (l : Latch) => !(l.req == req && l.first == coreReg g 0x108)) })

/-- A held latch fixes its requester's reads and no one else's (R506). -/
def Obligations.LatchedGroupReadsTogether : Prop :=
  ∀ (s : State) (req : Requester) (grp : SnapGroup), s.answers (snapBlock grp) = true →
    (∀ l ∈ s.latches, l.req = req → l.first = snapFirst grp) →
    ∃ t, exec (.snapshotLatch req grp) s = .next t ∧
      (∀ u : State, u.latches = t.latches → ∀ r ∈ snapRegs grp, u.readReg req r.1 r.2 = s.liveReg r.1 r.2) ∧
      (∀ (req' : Requester) (b : Block) (o : Nat), req' ≠ req → t.readReg req' b o = s.readReg req' b o)

/-- Host writes to a running core (R29). -/
def Obligations.HostWriteToRunningCoreDiscarded : Prop :=
  ∀ (s : State) (td : Td) (fn : Fn) (off : Word) (l : List Byte) (a : Nat) (g : CoreId),
    s.answers (.trd td) = true → s.barAddr td fn off.toNat = some a → l ≠ [] →
    (∀ i < l.length, ∃ k, memAt (a + i) = some (g, k)) → s.coreAnswers g = true → s.runs g = true →
    exec (.bar0MemoryWrite td fn off l) s = .next (s.count (trd td 0x10) 1)

/-- Host writes that take effect (R33, R10). -/
def Obligations.HostWriteToIdleCore : Prop :=
  ∀ (s : State) (td : Td) (fn : Fn) (off : Word) (l : List Byte) (a : Nat),
    s.answers (.trd td) = true → s.barAddr td fn off.toNat = some a → l ≠ [] →
    (memAt a = none →
      exec (.bar0MemoryWrite td fn off l) s = exec (.registerWrite (reqOf td fn) (BitVec.ofNat 32 a) l.length
        (BitVec.ofNat 64 (leNat l))) s) ∧
    (∀ (g : CoreId) (k : Nat), (a + (l.length - 1)) / 64 = a / 64 → memAt a = some (g, k) → s.coreAnswers g = true →
      s.runs g = false →
      (k ≠ 0 → exec (.bar0MemoryWrite td fn off l) s =
        .next ((l.zipIdx).foldl (fun t e => t.hostBytes (a + e.2) [e.1]) s)) ∧
      (k = 0 → inReserve (64 * (a / 64)) = false → exec (.bar0MemoryWrite td fn off l) s =
        .next ((s.modCore g fun c => { c with sbuf := c.sbuf ++ [{
          line := a % 0x800000 / 64
          mask := maskOf (l.zipIdx.map fun e => (a % 64 + e.2, e.1))
          data := dataOf (l.zipIdx.map fun e => (a % 64 + e.2, e.1)) }] }).drainLine g (a % 0x800000 / 64))) ∧
      (k = 0 → inReserve (64 * (a / 64)) = true → exec (.bar0MemoryWrite td fn off l) s = .next (s.count (trd td 0x10) 1)))

/-- Host reads (R30, R31, R33). -/
def Obligations.HostReadOfMemory : Prop :=
  ∀ (s : State) (td : Td) (fn : Fn) (off : Word) (n a : Nat),
    s.answers (.trd td) = true → s.barAddr td fn off.toNat = some a → n ≠ 0 →
    (let bads := (s.readErrors a n).filter fun e => s.coreAnswers e.1
     s.servedBy a n = none →
      (memAt a = none → exec (.bar0MemoryRead td fn off n) s =
        .next ((s.countRead td bads).emit (.completion td fn off (s.readRegs (reqOf td fn) a n) (bads != [])))) ∧
      ((∀ i < n, ∃ g k, memAt (a + i) = some (g, k) ∧ s.coreAnswers g = true) →
        exec (.bar0MemoryRead td fn off n) s =
          .next ((s.countRead td bads).emit (.completion td fn off (s.bytes a n) (bads != []))))) ∧
    (∀ g, s.servedBy a n = some g →
      exec (.bar0MemoryRead td fn off n) s = .next (joins s g (.bar0 td fn off n [] false))) ∧
    (∀ (g : CoreId) (got data : List Byte) (bad : Bool), got.length + data.length < n →
      s.lineRead g td fn off n got bad data [] =
        s.modCore g fun c => { c with svc := .bar0 td fn off n (got ++ data) bad :: c.svc }) ∧
    (∀ (g : CoreId) (got data : List Byte) (bad : Bool), n ≤ got.length + data.length →
      s.lineRead g td fn off n got bad data [] = s.emit (.completion td fn off (got ++ data) bad)) ∧
    (∀ (g : CoreId) (x : SvcBeat) (t : List SvcBeat), (s.core g).drainLeft = none → (s.core g).svcPort = none →
      (s.core g).heldReads = x :: t →
      exec (.bar0ReadRelease g) s = .next (s.modCore g fun c => { c with heldReads := t, svcPort := some x }))

/-- The service slot (R26–R28), and the Overseer's reads of the reserve (R469). -/
def Obligations.ServiceSlotServesByPriority : Prop :=
  ∀ (s : State) (g : CoreId), s.works g = true →
    (s.slotFree g .service = true → (s.core g).svc ≠ [] →
      ∃ x ∈ (s.core g).svc.take 8, (∀ y ∈ (s.core g).svc.take 8, x.rank ≤ y.rank) ∧
        exec (.serviceSlotAccess g) s = .next (if s.svcBlocked g x then s else
          ((s.useSlot g .service).modCore g fun c => { c with svc := c.svc.erase x }).serve g x)) ∧
    (s.slotFree g .service = false ∨ (s.core g).svc = [] → exec (.serviceSlotAccess g) s = .next s) ∧
    (∀ off rewrite, s.serve g (.overseer off rewrite) = s.modCore g fun c => { c with svcPort := some (.overseer off rewrite) }) ∧
    (∀ td sp seq, s.serve g (.out td sp seq) = s.modCore g fun c => { c with svcPort := some (.out td sp seq) }) ∧
    (∀ req a size val, s.serve g (.reg req a size val) = s.writeNow req a size val) ∧
    (∀ td fn off n got bad a m h k, s.nextRead td fn off n got = some (a, m) → memAt a = some (h, k) →
      s.serve g (.bar0 td fn off n got bad) =
        if k = 0 then s.modCore g fun c => { c with svcPort := some (.bar0 td fn off n got bad) }
        else s.lineRead g td fn off n got bad (s.bytes a m) (s.readErrors a m)) ∧
    (∀ (o i n size : Nat) (rewrite b : Bool) (td : Td) (sp : SpoolId) (q q' v : Dword) (l : List Byte) (fn : Fn) (a : Word)
        (req : Requester) (d : Die) (m : TallyNo),
      let copy := (SvcBeat.out td sp q).rank
      let host := (SvcBeat.bar0 td fn a n l b).rank
      (SvcBeat.overseer o rewrite).rank < copy ∧ (SvcBeat.land td sp q i l).rank = copy ∧
      (q.toNat < q'.toNat → copy < (SvcBeat.out td sp q').rank) ∧ copy < host ∧ (SvcBeat.reg req n size v).rank = host ∧
      host < (SvcBeat.tally d m).rank) ∧
    (∀ off : BitVec 16, 3 ≤ s.pwrState →
      let o := 0x7F0000 + 4 * (off.toNat / 4)
      exec (.overseerReserveRead g off) s = .next (joins s g (.overseer o false)) ∧
      (s.badWord (beamBase g + o) = false → s.overseerLine g o false = s) ∧
      (s.badWord (beamBase g + o) = true → s.overseerLine g o false =
        (((s.ccount g 0x320 1).logCore g 0x3003 (BitVec.ofNat 64 o)).modCore g fun c =>
          { c with svc := .overseer (areaStart o) true :: c.svc })))

/-- The doorbells' acceptance (R347), CFG (R351) and HEAD (R369). -/
def Obligations.DoorbellsAndSettingsOfSpools : Prop :=
  ∀ (s : State) (td : Td) (sp : SpoolId) (v : Word), s.answers (.trd td) = true →
    (let tail := s.sreg td sp 0x18
     let rel := s.sreg td sp 0x20
     let room := 2 ^ (s.ringSize td sp).1 - sub32 tail rel
     (s.spoolState td sp = 1 → s.isReport td sp = false → 0 < sub32 v.toNat tail → sub32 v.toNat tail ≤ room →
       exec (.spoolTailDoorbell td (s.fnOf td sp) sp v) s = .next ((s.setSreg td sp 0x18 v.toNat).modSpool td sp fun x =>
         { x with rung := some (s.now, BitVec.ofNat 32 (s.tailSeen td sp)) }) ∧
       (s.clocksRun = true → ∀ t, exec (.spoolTailDoorbell td (s.fnOf td sp) sp v) s = .next t →
         t.tailSeen td sp = s.tailSeen td sp % 2 ^ 32)) ∧
     (s.spoolState td sp ≠ 1 ∨ s.isReport td sp = true ∨ sub32 v.toNat tail = 0 ∨ room < sub32 v.toNat tail →
       exec (.spoolTailDoorbell td (s.fnOf td sp) sp v) s = .next (s.count (spoolReg td sp 0x38) 1))) ∧
    (let thead := (s.spool td sp).thead.toNat
     let done := s.sreg td sp 0x34
     let s1 := s.setSpool td sp { s.spool td sp with thead := v }
     (sub32 v.toNat thead ≤ sub32 done thead → exec (.spoolTheadDoorbell td (s.fnOf td sp) sp v) s = .next
       (if sub32 done v.toNat < 2 ^ (s.ringSize td sp).2 then
         s1.modReg (spoolReg td sp 0x24) fun x => putBit x 8 false else s1)) ∧
     (sub32 done thead < sub32 v.toNat thead →
       exec (.spoolTheadDoorbell td (s.fnOf td sp) sp v) s = .next (s.count (spoolReg td sp 0x38) 1))) ∧
    (s.spoolState td sp = 0 →
      (6 ≤ fld v 4 0 → fld v 4 0 ≤ 24 → 6 ≤ fld v 12 8 → fld v 12 8 ≤ 16 → (bit v 29 = true → td = 0) →
        exec (.spoolCfgWrite td sp v) s = .next (s.setSreg td sp 0x10 (v.toNat &&& 0x37FF1F1F))) ∧
      exec (.spoolHeadWrite td sp v) s = .next
        ((((s.setSreg td sp 0x1C v.toNat).setSreg td sp 0x18 v.toNat).setSreg td sp 0x20 v.toNat).modSpool td sp fun x =>
          { x with rung := none }))

/-- The states of a spool (R350). -/
def Obligations.SpoolStateChanges : Prop :=
  ∀ (s : State) (td : Td) (sp : SpoolId), s.answers (.trd td) = true →
    (let on := s.setReg (spoolReg td sp 0x14) 1
     let off := s.setReg (spoolReg td sp 0x14) 0
     let st := spoolReg td sp 0x24
     (s.spoolState td sp = 0 → exec (.spoolEnable td sp) s = .next
       ((on.modReg st fun v => putFld v 1 0 1).modSpool td sp fun x => { x with thead := BitVec.ofNat 32 (s.sreg td sp 0x34) })) ∧
     (s.spoolState td sp = 2 → exec (.spoolEnable td sp) s = .next (on.modReg st fun v => putBit v 2 true)) ∧
     (s.spoolState td sp = 1 ∨ s.spoolState td sp = 3 → exec (.spoolDisable td sp) s = .next
       (((s.spool td sp).bolts.filter fun b => b.phase == .waiting).foldl (fun t b => t.finishBolt td sp b 11)
         ((off.modReg st fun v => putFld v 1 0 2).modSpool td sp fun x =>
           { x with reads := x.reads.map fun _ => false, short := none }))) ∧
     (s.spoolState td sp = 2 → exec (.spoolDisable td sp) s = .next (off.modReg st fun v => putBit v 2 false)) ∧
     (s.spoolState td sp = 2 → (s.spool td sp).bolts = [] →
       exec (.spoolStopped td sp) s = .next (s.modReg st fun v =>
         if bit v 2 then putBit (putFld v 1 0 1) 2 false else putFld v 1 0 0)))

/-- A bolt with its SEQ enters the history and the high-water mark (R353). -/
abbrev Sys2Proof.Claims.entersHistory (s : State) (td : Td) (sp : SpoolId) (seq : Dword) : State :=
  (s.setSreg td sp 0x28 seq.toNat).modSpool td sp fun x =>
    { x with last := seq, history := ((seq, (0 : Byte)) :: x.history).take Config.historyCap }

/-- The bolt that the header at HEAD makes (R348, R349). -/
abbrev Sys2Proof.Claims.newBolt (s : State) (td : Td) (sp : SpoolId) (h : BoltHdr) : Bolt :=
  { hdr := h, num := BitVec.ofNat 32 (s.sreg td sp 0x30), slot0 := BitVec.ofNat 32 (s.sreg td sp 0x1C), phase := .waiting }

/-- It is queued, and HEAD and FETCHED rise (R348). -/
abbrev Sys2Proof.Claims.queued (s : State) (td : Td) (sp : SpoolId) (h : BoltHdr) : State :=
  ((s.setSreg td sp 0x1C ((s.sreg td sp 0x1C + h.slots.toNat) % 2 ^ 32)).countWrap (spoolReg td sp 0x30) 1).modSpool td sp
    fun x => { x with bolts := x.bolts ++ [newBolt s td sp h] }

/-- A header is read and arrives (R348, R352–R356, R359). -/
abbrev Sys2Proof.Claims.HeadersAreRead (s : State) (td : Td) (sp : SpoolId) : Prop :=
  let x := s.spool td sp
  let tail := s.sreg td sp 0x18
  let head := s.sreg td sp 0x1C
  let s1 := s.setSpool td sp { x with reads := x.reads.drop 1 }
  let fn := s.fnOf td sp
  (s.answers (.trd td) = true → s.spoolState td sp = 1 → s.isReport td sp = false → s.master td fn = true →
    head ≠ s.tailSeen td sp → true ∉ x.reads → (∀ n : Word, x.short = some n → n.toNat ≤ sub32 (s.tailSeen td sp) head) →
    s.held td sp < Config.heldTickets → s.openReads td fn < Config.openReadCap →
    exec (.boltFetch td sp) s = .next ((s.setSpool td sp { x with reads := x.reads ++ [true], short := none }).emit
      (.hostRead td (BitVec.ofNat 64 (s.sreg td sp 0x00 + head % 2 ^ (s.ringSize td sp).1 * 64)) 64))) ∧
  (∀ rest : List Bool, x.reads = false :: rest ∨ (x.reads = true :: rest ∧ s.spoolState td sp ≠ 1) → ∀ l : List Byte,
    exec (.boltHeaderArrive td sp (some l)) s = .next s1) ∧
  (∀ rest : List Bool, x.reads = true :: rest → s.spoolState td sp = 1 →
    exec (.boltHeaderArrive td sp none) s = .next ((s1.haltSpool td sp 2).aerReport td fn true) ∧
    ((s.fn td fn).ctoOff = false →
      exec (.completionTimeout td sp false) s = .next ((s1.haltSpool td sp 2).aerReport td fn false)) ∧
    ∀ l : List Byte, let h := parseBolt l
      ((h.slots = 0 ∨ 2 ^ (s.ringSize td sp).1 < h.slots.toNat) →
        exec (.boltHeaderArrive td sp (some l)) s = .next (s1.haltSpool td sp 1)) ∧
      (h.slots ≠ 0 → h.slots.toNat ≤ 2 ^ (s.ringSize td sp).1 →
        (sub32 tail head < h.slots.toNat →
          exec (.boltHeaderArrive td sp (some l)) s = .next (s1.modSpool td sp fun y => { y with short := some h.slots })) ∧
        (h.slots.toNat ≤ sub32 tail head →
          let b := newBolt s1 td sp h
          let s2 := queued s1 td sp h
          let s3 := entersHistory s2 td sp h.seq
          (h.seq.toNat ≤ s1.sreg td sp 0x28 →
            exec (.boltHeaderArrive td sp (some l)) s = .next (s2.finishBolt td sp b 2)) ∧
          (s1.sreg td sp 0x28 < h.seq.toNat → ∀ st : Nat, s1.boltCheck h = some st →
            exec (.boltHeaderArrive td sp (some l)) s = .next (s3.finishBolt td sp b st)) ∧
          (s1.sreg td sp 0x28 < h.seq.toNat → s1.boltCheck h = none → h.op = 4 →
            exec (.boltHeaderArrive td sp (some l)) s =
              .next (s3.modBolt td sp b.num fun y => { y with phase := .started })) ∧
          (s1.sreg td sp 0x28 < h.seq.toNat → s1.boltCheck h = none → h.op ≠ 4 →
            ((∃ c : Nat, s.curPick = some c ∧ h.lands = true ∧ earlier48 c h.pickId = false) →
              exec (.boltHeaderArrive td sp (some l)) s = .next (s3.finishBolt td sp b 8)) ∧
            ((∀ c : Nat, s.curPick = some c → h.lands = false ∨ earlier48 c h.pickId = true) →
              exec (.boltHeaderArrive td sp (some l)) s = .next s3)))))

/-- A waiting bolt starts (R355–R358, R488). -/
abbrev Sys2Proof.Claims.BoltsStart (s : State) (td : Td) (sp : SpoolId) : Prop :=
  ∀ (b : Bolt) (c : Nat), (s.spool td sp).bolts.find? (fun b => b.phase == .waiting) = some b → s.curPick = some c →
    let act := if b.hdr.lands then b.hdr.pickId else (b.hdr.pickId + 1) % 2 ^ 48
    let used := ((s.td td).started.lookup b.hdr.core.toNat).getD 0
    let quota := fld (s.getReg (trd td (0x2000 + 4 * b.hdr.core.toNat))) 12 0
    (earlier48 c act = true → exec (.boltStart td sp) s = .next s) ∧
    (earlier48 c act = false → act ≠ c → exec (.boltStart td sp) s = .next (s.finishBolt td sp b 8)) ∧
    (earlier48 c act = false → act = c → s.works b.hdr.core = false →
      exec (.boltStart td sp) s = .next (s.finishBolt td sp b 10)) ∧
    (earlier48 c act = false → act = c → s.works b.hdr.core = true → b.hdr.lands = true →
      let s1 := (s.setTd td { s.td td with
        started := (b.hdr.core.toNat, used + b.hdr.lines) :: (s.td td).started.filter fun e => e.1 != b.hdr.core.toNat }).modBolt
          td sp b.num fun y => { y with phase := .started, lines := b.hdr.lines }
      (quota < used + b.hdr.lines → exec (.boltStart td sp) s = .next (s.finishBolt td sp b 5)) ∧
      (used + b.hdr.lines ≤ quota → b.hdr.op ≠ 2 → exec (.boltStart td sp) s = .next (s1.askMore td (s.fnOf td sp))) ∧
      (used + b.hdr.lines ≤ quota → b.hdr.op = 2 → exec (.boltStart td sp) s = .next
        ((s1.modBolt td sp b.num fun y => { y with got := b.hdr.len.toNat, bytes := b.hdr.payload }).queueLand td sp b 0
          b.hdr.payload))) ∧
    (earlier48 c act = false → act = c → s.works b.hdr.core = true → b.hdr.lands = false →
      (s.heddle.srcFate = 2 → exec (.boltStart td sp) s = .next (s.finishBolt td sp b 4)) ∧
      (s.heddle.srcFate = 3 → exec (.boltStart td sp) s = .next (s.finishBolt td sp b 13)) ∧
      (s.heddle.srcFate = 1 → s.heddle.phase = .window → exec (.boltStart td sp) s = .next (s.finishBolt td sp b 6)) ∧
      (s.heddle.srcFate = 1 → s.heddle.phase ≠ .window →
        exec (.boltStart td sp) s = .next (s.modBolt td sp b.num fun y => { y with phase := .started })))

/-- Headers are read and queued, bolts start (R348, R352–R359). -/
def Obligations.BoltFetchAndStart : Prop :=
  ∀ (s : State) (td : Td) (sp : SpoolId), HeadersAreRead s td sp ∧ BoltsStart s td sp

/-- Payloads (R357), beats of copies (R43, R358), fences (R359), completion (R276, R362). -/
def Obligations.PayloadsCopiesAndFences : Prop :=
  ∀ (s : State) (td : Td) (sp : SpoolId) (b : Bolt),
    ((s.spool td sp).bolts.find? (fun b => b.phase == .started && b.hdr.op == 1 && b.got < b.asked) = some b →
      (∀ l : List Byte,
        let l' := l.take (b.asked - b.got)
        exec (.landPayloadArrive td sp (some l)) s = .next
          (((s.modBolt td sp b.num fun y => { y with
              got := y.got + l'.length
              bytes := y.bytes ++ l'
              reads := answered y.reads l'.length }).queueLand td sp b b.got l').askMore td (s.fnOf td sp))) ∧
      (let failed := ((s.setTd td { s.td td with failed := (s.td td).failed ++ [(sp.val, b.hdr.seq)] }).modCore b.hdr.core
          fun c => { c with
            svc := c.svc.filter fun x => match x with
              | .land d q seq _ _ => !(d == td && q == sp && seq == b.hdr.seq)
              | _ => true }).finishBolt td sp b 12
       exec (.landPayloadArrive td sp none) s =
         .next ((failed.aerReport td (s.fnOf td sp) true).askMore td (s.fnOf td sp)) ∧
       ((s.fn td (s.fnOf td sp)).ctoOff = false → exec (.completionTimeout td sp true) s =
         .next ((failed.aerReport td (s.fnOf td sp) false).askMore td (s.fnOf td sp))) ∧
       ((s.fn td (s.fnOf td sp)).ctoOff = true → exec (.completionTimeout td sp true) s = .next s))) ∧
    ((s.spool td sp).bolts.find? (fun b => b.phase == .started && b.hdr.op == 3) = some b →
      .out td sp b.hdr.seq ∉ (s.core b.hdr.core).svc → (s.core b.hdr.core).svcPort ≠ some (.out td sp b.hdr.seq) →
      exec (.outCopyBeat td sp) s =
        .next (s.modCore b.hdr.core fun c => { c with svc := c.svc ++ [.out td sp b.hdr.seq] })) ∧
    (∀ t : List Bolt, (s.spool td sp).bolts = b :: t → b.hdr.op = 4 → b.phase = .started →
      exec (.fenceComplete td sp) s = .next (s.finishBolt td sp b 1)) ∧
    (∀ st : Nat,
      let x := (s.finishBolt td sp b st).spool td sp
      let y := s.spool td sp
      x.order = (if b.hdr.op = 3 ∧ (st = 1 ∨ st = 6 ∨ st = 7) then y.order else y.order ++ [b.num]) ∧
      x.bolts = y.bolts.map (fun z => if z.num = b.num then { z with phase := .finished (BitVec.ofNat 8 st), reads := [] } else z))

/-- A ticket of Table 11.7: the status, ORIG of a REPLAY, PHASE, RELEASE, the digest where the status has one. -/
abbrev Sys2Proof.Claims.ticketBytes (b : Bolt) (sp : SpoolId) (orig phase release : Nat) : List Byte :=
  let st := b.status
  let moved := if b.hdr.lands then b.staged else if b.hdr.op = 3 then b.got else 0
  let digest := (b.hdr.lands ∧ st = 1) ∨ (b.hdr.op = 3 ∧ (st = 1 ∨ st = 6 ∨ st = 7))
  leBytes 8 b.hdr.seq.toNat ++ leBytes 1 st ++ leBytes 1 (if st = 2 then orig else 0) ++ leBytes 1 phase ++
    leBytes 1 sp.val ++ leBytes 4 moved ++ leBytes 4 b.hdr.pick.toNat ++ leBytes 2 b.hdr.epoch.toNat ++ leBytes 2 0 ++
    leBytes 4 release ++ leBytes 4 0 ++ (if digest then digestBytes (b.digest.getD 0) else leBytes 32 0)

/-- A ticket leaves for its slot of the ring, with its message (R361, R363), or is lost with its link (R371); `done` is DONE. -/
abbrev Sys2Proof.Claims.ticketLeaves (s : State) (td : Td) (sp : SpoolId) (done : Nat) (seq : Dword) (irq : Bool) (t : List Byte) : State :=
  let f := s.fnOf td sp
  let cfg := s.getReg (spoolReg td sp 0x10)
  let s1 := s.countWrap (spoolReg td sp 0x34) 1
  let sent := s1.emit (.ticket td (BitVec.ofNat 64 (s.sreg td sp 0x08 + done % 2 ^ (s.ringSize td sp).2 * 64)) t)
  if s.master td f ∧ 6 ≤ (s.ringSize td sp).2 then
    (if bit cfg 28 && irq then sent.sendMsix td f (fld cfg 26 16) else sent)
  else (s1.count (trd td 0x18) 1).logTd td 0x5003 sp.val seq

/-- Tickets (R90, R353, R361, R363, R371) and RELEASE (R349). -/
def Obligations.TicketsInCompletionOrder : Prop :=
  ∀ (s : State) (td : Td) (sp : SpoolId), s.answers (.trd td) = true →
    let x := s.spool td sp
    let done := s.sreg td sp 0x34
    let tsize := (s.ringSize td sp).2
    let phase := (done / 2 ^ tsize + 1) % 2
    let master := s.master td (s.fnOf td sp)
    let full := master = true ∧ 6 ≤ tsize ∧ sub32 done x.thead.toNat = 2 ^ tsize
    let tfull := s.modReg (spoolReg td sp 0x24) fun v => putBit v 8 true
    (∀ (r : Report) (rs : List Report), x.reports = r :: rs →
      (full → exec (.ticketWrite td sp) s = .next tfull) ∧
      (¬ full → exec (.ticketWrite td sp) s = .next (ticketLeaves (s.setSpool td sp { x with reports := rs }) td sp done 0 true
        (r.bytes.take 10 ++ leBytes 1 phase ++ r.bytes.drop 11)))) ∧
    (∀ (o : Word) (os : List Word) (b : Bolt), x.reports = [] → x.order = o :: os →
      x.bolts.find? (fun b => b.num == o) = some b →
      let tagDue := b.hdr.lands = true ∧ b.status = 1 ∧ b.digest = none ∧ master = true
      (tagDue → exec (.ticketWrite td sp) s = .next s) ∧
      (¬ tagDue → full → exec (.ticketWrite td sp) s = .next tfull) ∧
      (¬ tagDue → ¬ full →
        let left := x.bolts.filter fun z => z.num != o
        let rel := match left with | z :: _ => z.slot0.toNat | [] => s.sreg td sp 0x1C
        let s1 := (s.setSpool td sp { x with
          history := if b.status = 2 then x.history else histSet b.hdr.seq (BitVec.ofNat 8 b.status) x.history
          order := os
          bolts := left
          completed := x.completed + 1 }).setSreg td sp 0x20 rel
        let s2 := ticketLeaves s1 td sp done b.hdr.seq (bit b.hdr.flags 0)
          (ticketBytes b sp ((x.history.lookup b.hdr.seq).getD 0xFF).toNat phase rel)
        exec (.ticketWrite td sp) s = .next
          (if b.status = 1 ∧ b.hdr.lands = true then s2.tallyInclude td sp 1 b.bytes
           else if b.status = 1 ∧ b.hdr.op = 3 then s2.tallyInclude td sp 2 b.bytes else s2)))

/-- Provenance (R271, R273–R276). -/
def Obligations.ProvenanceDigests : Prop :=
  ∀ s : State,
    (s.answers .tpl = true → s.anyRuns = false → bit (s.getReg (tpl 0x204)) 0 = false →
      exec .digestStart s = .next (s.setReg (tpl 0x204) 1)) ∧
    (bit (s.getReg (tpl 0x204)) 0 = true → exec .digestDone s = .next
      (((s.setDigest (tpl 0x220) (digestWord (sha256 (leBytes 8 (s.getReg (hdl 0x130)).toNat ++
          s.workingCores.flatMap s.deckRecord)))).setDigest (tpl 0x240) (digestWord (sha256
          (s.workingCores.flatMap s.carryRecord)))).setReg (tpl 0x204) 0)) ∧
    (∀ (td : Td) (sp : SpoolId) (seq : Dword) (b : Bolt),
      (s.spool td sp).bolts.find? (fun b => b.hdr.seq == seq && b.phase == .landed && b.digest.isNone) = some b →
      ∃ t, exec (.boltDigestDone td sp seq) s = .next t ∧ t.heddle = { s.heddle with
          xPick := s.heddle.xPick ^^^ digestWord (sha256 (leBytes 2 s.pkg ++ leBytes 1 td.val ++ leBytes 2 sp.val ++
            leBytes 8 b.hdr.seq.toNat ++ leBytes 2 b.hdr.tcore.toNat ++ leBytes 4 b.hdr.offset.toNat ++
            leBytes 4 b.hdr.len.toNat ++ b.bytes)) } ∧
        t.regs = s.regs ∧ t.mem = s.mem ∧ t.cores = s.cores ∧ t.out = s.out) ∧
    (∀ (r : HistRec) (q : List HistRec), s.temple.histQueue = r :: q → r.outcome ≠ 0 →
      (let h := s.digestAt (tpl 0x2C0)
       let i := ident r.epoch.toNat r.num.toNat
       exec .historyAppend s = .next
        (({ s with temple := { s.temple with
            histQueue := q
            hs := (s.temple.hs.filter fun (e : Nat × BitVec 256) => e.1 != i) ++ [(i, h)] } }.setDigest (tpl 0x2C0)
          (digestWord (sha256 (digestBytes h ++ leBytes 4 r.num.toNat ++ leBytes 2 r.epoch.toNat ++ [r.outcome] ++
            digestBytes r.x)))).setReg (tpl 0x2E0) (BitVec.ofNat 64 i)))) ∧
    (∀ (td : Td) (sp : SpoolId) (seq : Dword) (b : Bolt),
      (s.spool td sp).bolts.find? (fun b => b.hdr.seq == seq && b.hdr.op == 3 && !b.tagDone &&
        (b.phase == .finished 1 || b.phase == .finished 6 || b.phase == .finished 7)) = some b →
      let known := s.temple.hs.lookup (ident b.hdr.epoch.toNat b.hdr.pick.toNat)
      let waits := ∃ r ∈ s.temple.histQueue, r.num = b.hdr.pick ∧ r.epoch = b.hdr.epoch
      (known = none → waits → exec (.provenanceTagDone td sp seq) s = .next s) ∧
      (¬ (known = none ∧ waits) → exec (.provenanceTagDone td sp seq) s = .next
        ((s.nextFree.modBolt td sp b.num fun y =>
            { y with tagDone := true, digest := some (s.tagOf b (known.getD (Config.freeDigest s.free))) }).modSpool td sp
          fun x => { x with order := x.order ++ [b.num] })))

/-- The functions of a Treadle die (R338–R341, R367, R371). -/
def Obligations.FunctionsOfTheHostPort : Prop :=
  ∀ (s : State) (td : Td) (fn : Fn),
    let down := s.setFn td fn { s.fn td fn with up := false }
    (∀ (rate : Fin 3) (width : BitVec 5), s.tdRuns td fn = true → s.perst td = true →
      fn = 0 ∨ (s.bifurcated td = true ∧ s.power.recovery = false) →
      width.toNat ∈ [1, 4, 8] ∨ (width.toNat = 16 ∧ (s.bifurcated td = false ∨ s.power.recovery = true)) → (s.fn td fn).up = false →
      exec (.pcieLinkUp td fn rate width) s =
        .next (s.setFn td fn { s.fn td fn with up := true, rate := Fin.ofNat 4 (rate.val + 1), width := width })) ∧
    ((s.fn td fn).up = true →
      (∀ op : ConfigOp,
        (bit (s.getReg (tpl 0x10)) 16 = false →
          exec (.configRequest td fn op) s = .next (s.emit (.configAnswer td fn none))) ∧
        (bit (s.getReg (tpl 0x10)) 16 = true →
          exec (.configRequest td fn op) s = .next
            (let t := (s.setFn td fn ((s.fn td fn).configure op)).flushMsix td fn op
             let below := 2 ^ 32 - 2 ^ (t.fn td fn).bar0Log
             let table := 0xC0100000 + 0x1000000 * td.val + 0x20000 * fn.val
             t.emit (.configAnswer td fn (some ([Config.vendorId.toNat, if s.temple.fuses.oz240 then 0x0D41 else 0x0D40, 0x120000,
                s.temple.fuses.rev.toNat, s.temple.settings.ssvid.toNat, s.temple.settings.ssid.toNat],
               [0, table - below, table + 0x8000 - below])))))) ∧
      exec (.poisonedWrite td fn) s = .next ((if (s.fn td fn).aerMask.getLsbD 12 then s
          else s.emit (.aer td fn true ((s.fn td fn).aerSev.getLsbD 12))).logTd td 0x5004 0 0) ∧
      exec (.pcieLinkDown td fn) s = .next (down.detach td fn 1) ∧
      exec (.hotReset td fn) s = .next ((down.detach td fn 2).resetFn td fn) ∧
      exec (.linkDisable td fn) s = .next ((down.detach td fn 2).resetFn td fn) ∧
      exec (.functionLevelReset td fn) s = .next ((down.detach td fn 3).resetFn td fn) ∧
      (bit (s.getReg (tpl 0x10)) 16 = true → (s.fnSpools td fn).any (fun sp => s.spoolState td sp != 0) = true →
        exec (.busMasterClear td fn) s = .next ((s.setFn td fn { s.fn td fn with bme := false }).detach td fn 4)) ∧
      (bit (s.getReg (tpl 0x10)) 16 = true → (s.fnSpools td fn).any (fun sp => s.spoolState td sp != 0) = false →
        exec (.busMasterClear td fn) s = .next (s.setFn td fn { s.fn td fn with bme := false }))) ∧
    ((s.fn td fn).up = false →
      exec (.hotReset td fn) s = .next (down.resetFn td fn) ∧ exec (.linkDisable td fn) s = .next (down.resetFn td fn) ∧
      exec (.functionLevelReset td fn) s = .next (down.resetFn td fn)) ∧
    (let low : State := { s with pins := if td = 0 then { s.pins with perst0 := false } else { s.pins with perst1 := false } }
     let reset (t : State) (f : Fn) : State :=
       let u := t.setFn td f { t.fn td f with up := false }
       (if (t.fn td f).up then u.detach td f 2 else u).resetFn td f
     exec (.pcieFundamentalReset td) s = .next (if s.bifurcated td then reset (reset low 0) 1 else reset low 0))

/-- The weft counter and its reference (R45, R46, R48, R408). -/
def Obligations.WeftCounterAdvances : Prop :=
  ∀ s : State,
    (let cfg := s.getReg (hdl 0x110)
     let owed : Int := if s.heddle.slewOwed ≠ 0 then s.heddle.slewOwed
       else if bit cfg 8 = true ∧ bit cfg 0 = false then s.heddle.timeOwed else 0
     let stepTo (n : Nat) (h : Heddle) : State := { s.setReg (hdl 0x00) (BitVec.ofNat 64 n) with heddle := h }
     let settled (d : Int) : Heddle := if s.heddle.slewOwed = 0 then { s.heddle with timeOwed := s.heddle.timeOwed - d, slewWait := 65535 }
       else { s.heddle with slewOwed := s.heddle.slewOwed - d, slewWait := 65535 }
     s.weftRuns = true → bit (s.getReg (hdl 0x20)) 0 = true →
      (owed = 0 ∨ s.heddle.slewWait ≠ 0 → exec .weftTick s =
        .next (stepTo ((s.weft + 1) % 2 ^ 64) { s.heddle with slewWait := s.heddle.slewWait - 1 })) ∧
      (0 < owed → s.heddle.slewWait = 0 → exec .weftTick s = .next (stepTo ((s.weft + 2) % 2 ^ 64) (settled 1))) ∧
      (owed < 0 → s.heddle.slewWait = 0 → exec .weftTick s = .next (stepTo s.weft (settled (-1))))) ∧
    (s.weftRuns = true → bit (s.weftNs.getReg (hdl 0x20)) 0 = false → s.weftNs.pickOver = true →
      exec .weftTick s = .next s.weftNs.endPicks) ∧
    (s.heddle.refLost = false → exec .weftRefLost s = .next
      ({ s.modReg (hdl 0x10) (fun v => putBit (putBit v 0 false) 1 true) with
        heddle := { s.heddle with refLost := true } }.logHdl 0x6801 0 0)) ∧
    (∀ err : Int, s.heddle.refLost = true → exec (.weftRefReturn err) s = .next
      ({ s.modReg (hdl 0x10) (fun v => putBit v 0 true) with
        heddle := { s.heddle with refLost := false, slewOwed := s.heddle.slewOwed + err } }.logHdl 0x6002 0 0))

/-- HDL_WEFT and HDL_WEFT_SET (R47). -/
def Obligations.WeftLoad : Prop :=
  ∀ (s : State) (req : Requester) (hi : Word),
    (s.liveReg .hdl 0x00).toNat = s.weft ∧
    (s.answers .hdl = true →
      (let v := hi.toNat * 2 ^ 32 + s.lowFor req (hdl 0x08)
       (s.active = false → s.weft ≤ v → exec (.weftSetWrite req hi) s = .next
         (((s.setReg (hdl 0x08) (BitVec.ofNat 64 v)).setReg (hdl 0x00) (BitVec.ofNat 64 v)).clearLow req (hdl 0x08))) ∧
       (s.active = false → v < s.weft → exec (.weftSetWrite req hi) s = .next
         ((s.modReg (hdl 0x10) fun x => putBit x 2 true).clearLow req (hdl 0x08))) ∧
       (s.active = true → exec (.weftSetWrite req hi) s = .next (s.clearLow req (hdl 0x08))))) ∧
    (s.lowFor req (hdl 0x08) < 2 ^ 32 → ∃ t, exec (.weftSetWrite req hi) s = .next t ∧ s.weft ≤ t.weft)

/-- The pick period (R50). -/
def Obligations.PickPeriod : Prop :=
  ∀ (s : State) (v : Word), s.answers .hdl = true →
    (s.active = false → 2 ≤ fld v 19 0 →
      exec (.pickPeriodWrite v) s = .next (s.setReg (hdl 0x28) (BitVec.ofNat 64 (fld v 19 0))) ∧
      (s.setReg (hdl 0x28) (BitVec.ofNat 64 (fld v 19 0))).period = fld v 19 0) ∧
    (s.active = true ∨ fld v 19 0 < 2 → exec (.pickPeriodWrite v) s = .next s)

/-- The reserve (R57): B is floor(P × f_core), less 0.5 % under spread spectrum, less 1,024 and the reserve (R56). -/
def Obligations.PickReserve : Prop :=
  ∀ (s : State) (v : Word), s.answers .hdl = true →
    (let r := fld v 23 0
     let least := 256 + (s.period * s.fcore + 65535) / 65536
     let total := if bit (s.getReg (hdl 0x44)) 16 then s.period * s.fcore * 995 / 1000 else s.period * s.fcore
     (s.active = false → least ≤ r → 1024 + r + 1 ≤ total →
       exec (.pickReserveWrite v) s = .next (s.setReg (hdl 0x2C) (BitVec.ofNat 64 r))) ∧
     (s.active = true ∨ r < least ∨ total < 1024 + r + 1 → exec (.pickReserveWrite v) s = .next s))

/-- HDL_FAB_HOPS, HDL_SH_TIMEOUT, HDL_KPAIRn (R308, R331, R406). -/
def Obligations.LoaderRegisterWrites : Prop :=
  ∀ s : State, s.answers .hdl = true →
    (∀ v : Word,
      (let us := fld (s.getReg (hdl 0x11C)) 15 0
       let hops := fld (s.getReg (hdl 0x118)) 3 0
       (s.active = false → 40 * fld v 3 0 + 10 ≤ us →
         exec (.fabHopsWrite v) s = .next (s.setReg (hdl 0x118) (BitVec.ofNat 64 (fld v 3 0)))) ∧
       (s.active = true ∨ us < 40 * fld v 3 0 + 10 → exec (.fabHopsWrite v) s = .next s) ∧
       (s.active = false → 40 * hops + 10 ≤ fld v 15 0 →
         exec (.shTimeoutWrite v) s = .next (s.setReg (hdl 0x11C) (BitVec.ofNat 64 (fld v 15 0)))) ∧
       (s.active = true ∨ fld v 15 0 < 40 * hops + 10 → exec (.shTimeoutWrite v) s = .next s))) ∧
    (∀ (n : BitVec 8) (v : Dword),
      (let both := s.works (BitVec.ofNat 8 (fld v 7 0)) && s.works (BitVec.ofNat 8 (fld v 25 18))
       (s.active = false → both = true →
         exec (.kpairWrite n v) s = .next (s.setReg (hdl (0x800 + 8 * n.toNat)) v)) ∧
       (s.active = true ∨ both = false → exec (.kpairWrite n v) s = .next s)))

/-- HDL_PROG_MAPn (R431; R488 for dies powered down). -/
def Obligations.ProgramMapKeepsWorkingCores : Prop :=
  ∀ (s : State) (m : Fin 8) (v : Word), s.answers .hdl = true →
    (s.progState = 0 → ∃ x : Dword,
      (∀ i < 64, x.getLsbD i = (decide (i < 32) && v.getLsbD i && s.works (BitVec.ofNat 8 (32 * m.val + i)))) ∧
      exec (.progMapWrite m v) s = .next (s.setReg (hdl (0x200 + 4 * m.val)) x)) ∧
    (s.progState ≠ 0 → exec (.progMapWrite m v) s = .next s)

/-- The conditions of Table 16.5 by the bit of their flag. -/
def Sys2Proof.Claims.runCondition (s : State) : Nat → Bool
  | 1 => !bit (s.getReg (hdl 0x10)) 0 || s.heddle.clkChange
  | 2 => (s.getReg (hdl 0x30)).toNat < s.weft + 10000
  | 3 => fld (s.getReg (hdl 0x11C)) 15 0 < 40 * fld (s.getReg (hdl 0x118)) 3 0 + 10
  | 4 => 1 < fld (s.getReg (hdl 0x100)) 20 10 && !bit (s.getReg (hdl 0x114)) 0
  | 5 => s.pwrState != 4
  | 6 => 1000 * s.temple.settings.holdupMs < s.period + 4000
  | 7 => fld (s.getReg (hdl 0x1000)) 1 0 == 2
  | 8 => (s.liveReg .hdl 0x40) == 0
  | 9 => s.active
  | _ => false

/-- RUN = 1 (R509). -/
def Obligations.PickRunRefusals : Prop :=
  ∀ s : State, s.answers .hdl = true → bit (s.getReg (hdl 0x20)) 0 = false →
    ((∃ b, runCondition s b = true) → ∃ x : Dword,
      (∀ i < 64, x.getLsbD i = (runCondition s i || (s.getReg (hdl 0x24)).getLsbD i)) ∧
      exec .pickRun s = .next (s.setReg (hdl 0x24) x)) ∧
    ((∀ b, runCondition s b = false) → exec .pickRun s = .next
      { (s.setReg (hdl 0x20) 1).modReg (hdl 0x24) (fun v => putBit v 0 true) with
        heddle := { s.heddle with phase := .waiting, k := 0 } })

/-- Pick generation and the program (R51, R54, R433, R435, R448). -/
def Obligations.PickGenerationStartsAndStops : Prop :=
  ∀ s : State,
    ((s.heddle.phase = .waiting ∧ s.pickInstant 0 ≤ s.weft) ∨
        (s.heddle.phase = .window ∧ s.heddle.decided = true ∧ s.pickInstant s.heddle.k ≤ s.weft) →
      exec .pickStart s = .next (if bit (s.getReg (hdl 0x20)) 0 then s.startPick else s.endPicks)) ∧
    (s.answers .hdl = true → bit (s.getReg (hdl 0x20)) 0 = true →
      (s.heddle.phase ≠ .waiting → exec .pickStop s = .next (s.setReg (hdl 0x20) 0)) ∧
      (s.heddle.phase = .waiting → exec .pickStop s = .next (s.setReg (hdl 0x20) 0).endPicks)) ∧
    (∀ g : CoreId, s.runs g = true → s.heddle.phase ≠ .stopped → s.heddle.k ≠ 0 → 256 ≤ s.clk →
      exec (.pickStartAckTimeout g) s = .next (s.halt g 0x83 0 0 0)) ∧
    (s.answers .hdl = true → s.power.recovery = false → fld (s.getReg (hdl 0x1000)) 1 0 ≠ 2 → s.progState = 0 →
      s.active = false → bit (s.getReg (tpl 0x204)) 0 = false → (∃ m < 8, s.getReg (hdl (0x200 + 4 * m)) ≠ 0) →
      exec .progStart s = .next (((s.modReg (hdl 0x234) fun v => putFld v 7 4 0).setReg (hdl 0x234)
        (putFld (putFld (s.getReg (hdl 0x234)) 7 4 0) 1 0 1)).logHdl 0x0003 0
          (putFld (putFld (s.getReg (hdl 0x234)) 7 4 0) 1 0 1))) ∧
    (s.answers .hdl = true →
      (s.power.recovery = false → fld (s.getReg (hdl 0x1000)) 1 0 ≠ 2 → s.progState ≠ 0 →
        exec .progStart s = .next (s.modReg (hdl 0x234) fun v => putFld v 7 4 1)) ∧
      (s.progState = 1 → exec .progStop s = .next ((s.setReg (hdl 0x234) (putFld (s.getReg (hdl 0x234)) 1 0 0)).logHdl 0x0003 0
        (putFld (s.getReg (hdl 0x234)) 1 0 0))) ∧
      (s.progState = 2 → s.heddle.phase = .issuing ∨ s.heddle.phase = .window →
        exec .progStop s = .next ((s.setReg (hdl 0x234) (putFld (s.getReg (hdl 0x234)) 1 0 3)).logHdl 0x0003 0
          (putFld (s.getReg (hdl 0x234)) 1 0 3))))

/-- HDL_FELL_RESOLVE (R97). -/
def Obligations.UnresolvedFellKeepsUntilResolved : Prop :=
  ∀ (s : State) (v : Dword), s.answers .hdl = true →
    (fld (s.getReg (hdl 0x58)) 49 48 ≠ 3 ∨ fld v 47 0 ≠ fld (s.getReg (hdl 0x58)) 47 0 ∨ fld v 49 48 = 0 ∨
        fld v 49 48 = 3 → exec (.fellResolve v) s = .next s) ∧
    (fld (s.getReg (hdl 0x58)) 49 48 = 3 → fld v 47 0 = fld (s.getReg (hdl 0x58)) 47 0 →
      (let id := fld v 47 0
       let known (out : Nat) (x : BitVec 256) : State := { s.setReg (hdl 0x58) (BitVec.ofNat 64 (id + 2 ^ 48 * out)) with
         heddle := { s.heddle with unresolved := false }
         temple := { s.temple with histQueue := s.temple.histQueue.map fun (r : HistRec) =>
           if r.outcome == 0 then { r with outcome := BitVec.ofNat 8 out, x := x } else r } }
       (fld v 49 48 = 1 →
         (let k := (known 1 s.heddle.heldX).modReg (hdl 0x50) fun n => n + 1
          let t : State := { k with heddle := { k.heddle with drainPick := id } }
          exec (.fellResolve v) s = .next ((t.workingCores.foldl (fun (t : State) g =>
            (t.ccount g 0x704 (t.core g).heldResidue).modCore g fun c => { c with
              drainFell := c.heldFell, drainLeft := some (fullest c.heldFell + 16), heldFell := [], heldResidue := 0 }) t).logHdl
                0x0004 0 (BitVec.ofNat 64 (id + 2 ^ 48 * 1))))) ∧
       (fld v 49 48 = 2 →
         (let t := ((known 2 0).resolveBolts id).restoreKnots s.heddle.heldSnap
          let t1 : State := { t with heddle := { t.heddle with knotSnap := t.heddle.heldSnap } }
          exec (.fellResolve v) s = .next (((t1.listed.foldl (fun (t : State) g => t.modCore g fun c => { c with
              heldFell := [], heldResidue := 0, sbuf := if c.captured then c.sbuf else [], squashing := c.run }) t1).reportFell
                id 0x0C s.pkg 0x100 0 0 0 none).logHdl 0x0004 0 (BitVec.ofNat 64 (id + 2 ^ 48 * 2)))))))

/-- Ledgers and the opening of the window (R79, R82, R310). -/
abbrev Sys2Proof.Claims.LedgersAndWindow (s : State) : Prop :=
  ((s.heddle.phase = .issuing ∧ s.lateVoters = []) ∨ (s.heddle.phase = .window ∧ s.heddle.onTime = true) →
    s.heddle.vote = .none →
    (([0, 1] : List Td).all fun td => (s.boltsOf td fun b =>
      b.phase == .landed && s.curPick == some b.hdr.pickId && b.digest.isNone).isEmpty) = true →
    (s.ledgerFails = [] →
      exec .ledgerCheckDone s = .next ({ s with heddle := { s.heddle with vote := .ready } } : State).tryReady) ∧
    (∀ (f : LedgerFail) (more : List LedgerFail), s.ledgerFails = f :: more →
      exec .ledgerCheckDone s = .next ((((s.setReg (hdl 0x300) f.word).count (hdl 0x308) 1).logOvs 0xB001
        (min (more.length + 1) 0xFFFF) f.word).sendLate 0x02 0x100 0 0 0))) ∧
  (s.heddle.phase = .issuing → s.windowAt ≤ s.weft →
    (let s1 := ((s.modHeddle fun h => { h with phase := .window, winClk := 0 }).outsLate).tallyWindow
     (s1.heddle.vote = .none → s1.lateVoters = [] →
       exec .fellWindowOpen s = .next (s1.modHeddle fun h => { h with onTime := true })) ∧
     (∀ code v : Nat, s1.heddle.vote = .none → s1.lateVoters ≠ [] → namedVoter s1.lateVoters = some (code, v) →
       exec .fellWindowOpen s = .next
         (if v < 0x100 then s1.sendLate code v (lateCount s1.lateVoters) (s1.oldestCard (BitVec.ofNat 8 v))
           (s1.creg (BitVec.ofNat 8 v) 0x108).toNat
         else s1.sendLate code v (lateCount s1.lateVoters) 0 0)) ∧
     (s1.heddle.vote = .ready → s1.heddle.held = true → s1.heddle.decided = false →
       exec .fellWindowOpen s = .next (s1.commit s1.heddle.readyX)) ∧
     (s1.heddle.vote = .late → exec .fellWindowOpen s = .next s1)))

/-- Control records of the vote tree (R80, R88, R412–R414). -/
abbrev Sys2Proof.Claims.VoteRecords (s : State) (p : PortId) (b : List Byte) (q : List (List Byte)) : Prop :=
  let s1 := s.setPort p { s.port p with ctrlIn := q }
  let now := leAt b 1 6 = s.pickId.toNat ∧ s.curPick.isSome = true
  (leAt b 0 1 = 2 → now → s.children.contains p = true → (∀ c ∈ s.heddle.childReady, c.port ≠ p) →
    exec (.readyRecord p) s = .next ({ s1 with heddle := { s1.heddle with childReady := s1.heddle.childReady ++
      [{ port := p, x := digestWord (slice b 7 32), pkgs := bitmapPkgs (slice b 39 128) }] } } : State).tryReady) ∧
  (leAt b 0 1 = 3 → s.isRoot = false → exec (.lateRecord p) s = .next (s1.sendCtrl s.upPort b)) ∧
  (leAt b 0 1 = 3 → s.isRoot = true → now → s.heddle.decided = false →
    (let w := leastDrop { code := BitVec.ofNat 8 (leAt b 7 1), pkg := BitVec.ofNat 10 (leAt b 8 2)
                          voter := BitVec.ofNat 10 (leAt b 10 2) } s1.lateHeld
     exec (.lateRecord p) s = .next ((s1.toChildren (s.decisionRec 2 w 0)).drop 0x0E w.pkg.toNat w.voter.toNat 0 0 0))) ∧
  (leAt b 0 1 = 4 →
    (now → s.heddle.decided = false → leAt b 7 1 = 1 → s.heddle.vote = .ready →
      exec (.decisionRecord p) s = .next ((s1.toChildren b).decideCommit (digestWord (slice b 13 32)))) ∧
    (now → s.heddle.decided = false → leAt b 7 1 ≠ 1 → s.overseer.resync = false →
      exec (.decisionRecord p) s = .next ((s1.toChildren b).drop 0x0E (leAt b 9 2) (leAt b 11 2) 0 0 0)) ∧
    (leAt b 1 6 ≠ s.pickId.toNat ∨ s.curPick = none ∨ s.heddle.decided = true →
      exec (.decisionRecord p) s = .next (s1.toChildren b)))

/-- The fell's events (R79–R94, R412–R414). -/
def Obligations.VotesDecideTheFell : Prop :=
  ∀ s : State, LedgersAndWindow s ∧
    (s.heddle.phase = .window → s.heddle.decided = false → s.heddle.vote = .ready → s.overseer.resync = false →
      s.windowAt + s.deadline ≤ s.weft →
      (s.isRoot = false → exec .decisionDeadline s = .next s.unresolve) ∧
      (s.isRoot = true → ∀ p < 1024, p ∉ s.pkg :: s.heddle.childReady.flatMap (·.pkgs) →
        (∀ r < p, r ∈ s.pkg :: s.heddle.childReady.flatMap (·.pkgs)) →
        exec .decisionDeadline s = .next ((s.toChildren (s.decisionRec 2
          { code := 0x0D, pkg := BitVec.ofNat 10 p, voter := 0 } 0)).drop 0x0D p 0 0 0 0))) ∧
    (∀ g : CoreId, (s.core g).drainLeft = some 0 → exec (.drainEnd g) s = .next (s.finishDrain g)) ∧
    (∀ g : CoreId, (s.core g).squashing = true → (s.core g).undo = none →
      exec (.squashEnd g) s = .next ((s.modCore g fun c => { c with squashing := false }).selectDue g)) ∧
    (∀ (p : PortId) (b : List Byte) (q : List (List Byte)), (s.port p).ctrlIn = b :: q → VoteRecords s p b q)

/-- Fetch, decode and loops (R99–R119). -/
def Obligations.CardFetchAndDecode : Prop :=
  ∀ (s : State) (g : CoreId),
    (let f := (s.core g).front
     s.sequencing g = true → f.run = true → f.ended = false → f.fetched = none → f.loopCard = none →
      (8192 ≤ f.idx → exec (.cardFetch g) s = .next (s.halt g 0x07 0 0x7FFC0 f.soff)) ∧
      (f.idx < 8192 → f.entry + f.len ≤ f.idx → exec (.cardFetch g) s = .next (s.halt g 0x07 0 (64 * f.idx) f.soff)) ∧
      (f.idx < 8192 → f.idx < f.entry + f.len →
        ((∃ w < 16, s.badWord (auxBase g + 64 * f.idx + 4 * w) = true) →
          exec (.cardFetch g) s = .next ((s.ccount g 0x320 1).halt g 0x12 0 (64 * f.idx) f.soff)) ∧
        ((∀ w < 16, s.badWord (auxBase g + 64 * f.idx + 4 * w) = false) →
          exec (.cardFetch g) s =
            .next (s.modCore g fun c => { c with front := { c.front with fetched := some f.idx } })))) ∧
    (∀ idx : Nat, (s.core g).front.fetched = some idx → s.sequencing g = true → (s.core g).front.run = true →
      (let bytes := s.bytes (auxBase g + 64 * idx) 64
       let header : Dword := BitVec.ofNat 64 (leAt bytes 0 8)
       Config.windowCap ≤ (s.core g).window.length ∨ (s.core g).queueFull header = true →
         exec (.cardDecode g) s = .next s) ∧
      (let bytes := s.bytes (auxBase g + 64 * idx) 64
       let d := s.decodeCard g bytes
       (s.core g).window.length < Config.windowCap → (s.core g).queueFull (BitVec.ofNat 64 (leAt bytes 0 8)) = false →
       (∀ code slot soff, d = .fault code slot soff →
         exec (.cardDecode g) s = .next (s.halt g code slot (64 * idx) soff)) ∧
       (∀ l, d = .loop l → exec (.cardDecode g) s =
         .next (s.modCore g fun c => { c with front := { c.front with fetched := none, loopCard := some l } })) ∧
       (d = .endpick → exec (.cardDecode g) s =
         .next (s.modCore g fun c => { c with front := { c.front with fetched := none, ended := true } })) ∧
       (∀ off, d = .source off → s.deckPick = true → s.heddle.decided = false →
         exec (.cardDecode g) s = .next ((s.sourceError g (BitVec.ofNat 64 (off + 2 ^ 30 * 3 + 2 ^ 32 * 15 + 2 ^ 63))).modCore g
           fun c => { c with front := { c.front with run := false } })) ∧
       (∀ i f, d = .inst i f →
         exec (.cardDecode g) s = .next (s.modCore g fun c =>
           { c with front := f.advance, window := c.window ++ [i] })))) ∧
    (∀ l : LoopFrame, (s.core g).front.loopCard = some l → exec (.loop g) s = .next (s.modCore g fun c =>
      { c with front := { c.front with loopCard := none, idx := l.first, loops := l :: c.front.loops, sawPlain := true } }))

/-- ISSUE, CARD_RETIRE, ENDPICK, CAPTURE_HIT (R109–R113, R277). -/
def Obligations.CardsIssueAndRetireInOrder : Prop :=
  ∀ (s : State) (g : CoreId),
    (∀ i : Inst, s.headInst g = some (i, []) → ∃ c' : Core,
      exec (.issue g) s = .next ((((s.setCore g c').setCreg g 0x108 (BitVec.ofNat 64 (i.step + 1))).setCreg g 0x10C
        (BitVec.ofNat 64 (min (s.clk - i.soff) 0xFFFFFFFF))).setCreg g 0x110
          (BitVec.ofNat 64 ((fld (s.creg g 0x110) 47 0 + 1) % 2 ^ 48))) ∧
      c'.window = (s.core g).window.drop 1 ∧ c'.lastIssue = some (s.clk, i.step) ∧
      c'.cmds = (s.core g).cmds ++ (s.newCmds g i).filter (fun x => !(s.core g).cmds.any fun y =>
        y.step == x.step && y.slot == x.slot) ∧
      (i.started = false → s.newCmds g i = i.slots.map fun x =>
        { step := i.step, slot := x.1, op := x.2, card := i.card, phase := .issued, at' := s.now }) ∧
      c'.live = (if s.newCmds g i = [] then (s.core g).live else (s.core g).live ++ [(i.step, i.card)]) ∧
      c'.front = (s.core g).front ∧ c'.track = (s.core g).track ∧ c'.weave = (s.core g).weave) ∧
    (∀ x : Nat × Nat, (s.core g).live.find? (fun x => (s.core g).instDone s.now x.1) = some x → ∃ c' : Core,
      exec (.cardRetire g) s = .next (s.setCore g c') ∧
      c'.live = (s.core g).live.erase x ∧ c'.cmds = (s.core g).cmds.filter (fun y => y.step != x.1) ∧
      c'.gone = (s.core g).gone ++ (s.core g).cmds.filter (fun y => y.step == x.1) ∧
      c'.window = (s.core g).window ∧ c'.front = (s.core g).front) ∧
    (s.inDeck g = true → (s.core g).front.ended = true → (s.core g).window = [] → (s.core g).live = [] →
      (s.core g).cmds = [] → (s.core g).inUse = [] →
      exec (.endpick g) s = .next (s.modCore g fun c => { c with done := true })) ∧
    ((s.core g).run = true → (s.core g).capStop = true → (s.core g).firstPick = true → s.dropped = false →
      (s.core g).captured = false → (s.core g).live = [] → (s.core g).cmds = [] → (s.core g).sbuf = [] →
      exec (.captureHit g) s = .next (((s.setCreg g 0x138 (putBit (s.creg g 0x138) 0 true)).modCore g fun c =>
        { c with captured := true, capGen := s.heddle.gen }).logCore g 0x0002 (BitVec.ofNat 64 (fld (s.creg g 0x130) 31 0))))

/-- Selection, prologue and undo (R123–R131). -/
def Obligations.VariantSelectionAndPrologue : Prop :=
  ∀ (s : State) (g : CoreId),
    (let sel := s.creg g 0x200
     let off := 4 * fld sel 22 2
     let bytes := [off, off + 1, off + 2, off + 3]
     (s.core g).sel = .due → s.sequencing g = true →
      (bit sel 31 = false → bit (s.shedEntry g (fld sel 30 28)) 31 = true →
        exec (.shedSelect g) s = .next (s.modCore g fun c => { c with sel := .reading (fld sel 30 28) s.now })) ∧
      (bit sel 31 = false → bit (s.shedEntry g (fld sel 30 28)) 31 = false →
        exec (.shedSelect g) s = .next ((s.halt g 0x10 0 0 0).modCore g fun c => { c with sel := .idle })) ∧
      (bit sel 31 = true → s.carryBit g (off / 65536) = false →
        exec (.shedSelect g) s = .next ((s.halt g 0x10 0 0 0).modCore g fun c => { c with sel := .idle })) ∧
      (bit sel 31 = true → s.carryBit g (off / 65536) = true → s.badOf g bytes = [] →
        bit (s.shedEntry g (leNat (s.beamBytes g bytes) / 2 ^ fld sel 27 23 % 8)) 31 = true →
        exec (.shedSelect g) s = .next (s.modCore g fun c =>
          { c with sel := .reading (leNat (s.beamBytes g bytes) / 2 ^ fld sel 27 23 % 8) s.now }))) ∧
    (∀ v t : Nat, (s.core g).sel = .reading v t → t + 4 ≤ s.now →
      (let s0 := s.modCore g fun c => { c with sel := .idle, nextVariant := v }
       let s1 := if s.deckPick then s0.setCreg g 0x204 (BitVec.ofNat 64 (v % 8 + 16 * (s0.predicted g v % 8))) else s0
       ((s.core g).specRun = true → (s.core g).nextVariant = v → exec (.selectorReadDone g) s =
         .next (((s1.modCore g fun c => { c with
            specRun := false
            proRun := !s.deckPick
            window := c.window.map fun i => { i with spec := false }
            track := c.track.map fun x => (x.1, { x.2 with tr := x.2.tr.map fun t =>
              if t.pro then { t with confirmed := true } else t }) }).setSpec g false))) ∧
       ((s.core g).specRun = true → (s.core g).nextVariant ≠ v →
         exec (.selectorReadDone g) s = .next (s1.undoStart g (s.frontFor g v) v)) ∧
       ((s.core g).specRun = false → exec (.selectorReadDone g) s =
         .next (s1.modCore g fun c => { c with
           front := s.frontFor g v, window := [], proRun := !s.deckPick && c.undo.isNone })))) ∧
    (∀ (u : Undo) (src : CoreId), (s.core g).undo = some u → src ∈ u.waiting → u.start + 2 * meshLat g src ≤ s.now →
      (let left := u.waiting.filter fun h => h != src
       let s1 := s.modCore g fun c => { c with undo := some { u with waiting := left } }
       exec (.undoCancelAck g src) s = .next (if left = [] then s1.undoEnds g else s1))) ∧
    (let v := s.predicted g (fld (s.creg g 0x204) 2 0)
     s.sequencing g = true → s.heddle.phase = .window → s.heddle.vote = .ready → s.heddle.decided = false →
      (s.core g).specRun = false → (s.core g).sel = .idle → (s.core g).undo = none → (s.core g).captured = false →
      (s.core g).done = true → bit (s.shedEntry g v) 31 = true →
      exec (.prologueStart g) s = .next (((s.modCore g fun c => { c with
        specRun := true, proRun := false, nextVariant := v, window := [], front := s.frontFor g v }).setCreg g 0x204
          (putFld (s.creg g 0x204) 6 4 v)).setSpec g true))

/-- The Batten commands by opcode (Table 6.3). -/
def Sys2Proof.Claims.battenOps : List (Nat × (CoreId → Instr)) :=
  [(0x40, .btAdd), (0x41, .btSub), (0x42, .btMul), (0x43, .btFma), (0x44, .btAxpy), (0x45, .btMax), (0x46, .btMin),
   (0x47, .btAbs), (0x48, .btNeg), (0x49, .btRelu), (0x4A, .btCvt), (0x4B, .btClamp), (0x4C, .btCmpgt), (0x4D, .btAnd),
   (0x4E, .btOr), (0x4F, .btXor), (0x50, .btShl), (0x51, .btShra)]

/-- Batten commands (R206–R214). -/
def Obligations.BattenCommandsPerform : Prop :=
  ∀ e ∈ battenOps, ∀ (s : State) (g : CoreId),
    (s.nextOp g 2 e.1 = none → exec (e.2 g) s = .next s) ∧
    ∀ x : Cmd, s.nextOp g 2 e.1 = some x →
      let t := s.now
      let un := btUnary e.1
      let a := s.desc g (fld x.op 19 8)
      let b := s.desc g (fld x.op 31 20)
      let d := s.desc g (fld x.op 43 32)
      let k := (s.creg g (0x540 + 4 * fld x.op 47 44)).toNat
      let k1 := (s.creg g (0x540 + 4 * (fld x.op 47 44 + 1))).toNat
      let pairs := if un then (s.elems g a).zip (s.elems g a) else (s.elems g a).zip (s.elems g b)
      let outs := pairs.zipIdx.map fun y =>
        btElem e.1 a.fmt (if un then a.fmt else b.fmt) d.fmt (bit x.op 49) (s.srOf g (bit x.op 48) x y.2) k k1 y.1.1 y.1.2
      let flags := fun (n : Nat) =>
        let l := (outs.drop (64 * n)).take 64
        flagBit (l.any (·.nan)) 0 + flagBit (l.any (·.ovf)) 1 + flagBit (l.any (·.sat)) 2
      let reads := readSteps 3 a.gath (a.readBy 64) (fun k => t + 1 + k) ++
        (if un then [] else readSteps 4 b.gath (b.readBy 64) (fun k => t + 1 + k))
      ∃ raised : Nat → Nat, (∀ n, 64 * n < outs.length → raised n = flags n) ∧
        exec (e.2 g) s = .next (s.accept g x false (reads ++
          writeSteps 5 d.gath (d.writesBy (outs.map (·.code)) 64) (fun k => t + 8 + k) raised (fun _ => [])))

/-- INT32 elements (R214, R215). -/
def Obligations.BattenIntegerElements : Prop :=
  ∀ (sr : Option Nat) (k k1 a b : Nat), a < 2 ^ 32 → b < 2 ^ 32 →
    let el := fun (op : Nat) => btElem op 0xD 0xD 0xD false sr k k1 a b
    let sa := signed 32 a
    let sb := signed 32 b
    (el 0x40).code = (a + b) % 2 ^ 32 ∧ (el 0x41).code = (a + 2 ^ 32 - b) % 2 ^ 32 ∧
    (el 0x42).code = a * b % 2 ^ 32 ∧ (el 0x48).code = (2 ^ 32 - a) % 2 ^ 32 ∧
    (el 0x4D).code = a &&& b ∧ (el 0x4E).code = a ||| b ∧ (el 0x4F).code = a ^^^ b ∧
    (el 0x50).code = a * 2 ^ (b % 32) % 2 ^ 32 ∧ (el 0x51).code = unsigned 32 (sa / 2 ^ (b % 32)) ∧
    (el 0x45).code = (if sa < sb then b else a) ∧ (el 0x46).code = (if sa < sb then a else b) ∧
    (el 0x4C).code = (if sb < sa then 1 else 0) ∧
    ∀ op ∈ [0x40, 0x41, 0x42, 0x45, 0x46, 0x48, 0x4C, 0x4D, 0x4E, 0x4F, 0x50, 0x51],
      (el op).nan = false ∧ (el op).ovf = false ∧ (el op).sat = false

/-- The Reed commands by opcode (§6.3). -/
def Sys2Proof.Claims.reedOps : List (Nat × (CoreId → Instr)) :=
  [(0x60, .rdSum), (0x61, .rdSumsq), (0x62, .rdMax), (0x63, .rdMin), (0x64, .rdMean), (0x65, .rdArgmax), (0x66, .rdLnorm),
   (0x67, .rdRmsnorm), (0x68, .rdSoftmax), (0x69, .rdMxq), (0x6A, .rdFunc)]

/-- The clk after the acceptance in which a Reed operation presents source group k and output group k, of `grp` groups in each of
`rows` rows (R219, R220, R222, R223). -/
def Sys2Proof.Claims.reedClk (op grp rows k : Nat) : Nat × Nat :=
  let r := k / grp
  let i := k % grp
  if op = 0x67 then (1 + r * (2 * grp + 30) + i, 1 + r * (2 * grp + 30) + (grp + 30) + i)
  else if op = 0x66 ∨ op = 0x68 then (1 + r * (3 * grp + 44) + i, 1 + r * (3 * grp + 44) + (2 * grp + 44) + i)
  else if op = 0x64 then (1 + k, grp * min (32 * k + 32) rows + 16)
  else if op ≤ 0x65 then (1 + k, grp * min (32 * k + 32) rows + 12)
  else if op = 0x69 then (1 + k, 14 + k)
  else (1 + k, 16 + k)

/-- Reed commands (§6.3). -/
def Obligations.ReedCommandsPerform : Prop :=
  ∀ e ∈ reedOps, ∀ (s : State) (g : CoreId),
    (s.nextOp g 3 e.1 = none → exec (e.2 g) s = .next s) ∧
    ∀ x : Cmd, s.nextOp g 3 e.1 = some x →
      let sd := s.desc g (fld x.op 19 8)
      let dd := s.desc g (fld x.op 31 20)
      let sc := s.desc g dd.scale
      let ro := s.rdOutputs g x sd dd
      let codes := ro.1.map (·.1)
      let rows := (sd.sz 1 + 1) * (sd.sz 2 + 1) * (sd.sz 3 + 1)
      let clk := reedClk e.1 (ceilDiv (sd.sz 0 + 1) 32) rows
      let nans := fun (k : Nat) => ((ro.2.drop (32 * k)).take 32).any (· == 0xFF)
      let flags := if e.1 ≤ 0x65 then (chunks 32 ro.1.length ro.1).map rdFlags else (dd.rowGroups ro.1 1).map rdFlags
      exec (e.2 g) s = .next (s.accept g x (e.1 == 0x66 || e.1 == 0x67 || e.1 == 0x68)
        (readSteps 6 sd.gath (sd.rowGroups sd.stream sd.e) (fun k => s.now + (clk k).1) ++
          writeSteps 7 dd.gath (if e.1 ≤ 0x65 then dd.writesBy codes 32 else dd.rowGroups (dd.writes codes) dd.e)
            (fun k => s.now + (clk k).2) (fun k => flags.getD k 0) (fun _ => []) ++
          (if e.1 = 0x69 then writeSteps 7 sc.gath (sc.writesBy ro.2 32)
            (fun k => s.now + 15 + min (32 * k + 31) (ro.2.length - 1)) (fun k => if nans k then 8 else 0) (fun _ => [])
           else [])))

/-- Heald commands (R225–R229); the rows of an indexed command are paced by the spec's bound (log entry 22). -/
def Obligations.HealdCommandsMoveElements : Prop :=
  ∀ (s : State) (g : CoreId) (x : Cmd),
    let t := s.now
    let sd := s.desc g (fld x.op 19 8)
    let dd := s.desc g (fld x.op 31 20)
    let ix := s.desc g (fld x.op 43 32)
    let idx := (s.elems g ix).map (intOf ix.fmt)
    let due := fun (c i m : Nat) => t + 5 + i * c + m
    let indexReads := fun (d : Desc) (c : Nat) =>
      ((readSteps 8 ix.gath (ix.readBy 64) (fun k => if k = 0 then t + 1 else due c (64 * (k - 1)) 0)).zip
        (chunks 64 (ix.sz 0 + 1) idx)).map fun y =>
          let n := y.2.countP fun v => !d.inRange v
          if n = 0 then y.1 else { y.1 with flags := 64, counts := [(0x508, n)] }
    (s.nextOp g 4 0x80 = some x →
      (let n := if sd.fmt = 1 then 512 else 256 / sd.e
       exec (.hlCopy g) s = .next (s.accept g x false (readSteps 8 sd.gath (sd.readBy n) (fun k => t + 1 + k) ++
         writeSteps 9 dd.gath (dd.writesBy (s.elems g sd) n) (fun k => t + 6 + k) (fun _ => 0) (fun _ => []))))) ∧
    (s.nextOp g 4 0x81 = some x →
      exec (.hlTranspose g) s = .next (s.accept g x false
        (readSteps 8 false (sd.readBy (sd.sz 0 + 1)) (fun k => t + 1 + k) ++
          writeSteps 9 dd.gath (dd.writesBy ((List.range dd.count).map fun p =>
              s.elemCode g sd (p / (dd.sz 0 + 1) + p % (dd.sz 0 + 1) * (sd.sz 0 + 1))) (dd.sz 0 + 1))
            (fun k => t + (sd.sz 1 + 1) + 4 + k) (fun _ => 0) (fun _ => [])))) ∧
    (s.nextOp g 4 0x82 = some x →
      (let c := (dd.rowBy 0).length
       let reads := idx.zipIdx.flatMap fun e =>
         if sd.inRange e.1 then (readGroups sd.gath (sd.rowBy e.1.toNat)).zipIdx.map fun y =>
           ({ kind := .read, port := 8, due := due c e.2 y.2, grp := e.2 * c + y.2, gath := sd.gath, accs := y.1 } : RunStep)
         else []
       let data := idx.zipIdx.flatMap fun e => (dd.rowBy e.2).zipIdx.map fun l =>
         l.1.zip (if sd.inRange e.1 then s.beamBytes g ((sd.rowBy e.1.toNat).getD l.2 []) else l.1.map fun _ => 0)
       exec (.hlGather g) s = .next (s.accept g x false (indexReads sd c ++ reads ++
         (writeGroups dd.gath data).zipIdx.map fun y =>
           ({ kind := .write, port := 9, due := due c 0 y.2 + 5, grp := y.2, accs := y.1 } : RunStep))))) ∧
    (s.nextOp g 4 0x83 = some x →
      (let c := (sd.rowBy 0).length
       let reads := (readGroups sd.gath ((List.range (sd.sz 1 + 1)).flatMap sd.rowBy)).zipIdx.map fun y =>
         ({ kind := .read, port := 8, due := due c 0 y.2, grp := y.2, gath := sd.gath, accs := y.1 } : RunStep)
       let writes := idx.zipIdx.flatMap fun e =>
         if dd.inRange e.1 then (writeGroups dd.gath (((sd.rowBy e.2).zip (dd.rowBy e.1.toNat)).map fun l =>
           l.2.zip (s.beamBytes g l.1))).zipIdx.map fun y =>
             ({ kind := .write, port := 9, due := due c e.2 y.2 + 5, grp := e.2 * c + y.2, accs := y.1 } : RunStep)
         else []
       exec (.hlScatter g) s = .next (s.accept g x false (indexReads dd c ++ reads ++ writes)))) ∧
    (s.nextOp g 4 0x80 = none → exec (.hlCopy g) s = .next s) ∧
    (s.nextOp g 4 0x81 = none → exec (.hlTranspose g) s = .next s) ∧
    (s.nextOp g 4 0x82 = none → exec (.hlGather g) s = .next s) ∧
    (s.nextOp g 4 0x83 = none → exec (.hlScatter g) s = .next s)

/-- A Carder command accepted with its counts: with its last step, or at once when it has none (R236, R251). -/
def Sys2Proof.Claims.carded (s : State) (g : CoreId) (x : Cmd) (n : CdCounts) (steps : List RunStep) : State :=
  let regs := [(0x620, n.skip), (0x624, n.outside), (0x628, n.maxp), (0x62C, n.probe), (0x630, n.full), (0x634, n.range)]
  if steps = [] then (regs.foldl (fun (s : State) e => s.ccount g e.1 e.2) s).accept g x true []
  else s.accept g x true (steps.take (steps.length - 1) ++
    (steps.drop (steps.length - 1)).map fun y => { y with counts := regs })

/-- Carder commands (chapter 7); CD_RULES, CD_GATHER and CD_BEV take the times of Table 7.6 at their bound (log entry 22). -/
def Obligations.CarderCommandsPerform : Prop :=
  ∀ (s : State) (g : CoreId) (x : Cmd),
    let t := s.now
    let d1 := s.desc g (fld x.op 19 8)
    let d2 := s.desc g (fld x.op 31 20)
    let d3 := s.desc g (fld x.op 43 32)
    let limit := fld x.op 48 45 + 1
    let num := fun (o : Nat) => num32 (s.creg g o).toNat
    (s.nextOp g 5 0xA0 = some x →
      (let m := d2.sz 1 + 1
       let after := fun (i : Nat) => (List.range i).foldl (fun (v : Voxels) i =>
         v.point [num 0x600, num 0x604, num 0x608] [num 0x60C, num 0x610, num 0x614] (s.grid g) (fld x.op 56 49)
           ((List.range 4).map fun j => num32 (s.elemCode g d1 (4 * i + j))))
         { table := { sites := [], cap := m, limit := limit }, accs := [], n := {} }
       let v := after (d1.sz 1 + 1)
       let feats := (List.range m).flatMap fun o => match v.accs[o]? with
         | some a => a.map bits32
         | none => List.replicate 8 0
       ∃ due : Nat → Nat, (∀ k ≤ d1.sz 1, due k = t + 1 + (after k).n.probes) ∧
         exec (.cdVoxel g) s = .next (carded (s.modCore g fun c => c.setTable (bit x.op 44) v.table) g x v.n
           (readSteps 10 d1.gath (d1.readBy 4) due ++ cdWrites (t + 9 + v.n.probes) (linesOf [d2, d3])
             (d2.lineWrites (siteRows v.table m) ++ d3.lineWrites feats))))) ∧
    (s.nextOp g 5 0xA1 = some x →
      (let src := (s.core g).table (bit x.op 49)
       let m := d2.sz 1 + 1
       let maps := fun (t : SiteTable) => (List.range m).flatMap fun o => mapRow (s.grid g) src t.sites[o]?
       let wr := fun (at' : Nat) (t : SiteTable) => cdWrites at' (linesOf [d2, d1])
         (d2.lineWrites (siteRows t m) ++ d1.lineWrites (maps t))
       (bit x.op 50 = true → exec (.cdRules g) s = .next
         (carded s g x { full := src.sites.length - m } (wr (t + 17 + 7 * m * src.limit) src))) ∧
       (bit x.op 50 = false →
         (let built := dilate (s.grid g) src m limit
          exec (.cdRules g) s = .next (carded (s.modCore g fun c => c.setTable (bit x.op 44) built.1) g x built.2
            (wr (t + 17 + 27 * src.cap * limit + 7 * m * src.limit) built.1)))))) ∧
    (s.nextOp g 5 0xA2 = some x →
      (let k0 := fld x.op 48 44
       let nk := fld x.op 53 49
       let m := d1.sz 1 + 1
       let vals := (List.range m).map fun o => (List.range nk).map fun j => signed 32 (s.elemCode g d1 (27 * o + k0 + j))
       let pace := ceilDiv ((d2.sz 0 + 1) * d2.e) 128 + 1
       let lm := ceilDiv (linesOf [d1]) 2
       let rows := vals.flatten.zipIdx.flatMap fun e =>
         if d2.inRange e.1 then readSteps 10 true [d2.rowOffs e.1.toNat] fun _ => t + 8 + lm + e.2 * pace else []
       let bytes := s.gatherRows g d2 d3 0 vals
       let accs := if d3.gath then writeGroups true (chunks 128 bytes.length bytes) else writeGroups true [bytes]
       exec (.cdGather g) s = .next (carded s g x { range := vals.flatten.countP fun v => !d2.inRange v && v != -1 }
         (readSteps 10 d1.gath (d1.readBy 32) (fun k => t + 1 + min k (lm - 1)) ++ rows ++
           cdWrites (t + 17 + lm + m * nk * pace) (linesOf [d3]) accs.flatten)))) ∧
    (s.nextOp g 5 0xA3 = some x →
      (let tb := (s.core g).table (bit x.op 49)
       let clr := bit x.op 51
       let zeros := List.replicate d2.count 0
       let sites := tb.sites.zipIdx.filterMap fun e => (bevCell x.op d1 d2 e.1 e.2).map fun c => (e.2, c)
       let rows := (if clr then s.overlay g (d2.writes zeros) else s).bevRows g x.op d1 d2 sites
       let b := ceilDiv ((d1.sz 0 + 1) * d1.e) 64
       let base := fun (i : Nat) => t + 16 + (if clr then ceilDiv (linesOf [d2]) 2 else 0) + i * (2 * b + 6)
       exec (.cdBev g) s = .next (carded s g x { range := tb.sites.length - sites.length }
         ((if clr then cdWrites (t + 1) (linesOf [d2]) (d2.lineWrites zeros) else []) ++
           ((sites.zip rows).zipIdx).flatMap fun e =>
             readSteps 10 true [d1.rowOffs e.1.1.1] (fun _ => base e.2 + 1) ++
             readSteps 10 false [cellOffs d2 e.1.1.2.1 e.1.1.2.2] (fun _ => base e.2 + 1 + b) ++
             writeSteps 11 true [e.1.2] (fun _ => base (e.2 + 1)) (fun _ => 0) (fun _ => []))))) ∧
    (∀ (fd dd : Desc) (o : Nat) (vs : List Int) (rest : List (List Int)),
      let l := (dd.rowOffs o).zip (vs.flatMap fun v => if fd.inRange v then s.beamBytes g (fd.rowOffs v.toNat)
        else List.replicate ((fd.sz 0 + 1) * fd.e) 0)
      s.gatherRows g fd dd o (vs :: rest) = l ++ (s.overlay g l).gatherRows g fd dd (o + 1) rest) ∧
    (s.nextOp g 5 0xA0 = none → exec (.cdVoxel g) s = .next s) ∧
    (s.nextOp g 5 0xA1 = none → exec (.cdRules g) s = .next s) ∧
    (s.nextOp g 5 0xA2 = none → exec (.cdGather g) s = .next s) ∧
    (s.nextOp g 5 0xA3 = none → exec (.cdBev g) s = .next s)

/-- WV_PASS, WV_DRAIN, ARRAY_GATE_GROUP, ARRAY_UNGATE_GROUP (R180–R199). -/
def Obligations.WeavePassesDrainsAndGates : Prop :=
  ∀ (s : State) (g : CoreId),
    let w := (s.core g).weave
    let gate := fld (s.creg g 0x400) 15 4
    let ramp := fld (s.creg g 0x400) 2 0 + 1
    (∀ x : Cmd, s.nextOp g 1 0x20 = some x →
      let keep := bit x.op 45
      let queued := bit x.op 44
      let xd := s.desc g (fld x.op 19 8)
      let wd := s.desc g (fld x.op 31 20)
      let m := passM x.op xd
      let sp := if xd.e = 2 then 2 else 1
      let set := if keep then w.active else some (s.loadSet g wd)
      let n := match set with | some y => y.n | none => 128
      let sc := if isMx xd.fmt then s.elems g (s.desc g xd.scale) else []
      let sums := fun v => WeightSet.results set xd.fmt ((List.range (passK x.op xd)).map fun i =>
        (s.elemCode g xd (dataIndex queued xd v i), sc.getD (dataIndex queued xd v i / 32) 0))
      let u := if w.gated = 0 then 0 else w.clk + w.gated * ramp
      let after := match w.passes with | [] => 0 | p :: _ => p.d + p.s * p.m
      let feed := max (max (w.clk + 4) (match w.lastFeed with | some f => f + 128 | none => 0)) u
      let d := if keep then max (max (w.clk + 4) after) u else max (feed + 1) after
      ∃ t : State, exec (.wvPass g) s = .next t ∧
        (t.core g).weave.active = set ∧ (t.core g).weave.clk = w.clk ∧ t.mem = s.mem ∧
        (t.core g).cmds = ((s.setCmd g x.step 1 .waiting).core g).cmds ∧
        (t.core g).weave.passes =
          { step := x.step, f := if keep then none else some feed, d := d, s := sp, m := m, n := n
            last := d + sp * (m - 1) + n + 130, row := fld x.op 42 32, acc := bit x.op 43
            cols := (List.range m).map sums, act := s.dataFeed g queued xd w.clk d sp
            wgt := if keep then [] else s.weightFeed g wd feed
            bad := match set with | some y => y.bad | none => [] } :: w.passes ∧
        t.creg g 0x40C = (s.ccount g 0x40C (if w.gated = 0 then 0 else 1)).creg g 0x40C) ∧
    (s.nextOp g 1 0x20 = none → exec (.wvPass g) s = .next s) ∧
    (∀ x : Cmd, s.nextOp g 1 0x21 = some x →
      let drain : DrainTime :=
        { step := x.step, op := x.op, row := fld x.op 30 20, rows := (s.desc g (fld x.op 19 8)).sz 1 + 1, done := 0
          next := w.clk + 1 }
      ∃ t : State, exec (.wvDrain g) s = .next t ∧ t.mem = s.mem ∧ (t.core g).weave = { w with drain := some drain } ∧
      (t.core g).runs = (s.core g).runs ++ [{ owner := .cmd x.step 1, chain := false, arr := true, start := s.now, steps := [] }]) ∧
    (s.nextOp g 1 0x21 = none → exec (.wvDrain g) s = .next s) ∧
    (∀ (p : PassTime) (v j : Nat), v < p.m → j < p.n → p.n ≤ 128 →
      let r := (p.cols.getD v []).getD j 0
      let old := s.takeEntryBits g (p.row + v) j
      (s.passStore g p (p.d + p.s * v + 131 + j)).takeEntryBits g (p.row + v) j =
        (if p.acc then bits32 (fadd (num32 old) (num32 r)) else r) % 2 ^ 32) ∧
    (w.stalls s.now = true → s.weaveClk g = (s.ccount g 0x408 1, [])) ∧
    (∀ (fmt : Nat) (vec : List (Nat × Nat)), WeightSet.results none fmt vec = List.replicate 128 0) ∧
    (((w.gateSeq = .idle ∧ gate ≠ 0 ∧ gate ≤ w.idleClk) ∨ w.gateSeq = .gating 0) → w.gated < 16 → w.busy w.clk = false →
      exec (.arrayGateGroup g) s = .next (s.modCore g fun c =>
        { c with weave := { w with gated := w.gated + 1, gateSeq := .gating ramp } })) ∧
    (w.gateSeq = .ungating 0 → 1 < w.gated → exec (.arrayUngateGroup g) s = .next (s.modCore g fun c =>
      { c with weave := { w with gated := w.gated - 1, gateSeq := .ungating ramp, idleClk := 0 } })) ∧
    (w.gateSeq = .ungating 0 → w.gated = 1 → exec (.arrayUngateGroup g) s = .next (s.modCore g fun c =>
      { c with weave := { w with gated := 0, gateSeq := .idle, idleClk := 0 } })) ∧
    (16 ≤ w.gated ∨ w.busy w.clk = true → exec (.arrayGateGroup g) s = .next s) ∧
    ((∀ n, w.gateSeq ≠ .ungating n) → exec (.arrayUngateGroup g) s = .next s)

/-- BEAM_READ, STORE_BUFFER_DRAIN, PAR_INJECT_ARM, PAR_INJECT_DISARM, CARRY_MAP_WRITE, and the grants of a clk. -/
def Obligations.BeamReadsDrainsAndFaults : Prop :=
  ∀ (s : State) (g : CoreId),
    let b := (s.stopRuns g).beginSteps g
    let a := b.1.arb g
    (∀ (port : Fin 15) (off : BitVec 23) (mask : Dword) (x : Pres),
      a.reads.find? (fun y => y.port == port.val && y.acc.line == off.toNat / 64 && y.acc.mask == mask) = some x →
        ∃ t : State, exec (.beamRead g port off mask) s = .next t ∧
          t = (b.2 ++ b.1.arbErrs g { used := [], reads := [x] }).foldl (fun s e => s.readErr g e)
            (b.1.perform g { used := [], reads := [x] }) ∧
          ((b.1.perform g { used := [], reads := [x] }).core g).portsUsed =
            (port.val, bankOf (off.toNat / 64)) :: (b.1.core g).portsUsed) ∧
    (∀ (port : Fin 15) (off : BitVec 23) (mask : Dword),
      (∀ y ∈ a.reads, y.port ≠ port.val ∨ y.acc.line ≠ off.toNat / 64 ∨ y.acc.mask ≠ mask) →
        exec (.beamRead g port off mask) s = .next s) ∧
    (∀ (bank : Fin 32) (e : SbEntry), a.drains.find? (fun e => bankOf e.line == bank.val) = some e → b.2 = [] →
      ((partialMask e.mask = false ∨ e.merged.isSome = true) →
        ∃ t : State, exec (.storeBufferDrain g bank) s = .next t ∧
          t.mem = (b.1.writeEntry g e (e.merged.getD 0)).mem ∧ t.badPar = (b.1.writeEntry g e (e.merged.getD 0)).badPar) ∧
      (partialMask e.mask = true → e.merged = none →
        ∃ t : State, exec (.storeBufferDrain g bank) s = .next t ∧ t.mem = b.1.mem ∧
          (t.core g).sbuf = (b.1.core g).sbuf.map fun x =>
            if x = e then { x with merged := some (b.1.mergeRead g e).2 } else x)) ∧
    (∀ bank : Fin 32, (∀ e ∈ a.drains, bankOf e.line ≠ bank.val) → exec (.storeBufferDrain g bank) s = .next s) ∧
    (∀ port : Nat, let l := s.presents g port
      (l.map fun y => bankOf y.acc.line).Nodup ∧ l.length ≤ portLines port ∧
      ∀ y ∈ l, (port, bankOf y.acc.line) ∉ (s.core g).portsUsed) ∧
    ((a.drains.map fun e => bankOf e.line).Nodup ∧
      (∀ e ∈ a.drains, ∀ y ∈ a.writes, bankOf e.line ≠ bankOf y.acc.line) ∧
      ∀ e ∈ a.drains, bankOf e.line ∉ ((b.1.core g).draining.map fun x => bankOf x.line) ++ (b.1.core g).banksUsed) ∧
    (∀ groups : List (List Nat), ((readGroups false groups).flatten.map (·.line)).Nodup) ∧
    (∀ groups : List (List (Nat × Byte)), ((writeGroups false groups).flatten.map (·.line)).Nodup) ∧
    (s.coreAnswers g = true →
      (∀ off : BitVec 23, exec (.parInjectArm g off) s = .next (s.modCore g fun c =>
        { c with injectDue := some (some (4 * (off.toNat / 4))) })) ∧
      exec (.parInjectDisarm g) s = .next (s.modCore g fun c => { c with injectDue := some none }) ∧
      (∀ (m : Fin 4) (val : Word), s.runs g = false → s.running = [] → ∃ u : Undefs,
        exec (.carryMapWrite g m val) s = .next ({ s with undefs := u }.setCreg g (0x300 + 4 * m.val)
          (BitVec.ofNat 64 (if m.val = 3 then val.toNat % 2 ^ 31 else val.toNat))))) ∧
    (∀ (m : Fin 4) (val : Word), s.runs g = true → exec (.carryMapWrite g m val) s = .next s) ∧
    (∀ (s : State) (w : Option Nat), (s.core g).injectDue = some w → (Core.endClk (s.core g)).inject = w)

/-- KNOT_ADD, KNOT_ADD_SEND, KNOT_SIGNAL_ARRIVE, KNOT_WAIT, MARK (R282–R292, R459). -/
def Obligations.KnotsAreAddedAndWaitedFor : Prop :=
  ∀ (s : State) (g : CoreId),
    (∀ k w v : Nat, (waitHolds k w v = true ↔ (((k : Int) - (w + v)) % 2 ^ 32 < 2 ^ 31))) ∧
    (∀ k v : Nat, (s.core g).knotNow = [] →
      s.knotReady g k v = waitHolds (s.knot g k) (s.getReg (cursorReg g k)).toNat v) ∧
    (∀ x : Cmd, s.nextOp g 7 0xE0 = some x → exec (.knotAdd g) s = .next (s.setCmd g x.step 7 .accepted)) ∧
    (∀ x : Cmd, s.nextOp g 7 0xE1 = some x →
      let k := fld x.op 18 8
      let v := fld x.op 58 27
      let ready := s.knotReady g k v && !s.gatePending g k x.step
      (ready = true → exec (.knotWait g) s =
        .next ((s.setReg (cursorReg g k) (BitVec.ofNat 64 (((s.getReg (cursorReg g k)).toNat + v) % 2 ^ 32))).setCmd g x.step 7
          (.running s.now))) ∧
      (ready = false → exec (.knotWait g) s = .next s)) ∧
    (∀ x : Cmd, s.nextOp g 7 0xE4 = some x → exec (.mark g) s =
      .next ((s.logCore g 0x0001 (BitVec.ofNat 64 (fld x.op 39 8))).setCmd g x.step 7 (.running s.now))) ∧
    (∀ x : Cmd, s.nextSync g 0xE0 = some x →
      let t : CoreId := BitVec.ofNat 8 (fld x.op 26 19)
      let sig : KnotSig :=
        { knot := fld x.op 18 8, val := BitVec.ofNat 32 (fld x.op 58 27), pick := s.pickBits
          src := if t = g then .own else .mesh, tr := none, step := some (g, x.step), pro := false, remote := none
          due := if t = g then s.now else s.now + meshLat g t }
      (x.at' < s.now → s.fenceOpen g x.step t = true → exec (.knotAddSend g) s =
        .next ((((s.setCmd g x.step 7 .waiting).modCore g fun c => { c with syncAt := some s.now }).modCore t fun c =>
          { c with sigIn := c.sigIn ++ [sig] }).sigCounted true s.pickBits)) ∧
      ((s.now ≤ x.at' ∨ s.fenceOpen g x.step t = false) → exec (.knotAddSend g) s = .next s)) ∧
    (∀ x : KnotSig, firstSig ((s.core g).sigIn.filter fun y => y.due ≤ s.now) = some x →
      let s1 := s.modCore g fun c => { c with sigIn := c.sigIn.erase x }
      let c := s1.core g
      let free := c.appliedNow < 4 ∧ c.knotQueue.filter (fun y => !y.pro) = []
      let queued := fun (y : KnotSig) => s1.modCore g fun c => { c with knotQueue := c.knotQueue ++ [y] }
      let held := s1.modCore g fun c => { c with sigIn := c.sigIn ++ [{ x with due := s.now + 1 }] }
      let next := x.pro = true ∧ x.pick = BitVec.ofNat 8 (s.pickNum.toNat + 1)
      (∀ y ∈ (s.core g).sigIn, y.due ≤ s.now → sigRank x.src ≤ sigRank y.src) ∧
      (next → exec (.knotSignalArrive g) s = .next (if c.knotQueue.length < 16 then queued { x with pro := true } else held)) ∧
      (¬ next → (x.pick ≠ s.pickBits ∨ s.dropped = true) → exec (.knotSignalArrive g) s = .next (s1.ccount g 0x700 1)) ∧
      (¬ next → x.pick = s.pickBits → s.dropped = false →
        (free → exec (.knotSignalArrive g) s = .next (s1.applySig g x)) ∧
        (¬ free → exec (.knotSignalArrive g) s =
          .next (if c.knotQueue.length < 16 then queued { x with pro := false } else held)))) ∧
    ((∀ x ∈ (s.core g).sigIn, s.now < x.due) → exec (.knotSignalArrive g) s = .next s) ∧
    (∀ x : KnotSig, x.step = none → x.tr = none → x.remote = none →
      (s.applySig g x).getReg (knotReg g x.knot) =
        BitVec.ofNat 64 (((s.getReg (knotReg g x.knot)).toNat + x.val.toNat) % 2 ^ 32))

/-- The channel commands (§9.5, §9.6). -/
def Obligations.ChannelsCarryMessages : Prop :=
  ∀ (s : State) (g : CoreId),
    (∀ (x : Cmd) (j : Nat), s.nextOp g 7 0xE2 = some x → j ∈ s.credits g (fld x.op 13 8) →
      (∀ i ∈ s.credits g (fld x.op 13 8), j ≤ i) →
      exec (.chanSend g) s = .next (((s.setCredits g (fld x.op 13 8)
        ((s.creditList g (fld x.op 13 8)).filter fun e => e.1 ≠ j)).setCmd g x.step 7 .accepted).modCore g fun c =>
          { c with claimed := c.claimed ++ [{ step := x.step, slot := j }] })) ∧
    (∀ (x : Cmd) (y : Claimed), s.nextSync g 0xE2 = some x → s.syncTurn g = true →
      (s.core g).claimed.find? (fun y => y.step == x.step) = some y →
      let d := s.desc g (fld x.op 25 14)
      let r := s.route g (fld x.op 13 8)
      let msg : Msg :=
        { fromCore := g, fromChan := fld x.op 13 8, chan := fld r 51 46, slot := y.slot, bytes := [], pick := s.pickBits
          step := x.step }
      ∃ order : Nat, exec (.chanSendPerform g) s = .next (((s.setCmd g x.step 7 .waiting).modCore g fun c =>
        { c with syncAt := some s.now, claimed := c.claimed.erase y }).addRun g
          { owner := .send x.step, dest := .message (BitVec.ofNat 8 (fld r 59 52)) msg, order := order, chain := false
            start := s.now, into := d.stream
            steps := shReads d.gath d.stream s.now fun k places =>
              { kind := .pass, port := 12, due := s.now + 4 + k, dst := places } })) ∧
    (∀ (m : Msg) (t : Nat), (s.core g).msgIn.find? (fun e => e.2 ≤ s.now) = some (m, t) →
      let s1 := s.modCore g fun c => { c with msgIn := c.msgIn.erase (m, t) }
      let r := s.route g m.chan
      let e := (s.core g).recvEnd m.chan
      let listed := fld r 63 62 = 3 ∧ senderAt r (m.slot % (fld r 61 60 + 1)) = (m.fromCore, m.fromChan)
      (s.stale m.pick = true → exec (.messageArrive g) s = .next (s1.ccount g 0x700 1)) ∧
      (s.stale m.pick = false → ¬ listed → exec (.messageArrive g) s = .next s1) ∧
      (s.stale m.pick = false → listed → exec (.messageArrive g) s =
        .next ((s1.setRecv g m.chan { e with
          slots := e.slots ++ [{ slot := m.slot, bytes := m.bytes, from' := s.now + 1 }] }).modCore m.fromCore fun c =>
            { c with msgAckIn := c.msgAckIn ++ [{ step := m.step, pick := m.pick, due := s.now + meshLat g m.fromCore }] }))) ∧
    (∀ a : MsgAck, (s.core g).msgAckIn.find? (fun e => e.due ≤ s.now) = some a →
      let s1 := s.modCore g fun c => { c with msgAckIn := c.msgAckIn.erase a }
      exec (.messageAckArrive g) s =
        .next (if s.stale a.pick then s1 else s1.setCmd g a.step 7 (.running s.now))) ∧
    (∀ (x : Cmd) (f : Filled), s.nextOp g 7 0xE3 = some x →
      let ch := fld x.op 13 8
      let e := (s.core g).recvEnd ch
      let r := s.route g ch
      let peer := senderAt r ((e.head + 16) % (fld r 61 60 + 1))
      e.slots.find? (fun y => y.slot == e.head && decide (y.from' ≤ s.now)) = some f → exec (.chanRecv g) s =
        .next ((((s.setRecv g ch { head := e.head + 1, slots := e.slots.filter fun y => y.slot ≠ e.head }).setCmd g x.step 7
          .accepted).modCore g fun c => { c with popped := c.popped ++ [{ step := x.step, bytes := f.bytes }] }).modCore peer.1
            fun c => { c with creditIn := c.creditIn ++
              [{ chan := peer.2, slot := e.head + 16, pick := s.pickBits, due := s.now + 1 + meshLat g peer.1 }] })) ∧
    (∀ (x : Cmd) (y : Popped), s.nextSync g 0xE3 = some x → s.syncTurn g = true →
      (s.core g).popped.find? (fun y => y.step == x.step) = some y →
      let d := s.desc g (fld x.op 25 14)
      let s1 := if y.bytes.length = d.byteCount then s else s.ccount g 0x708 1
      ∃ order : Nat, exec (.chanRecvPerform g) s = .next (((s1.setCmd g x.step 7 .waiting).modCore g fun c =>
        { c with syncAt := some s.now, popped := c.popped.erase y }).addRun g
          { owner := .recv x.step, order := order, chain := false, start := s.now
            steps := shWrites d.gath (d.stream.zip y.bytes) s.now })) ∧
    (s.syncTurn g = false → exec (.chanSendPerform g) s = .next s ∧ exec (.chanRecvPerform g) s = .next s) ∧
    (∀ k : Credit, (s.core g).creditIn.find? (fun e => e.due ≤ s.now) = some k →
      let s1 := s.modCore g fun c => { c with creditIn := c.creditIn.erase k }
      (s.stale k.pick = true → exec (.creditArrive g) s = .next (s1.ccount g 0x700 1)) ∧
      (s.stale k.pick = false → exec (.creditArrive g) s =
        .next (s1.setCredits g k.chan (s.creditList g k.chan ++ [(k.slot, s.now + 1)])))) ∧
    (∀ ch : Nat, (s.core g).send.lookup ch = none → fld (s.route g ch) 63 62 = 2 → s.credits g ch =
      (List.range 16).filter fun j => j % (fld (s.route (BitVec.ofNat 8 (fld (s.route g ch) 59 52)) (fld (s.route g ch) 51 46))
        61 60 + 1) == fld (s.route g ch) 45 44)

/-- SH_COPY, SH_RELAY, SH_CANCEL, GATE_READY, TRANSFER_START, TRANSFER_TIMEOUT. -/
def Obligations.TransfersTakeStartAndEnd : Prop :=
  ∀ (s : State) (g : CoreId),
    (∀ e ∈ [(0xC0, Instr.shCopy g), (0xC1, Instr.shRelay g)], ∀ (x : Cmd) (n : Nat), s.nextOp g 6 e.1 = some x →
      (List.range 64).find? (fun n => ((s.core g).trk n).tr.isNone) = some n →
      exec e.2 s = .next ((s.takeEntry g x.op x.card x.step s.pickBits false true).setCmd g x.step 6 .waiting) ∧
      ((s.takeEntry g x.op x.card x.step s.pickBits false true).core g).trk n = ⟨((s.core g).trk n).gen, some
        { op := x.op, card := x.card, step := x.step, shu := Fin.ofNat 4 (fld x.op 10 9), pick := s.pickBits,
          phase := (if fld x.op 7 0 == 0xC0 && fld x.op 53 47 != 0 then .gated else .ready s.now),
          issueOrder := (s.core g).orderNext, confirmed := true }⟩) ∧
    (∀ x : Cmd, s.nextOp g 6 0xC2 = some x →
      let gone := (s.core g).cancelled (fld x.op 12 9) s.now
      (∀ (n : Nat) (t : Transfer), (n, t) ∈ gone ↔ (n, t) ∈ (s.core g).transfers ∧ fld x.op 12 9 / 2 ^ t.shu.val % 2 = 1 ∧
        (t.phase = .gated ∨ fld t.op 53 47 ≠ 0 ∧ t.phase = .ready (s.now + 1))) ∧
      exec (.shCancel g) s = .next (((gone.foldl (fun s y =>
        ((if y.2.phase = .gated then s.consume g (fld y.2.op 63 54) (fld y.2.op 53 47) else s).retireTransfer g y.1).modCore
          g fun c => c.setStart y.2.shu s.now) s).setCmd g x.step 6 (.running s.now)).ccount g 0x808 gone.length)) ∧
    (∀ (e : Entry) (t : Transfer), ((s.core g).trk e.val).tr = some t →
      let k := fld t.op 63 54
      let v := fld t.op 53 47
      (t.phase = .gated → s.knotReady g k v = true → (∀ y ∈ (s.core g).transfers, y.2.phase = .gated →
          fld y.2.op 63 54 = k → t.issueOrder ≤ y.2.issueOrder) →
        exec (.gateReady g e) s = .next ((s.consume g k v).modTr g e.val fun t => { t with phase := .ready (s.now + 1) })) ∧
      (t.phase = .gated → s.knotReady g k v = false → exec (.gateReady g e) s = .next s) ∧
      (∀ a : Nat, t.phase = .ready a → a ≤ s.now → t.pro = false →
        (∀ y ∈ (s.core g).transfers, y.2.shu = t.shu → y.2.issueOrder < t.issueOrder → ∃ b, y.2.phase = .started b) →
        (match (s.core g).shuStart.lookup t.shu.val with | some b => b < s.now | none => True) →
        exec (.transferStart g e) s = .next ((((s.modTr g e.val fun t => { t with phase := .started s.now }).modCore g fun c =>
          c.setStart t.shu s.now)).advance g e.val)) ∧
      (∀ a : Nat, t.phase = .ready a → s.now < a → exec (.transferStart g e) s = .next s) ∧
      (∀ part : Nat, let l := s.leg g t part
        let hs := l.src.core g
        let a0 := s.now + if hs = g then 0 else meshLat g hs
        l.src.remote = false → ∃ (t' : State) (r : Run), s.runLeg g e.val t part = t' ∧ (t'.core hs).runs = (s.core hs).runs ++ [r] ∧
          r.owner = .leg (s.ackTo g e.val t part) t.shu ∧ r.start = s.now ∧
          (r.steps.filter fun y => y.kind == .read) =
            ((shGroups l.src.gath l.from').zipIdx).map fun y =>
              let src := y.1.map fun i => l.from'.getD i 0
              ({ kind := .read, port := 12, due := a0 + 1 + y.2, grp := y.2, gath := l.src.gath, src := src
                 accs := (touchedLines src []).map fun e => { line := e.1, mask := e.2 } } : RunStep)) ∧
      (∀ f : Dword, t.firstOut = some f → s.awaits g t = true →
        1000 * fld (s.getReg (hdl 0x11C)) 15 0 ≤ (s.getReg (hdl 0) - f).toNat →
        exec (.transferTimeout g e) s = .next (s.abandon g e.val 1)) ∧
      (s.awaits g t = false → exec (.transferTimeout g e) s = .next s) ∧
      (t.firstOut = none → exec (.transferTimeout g e) s = .next s)) ∧
    (∀ (a : AckTo) (cause : Nat), s.live a = true → s.linkFailed a cause = s.abandon a.core a.entry cause)

/-- MESH_BEAT_SEND, MESH_BEAT_LAND, STAGED_WRITE_ARRIVE, WRITE_ACK_ARRIVE. -/
def Obligations.BeatsAndStagedWritesLand : Prop :=
  (∀ (c : Nat), c < 16 →
    [slotsOf 0 c .read, slotsOf 1 c .read, slotsOf 2 c .read, slotsOf 3 c .read] =
      [1 + (c + 1) % 2, 2 + (if c % 4 = 0 then 1 else 0), if c % 4 = 0 then 0 else 1, 1] ∧
    [slotsOf 0 c .write, slotsOf 1 c .write, slotsOf 2 c .write, slotsOf 3 c .write] =
      [1 + c % 2, if c % 4 = 0 then 0 else 1, 2 + (if c % 4 = 0 then 1 else 0), 1] ∧
    ∀ p < 4, slotsOf p c .service = c / 15 ∧ slotsOf p c .service + slotsOf p c .remote = (if p = 3 then 2 else 1)) ∧
  ∀ (s : State) (g : CoreId),
    (∀ cls, s.slotFree g cls = decide ((s.core g).slotsUsed.count cls < slotsOf (fld (s.creg g 0x10) 1 0) (s.clk % 16) cls)) ∧
    (∀ cls, s.slotFree g cls = false → exec (.meshBeatSend g cls) s = .next s) ∧
    (s.slotFree g .write = true → (∀ b ∈ (s.core g).meshOut, s.beatLive b.body = true) →
      ∀ b : Beat, leastBy (·.order) ((s.core g).meshOut.filter fun b => b.due ≤ s.now) = some b →
        ∃ t : State, exec (.meshBeatSend g .write) s = .next t ∧
          (b.dst ≠ g → (t.core b.dst).beatsIn = (s.core b.dst).beatsIn ++ [{ b with due := s.now + meshLat g b.dst }] ∧
            (t.core g).meshOut = (s.core g).meshOut.erase b ∧ (t.core g).slotsUsed = .write :: (s.core g).slotsUsed)) ∧
    (s.slotFree g .remote = true → (∀ b ∈ (s.core g).remoteOut, s.remoteLive b.body = true) →
      ∀ b : RemoteBeat, leastBy (·.order) ((s.core g).remoteOut.filter fun b => b.due ≤ s.now) = some b →
        let s1 := s.modCore g fun c =>
          { c with remoteOut := c.remoteOut.erase b, slotsUsed := .remote :: c.slotsUsed }
        (∀ (pkg : BitVec 10) (l : List (Nat × Byte)) (a : AckTo), b.body = .write pkg l a →
          exec (.meshBeatSend g .remote) s = .next
            (((groupLines l).foldl (fun s x =>
              s.request g (s.requestHeader 1 1 (lineData x.2).1 pkg.toNat a (64 * x.1)) (lineData x.2).2 a) s1).modTr a.core
                a.entry fun t => { t.owe a.part (groupLines l).length with
                  toSend := t.toSend - 1
                  firstOut := if t.firstOut.isSome then t.firstOut else some (s.getReg (hdl 0)) })) ∧
        (∀ (n : Sd) (h d : List Byte), b.body = .answer n h (some d) →
          exec (.meshBeatSend g .remote) s = .next (s1.cross n g (.answer h d))) ∧
        (∀ (n : Sd) (h : List Byte), b.body = .answer n h none → exec (.meshBeatSend g .remote) s = .next s1)) ∧
    (∀ cls : SlotClass,
      let s0 := s.dropDead g cls
      let q := (s0.core g).landQ (classNum cls)
      let arrival := (s0.core g).beatsIn.find? fun b => b.cls == cls && decide (b.due ≤ s.now)
      let wait := fun (b : Beat) => s0.modCore g fun c =>
        { c.setLandQ (classNum cls) (q ++ [{ b with due := s.now + 1 }]) with beatsIn := c.beatsIn.erase b }
      (∀ b ∈ (s0.core g).beatsIn, b.cls = cls → b.due ≤ s.now → s.beatLive b.body = true) ∧
      (∀ (x : Beat) (t : List Beat), s0.slotFree g cls = true → q = x :: t → x.due ≤ s.now → exec (.meshBeatLand g cls) s =
        .next (((s0.modCore g fun c => { c with slotsUsed := cls :: c.slotsUsed }).modCore g fun c =>
          c.setLandQ (classNum cls) t).landBeat g x)) ∧
      (∀ b, s0.slotFree g cls = true → q = [] → arrival = some b → exec (.meshBeatLand g cls) s =
        .next (((s0.modCore g fun c => { c with slotsUsed := cls :: c.slotsUsed }).modCore g fun c =>
          { c with beatsIn := c.beatsIn.erase b }).landBeat g b)) ∧
      (∀ b, s0.slotFree g cls = false → arrival = some b → exec (.meshBeatLand g cls) s =
        .next (if q.length < 8 then wait b else s0)) ∧
      (q = [] → arrival = none → exec (.meshBeatLand g cls) s = .next s0)) ∧
    (∀ b : Beat,
      (∀ (staged : Bool) (l : List (Nat × Byte)) (a : AckTo) (shu : Fin 4), b.body = .writes staged l a shu →
        ((s.core g).captured = true → s.landBeat g b = s.setCreg g 0x138
          (putFld (s.creg g 0x138) 31 16 (min (fld (s.creg g 0x138) 31 16 + 1) 0xFFFF))) ∧
        ((s.core g).captured = false → staged = true → s.landBeat g b =
          s.modCore g fun c => { c with stagedIn := c.stagedIn ++ (fellLines l (.shuttle a.core shu)).map fun x =>
            { fell := x, ack := some a, due := s.now + 1 } }) ∧
        ((s.core g).captured = false → staged = false → ∃ r : Run, s.landBeat g b = s.addRun g r ∧ r.owner = .beat a ∧
          ∃ y, r.steps = [y] ∧ y.port = 13 ∧ y.due = s.now + 1 ∧
            y.accs = (groupLines l).map fun e => { line := e.1, mask := maskOf e.2, data := some (dataOf e.2) })) ∧
      (∀ m : Msg, b.body = .message (some m) → s.landBeat g b = s.modCore g fun c =>
        { c with msgIn := c.msgIn ++ [(m, s.now)] }) ∧ (b.body = .message none → s.landBeat g b = s)) ∧
    (∀ x : StagedWrite, (s.core g).stagedIn.find? (fun x => x.due ≤ s.now) = some x →
      let s1 := s.modCore g fun c => { c with stagedIn := c.stagedIn.erase x }
      (x.ack = none → (s.core g).captured = false → exec (.stagedWriteArrive g) s = .next (s1.stageLine g x.fell)) ∧
      (∀ a : AckTo, x.ack = some a → s.live a = false → exec (.stagedWriteArrive g) s = .next s1) ∧
      (∀ a : AckTo, x.ack = some a → s.live a = true → (s.core g).captured = false → exec (.stagedWriteArrive g) s =
        .next ((s1.stageLine g x.fell).modCore a.core fun c =>
          { c with acksIn := c.acksIn ++ [{ ack := a, due := s.now + meshLat g a.core, own := g == a.core }] }))) ∧
    (∀ x : AckMsg, (s.core g).acksIn.find? (fun x => x.due ≤ s.now) = some x →
      let s1 := s.modCore g fun c => { c with acksIn := c.acksIn.erase x }
      (s.live x.ack = true → exec (.writeAckArrive g) s = .next
        ((s1.modTr x.ack.core x.ack.entry fun t => t.paid x.ack.part).advance x.ack.core x.ack.entry)) ∧
      (s.live x.ack = false → exec (.writeAckArrive g) s = .next (if x.own then s1 else s1.ccount g 0x804 1)))

/-- The life of a VXF port (§12.2, §12.3, §12.5). -/
def Obligations.PortsTrainMeasureAndGoDown : Prop :=
  ∀ (s : State) (p : PortId),
    let st := s.portState p
    let now := s.getReg (hdl 0x00)
    (∀ n < 16, (s.portField p 3 0 n).portState p = n ∧ ∀ b ≠ portReg p 4, (s.portField p 3 0 n).getReg b = s.getReg b) ∧
    ((s.toDetect p).portState p = 1 ∧ (s.toDetect p).port p = { nextRound := now }) ∧
    (∀ cause to', to' < 16 → (s.portDown p cause to').portState p = to') ∧
    (∀ val : Word, s.portOn p = true →
      let s1 := s.setReg (portReg p 0) (BitVec.ofNat 64 val.toNat &&& 0x73)
      (bit val 0 = true → bit val 2 = false → st = 0 → exec (.portEnable p val) s = .next (s1.toDetect p)) ∧
      (bit val 0 = false → bit val 2 = false → st ≠ 5 → exec (.portDisable p val) s =
        .next (((s1.portField p 3 0 0).setPort p {}).portField p 8 4 0)) ∧
      (bit val 0 = false → bit val 2 = false → st = 5 → exec (.portDisable p val) s =
        .next ((s1.portDown p 5 0).portField p 8 4 0)) ∧
      (bit val 0 = true → bit val 2 = true → st ≠ 5 → exec (.portReset p val) s =
        .next (((s1.portField p 8 4 0).portField p 11 9 0).toDetect p)) ∧
      (st ≠ 5 → 16 ≤ fld val 9 0 → fld val 9 0 ≤ 496 → 16 ≤ fld val 25 16 → fld val 25 16 ≤ 496 →
        fld val 9 0 + fld val 25 16 ≤ 512 → exec (.portCredWrite p val) s =
          .next (s.setReg (portReg p 0x10) (BitVec.ofNat 64 (fld val 9 0 + 2 ^ 16 * fld val 25 16)))) ∧
      (fld val 9 0 < 16 ∨ 496 < fld val 9 0 ∨ fld val 25 16 < 16 ∨ 496 < fld val 25 16 ∨ 512 < fld val 9 0 + fld val 25 16 →
        exec (.portCredWrite p val) s = .next s)) ∧
    (st = 1 → (s.port p).roundOpen = none → s.reached (s.port p).nextRound = true → exec (.detectRound p) s =
      .next (s.setPort p { s.port p with roundOpen := some now, nextRound := BitVec.ofNat 64 (s.weft + 100000000) })) ∧
    (∀ t, st = 1 → (s.port p).roundOpen = some t → 1000000 ≤ s.since t → exec (.detectRoundEnd p) s =
      .next ((s.setPort p { s.port p with roundOpen := none }).portField p 16 16 0)) ∧
    (∀ t, st = 1 → (s.port p).roundOpen = some t → exec (.signalDetect p) s =
      .next ((((s.portField p 16 16 1).portField p 8 4 (fld (s.getReg (portReg p 4)) 8 4 + 1)).portField p 3 0 2).modPort p
        fun x => { x with roundOpen := none, attemptAt := now, stageAt := now })) ∧
    (st = 2 → exec (.trainDone p) s = .next ((s.portField p 3 0 3).modPort p fun x => { x with stageAt := now })) ∧
    (st = 3 → exec (.alignDone p) s = .next ((s.portField p 3 0 4).modPort p fun x =>
      { x with stageAt := now, ctrlOut := List.replicate 64 [6] })) ∧
    (∀ (meas : BitVec 16) (least : BitVec 3), st = 4 → 64 ≤ (s.port p).probes →
      let own := (s.port p).meas % 2 ^ 16
      let far := max own meas.toNat
      let low := max (fld (s.getReg (portReg p 0)) 6 4) least.toNat
      (12800 < far → exec (.measureDone p meas least) s =
        .next ((s.setReg (portReg p 8) (BitVec.ofNat 64 own)).portFault p 2)) ∧
      (∀ c < 5, far ≤ 12800 → far ≤ 16 * classNs c → low ≤ c → (∀ d < c, 16 * classNs d < far ∨ d < low) →
        let lat : Dword := BitVec.ofNat 64 (own + 2 ^ 16 * (16 * classNs c - own) + 2 ^ 32 * c)
        let cred := s.getReg (portReg p 0x10)
        exec (.measureDone p meas least) s = .next (((((s.setReg (portReg p 8) lat).portField p 3 0 5).portField p 8 4
          0).modPort p fun x =>
            { x with
              cred0 := fld cred 9 0, alloc0 := fld cred 9 0, sent0 := 0, ret0 := 0
              cred1 := fld cred 25 16, alloc1 := fld cred 25 16, sent1 := 0, ret1 := 0
              badRun := 0, lastTimeSent := now }).logSd (sdOf p) 0x4001 p.val lat))) ∧
    (500000000 ≤ s.since (s.port p).attemptAt ∧ (st = 2 ∨ st = 3 ∨ st = 4) ∨
        st = 2 ∧ 300000000 < s.since (s.port p).stageAt ∨ st = 3 ∧ 10000000 < s.since (s.port p).stageAt ∨
        st = 4 ∧ 1000000 < s.since (s.port p).stageAt →
      (fld (s.getReg (portReg p 4)) 8 4 < 16 → exec (.attemptTimeout p) s = .next (s.toDetect p)) ∧
      (16 ≤ fld (s.getReg (portReg p 4)) 8 4 → exec (.attemptTimeout p) s = .next ((s.portFault p 1).markDown p))) ∧
    (st = 5 → exec (.lockLost p) s = .next (s.portDown p 2 1) ∧
      exec (.signalLost p) s = .next ((s.portField p 16 16 0).portDown p 3 1)) ∧
    (st ≠ 5 → exec (.signalLost p) s = .next (s.portField p 16 16 0)) ∧
    (∀ vc : Fin 2, let l := if vc = 0 then (s.port p).rx0 else (s.port p).rx1
      st = 5 → 16 ≤ l.length → (parseHeader l).malformed vc = true → exec (.malformedPacket p vc) s = .next (s.portDown p 6 1))

/-- Flits and records of a port (§12.4); a DATA body is filled with zero bytes (log entry 30); a control record that finds the
control buffer full asks for a replay (log entry 51). -/
def Obligations.FlitsAreSentAndReceived : Prop :=
  (∀ (type vc seq ack : Nat) (nak : Bool) (crvc n : Nat) (body : List Byte),
    let l := flitBytes type vc seq ack nak crvc n body
    l.length = 256 ∧ leAt l 252 4 = (crc32c (l.take 252)).toNat) ∧
  ∀ (s : State) (p : PortId),
    let st := s.portState p
    let x := s.port p
    ((st = 4 ∨ st = 5) →
      (∀ f t, x.resend = f :: t → exec (.flitSend p) s = .next (s.putFlit p { x with
          resend := t
          replay := x.replay.map fun y => if y.seq = f.seq then { y with at' := s.getReg (hdl 0) } else y }
        (leAt f.bytes 0 1 % 16) (leAt f.bytes 0 1 / 16) f.seq (f.bytes.drop 1))) ∧
      (x.resend = [] → Config.replayCap ≤ x.replay.length → exec (.flitSend p) s = .next (s.putFlit p x 0 0 0 [])) ∧
      (x.resend = [] → x.replay.length < Config.replayCap →
        (∀ b t, x.ctrlOut = b :: t → exec (.flitSend p) s = .next (s.newFlit p { x with ctrlOut := t } 2 0 (s.recordOut b))) ∧
        (x.ctrlOut = [] → x.nextVc = some 0 → exec (.flitSend p) s = .next (s.newFlit p
          { x with tx0 := x.tx0.drop 246, cred0 := x.cred0 - 1, sent0 := x.sent0 + 1, lastVc := 0 } 1 0 (x.tx0.take 246))) ∧
        (x.ctrlOut = [] → x.nextVc = some 1 → exec (.flitSend p) s = .next (s.newFlit p
          { x with tx1 := x.tx1.drop 246, cred1 := x.cred1 - 1, sent1 := x.sent1 + 1, lastVc := 1 } 1 1 (x.tx1.take 246))) ∧
        (x.ctrlOut = [] → x.nextVc = none → exec (.flitSend p) s = .next (s.putFlit p x 0 0 0 [])))) ∧
    (x.tx0 ≠ [] → x.cred0 ≠ 0 → x.tx1 ≠ [] → x.cred1 ≠ 0 → x.nextVc = some (x.lastVc + 1)) ∧
    (∀ flit : List Byte, (st = 4 ∨ st = 5) → flit.length = 256 →
      let w := leAt flit 0 6
      let f := fun hi lo => w / 2 ^ lo % 2 ^ (hi + 1 - lo)
      let good := leAt flit 252 4 = (crc32c (flit.take 252)).toNat
      let x1 := ({ x with badRun := 0 } : Port).ack (f 29 18)
      let x2 : Port :=
        if f 32 31 = 0 then { x1 with cred0 := x1.cred0 + f 38 33, sent0 := x1.sent0 - f 38 33 }
        else if f 32 31 = 1 then { x1 with cred1 := x1.cred1 + f 38 33, sent1 := x1.sent1 - f 38 33 } else x1
      let back := (x.rxSeq + 4096 - f 17 6) % 4096
      (¬ good → exec (.flitReceive p flit) s = .next (s.badFlit p x true)) ∧
      (good → 2 < f 3 0 → exec (.flitReceive p flit) s = .next (s.badFlit p x false)) ∧
      (good → f 3 0 = 1 → 1 < f 5 4 → exec (.flitReceive p flit) s = .next (s.setPort p { x with badRun := 0 })) ∧
      (good →
        let ends := fun (t : State) => if f 30 30 = 1 then t.replayStart p else t
        let asks := s.setPort p { x2 with nakOwed := x2.nakOwed || !x2.nakSent }
        let full := f 3 0 = 2 ∧ Config.controlCap ≤ x2.ctrlIn.length
        (f 3 0 = 0 → exec (.flitReceive p flit) s = .next (ends (s.setPort p x2))) ∧
        ((f 3 0 = 1 ∧ f 5 4 ≤ 1 ∨ f 3 0 = 2) →
          (back = 0 → ¬ full → exec (.flitReceive p flit) s =
            .next (ends (s.acceptFlit p x2 (f 3 0) (f 5 4) (slice flit 6 246)))) ∧
          (back = 0 → full → exec (.flitReceive p flit) s = .next (ends asks)) ∧
          (1 ≤ back → back ≤ 512 → exec (.flitReceive p flit) s =
            .next (ends ((s.setPort p x2).count (portReg p 0x20) 1))) ∧
          (512 < back → exec (.flitReceive p flit) s = .next (ends asks))))) ∧
    (∀ f t, x.replay = f :: t → st = 5 → 2000 ≤ s.since f.at' → x.replayAt ≠ some s.now →
      (8 ≤ x.replayCount → exec (.replayTimeout p) s = .next (s.portDown p 1 1)) ∧
      (x.replayCount < 8 →
        let l := x.replay.map fun f => { f with at' := s.getReg (hdl 0x00) }
        exec (.replayTimeout p) s = .next ((s.setPort p { x with replayCount := x.replayCount + 1, replay := l, resend := l
                                                                 replayAt := some s.now }).count
          (portReg p 0x18) 1))) ∧
    (∀ (b : List Byte) (t : List (List Byte)), x.ctrlIn = b :: t → st = 4 →
      (leAt b 0 1 = 6 → exec (.probeRecord p) s = .next (s.setPort p { x with ctrlIn := t, ctrlOut := x.ctrlOut ++ [[7]] })) ∧
      (∀ rtt : BitVec 16, leAt b 0 1 = 7 → exec (.echoRecord p rtt) s =
        .next (s.setPort p { x with ctrlIn := t, probes := x.probes + 1
                                    bestRtt := some (min rtt.toNat (x.bestRtt.getD rtt.toNat)) })))

/-- WRITE_PACKET, READ_REQ, SIGNAL_PACKET (R397); a parity error of a READ_REQ is only counted (log entry 31), and the packet's
accesses come behind the transfers of its clk (log entry 52). -/
def Obligations.RequestsAreServedOrRefused : Prop :=
  ∀ (s : State) (p : PortId) (h : Header) (data : List Byte) (s1 : State),
    let n := sdOf p
    let here := h.dpkg = s.pkg
    let fresh := h.tpick = s.pickBits.toNat
    let badLine := h.lines.any s.refusedLine
    (∀ e ∈ [(1, Instr.writePacket p, data), (2, Instr.readReq p, []), (3, Instr.signalPacket p, [])],
      s.takePacket p 0 e.1 = some (h, data, s1) →
        (¬ here → exec e.2.1 s = .next (s1.sendPacket n 0 h e.2.2)) ∧
        (here → ¬ fresh → exec e.2.1 s = .next (s1.count (slv n 0x800) 1)) ∧
        (here → fresh → e.1 ≠ 3 → badLine = true → exec e.2.1 s = .next (s1.answerPacket n h 0x14 0 []))) ∧
    (s.takePacket p 0 1 = some (h, data, s1) → here → fresh → badLine = false →
      (∀ a l, s.carryLines h = a :: l → exec (.writePacket p) s = .next ((s1.remoteCarry a).answerPacket n h 0x14 0 [])) ∧
      (s.carryLines h = [] → ∃ (t : State) (bs : List Beat), exec (.writePacket p) s = .next t ∧
        (t.core h.target).beatsIn = (s1.core h.target).beatsIn ++ bs ∧ bs.length = h.nl ∧
        (t.sd n).writing = (s1.sd n).writing ++ [(h.bytes, h.nl)] ∧
        ∀ i, (hi : i < bs.length) → bs[i].due = s.now + sdLat n h.target ∧ bs[i].dst = h.target ∧ bs[i].cls = .remote ∧
          bs[i].body = .packet n h.bytes ((h.lineOf data i).map fun e =>
            ((h.addr / 64 * 64 + 64 * i) % 0x800000 + e.1, e.2)))) ∧
    (s.takePacket p 0 2 = some (h, data, s1) → here → fresh → badLine = false → ∃ (t : State) (r : Run),
      exec (.readReq p) s = .next t ∧ (t.core h.target).runs = (s1.core h.target).runs ++ [r] ∧ t.port p = s1.port p ∧
      r.owner = .packet n (h.reply 0x11 h.nl).bytes ∧ r.dest = .answer ∧ r.into.length = 64 * h.nl ∧
      ∀ y ∈ r.steps, y.kind = .read → y.port = 12 ∧ s.now + sdLat n h.target < y.due) ∧
    (s.takePacket p 0 3 = some (h, data, s1) → here → fresh →
      let g : CoreId := BitVec.ofNat 8 (h.addr % 256)
      (s.works g = false → exec (.signalPacket p) s = .next (s1.answerPacket n h 0x14 0 [])) ∧
      (s.works g = true → exec (.signalPacket p) s =
        .next (s1.modCore g fun c => { c with sigIn := c.sigIn ++
          [{ knot := h.addr / 256 % 1024, val := 1, pick := s.pickBits, src := .mesh, tr := none, step := none, pro := false
             remote := some (n, (h.reply 0x13 0).bytes), due := s.now + sdLat n g }] }))) ∧
    (∀ (header : List Byte) (k : Nat), (s.sd n).writing.find? (fun x => x.1 == header) = some (header, k) →
      (1 < k → s.lineWritten n header = s.setSd n { s.sd n with
        writing := (s.sd n).writing.replace (header, k) (header, k - 1) }) ∧
      (k ≤ 1 → s.lineWritten n header = (s.setSd n { s.sd n with
        writing := (s.sd n).writing.erase (header, k) }).answerPacket n (parseHeader header) 0x12 0 [])) ∧
    (∀ (type nl : Nat) (l : List Byte) (q : PortId), s.routePort n (h.reply type nl).dpkg = some q →
      s.answerPacket n h type nl l = s.sendBytes q 1 ((h.reply type nl).bytes ++ l)) ∧
    (∀ (type nl : Nat) (l : List Byte), s.routePort n (h.reply type nl).dpkg = none →
      s.answerPacket n h type nl l = s.noRoute n h.tpkg)

/-- READ_DATA, WRITE_ACK, SIGNAL_ACK, REFUSED (R398, R333), ROUTE_DOWN_CLEAR (R403). -/
def Obligations.ResponsesReachTheirTransfers : Prop :=
  (∀ (s : State) (p : PortId) (h : Header) (data : List Byte) (s1 : State),
    let n := sdOf p
    let a := h.owner
    let s2 := (s1.answered n a).1
    let b := (s1.answered n a).2
    (a.core = b.core ∧ a.entry = b.entry ∧ a.gen = b.gen ∧ a.pick = b.pick) ∧
    (∀ e ∈ ([(0x11, Instr.readData p), (0x12, Instr.writeAck p), (0x13, Instr.signalAck p), (0x14, Instr.refused p)] :
        List (Nat × Instr)), s.takePacket p 1 e.1 = some (h, data, s1) → h.dpkg ≠ s.pkg →
      exec e.2 s = .next (s1.sendPacket n 1 h data)) ∧
    (h.dpkg = s.pkg →
      (s.takePacket p 1 0x11 = some (h, data, s1) →
        (s2.live b = true → exec (.readData p) s = .next ((List.range (data.length / 64)).foldl
          (fun s i => s.readLine n b (slice data (64 * i) 64)) s2)) ∧
        (s2.live b = false → s2.works b.core = true → exec (.readData p) s = .next (s2.ccount b.core 0x804 1))) ∧
      (s.takePacket p 1 0x12 = some (h, data, s1) → s2.works b.core = true → exec (.writeAck p) s = .next
        (s2.modCore b.core fun c => { c with acksIn := c.acksIn ++ [{ ack := b, due := s2.now + sdLat n b.core }] })) ∧
      (s.takePacket p 1 0x13 = some (h, data, s1) → exec (.signalAck p) s = .next (s2.setSd n { s2.sd n with
        crossing := (s2.sd n).crossing ++ [(s2.now + sdLat n b.core, .signalAck b)] })) ∧
      (s.takePacket p 1 0x14 = some (h, data, s1) → exec (.refused p) s = .next (s2.setSd n { s2.sd n with
        crossing := (s2.sd n).crossing ++ [(s2.now + sdLat n b.core, .refused b)] })))) ∧
  (∀ (s : State) (n : Sd) (b : AckTo),
    (s.live b = true → s.arrived n (.signalAck b) = s.retireTransfer b.core b.entry ∧
      s.arrived n (.refused b) = s.abandon b.core b.entry 2) ∧
    (s.live b = false → s.works b.core = true → s.arrived n (.signalAck b) = s.ccount b.core 0x804 1 ∧
      ((s.core b.core).timedOut = [] → s.arrived n (.refused b) = s.ccount b.core 0x804 1))) ∧
  (∀ (s : State) (n : Sd) (pkg : BitVec 10),
    let v := s.routeTo n pkg.toNat
    (s.answers (.slv n) = true → s.anyRuns = false → fld v 6 4 < 6 → s.portState (portOf n (fld v 6 4)) = 5 →
      exec (.routeDownClear n pkg) s = .next (s.setReg (slv n (0x10000 + 8 * pkg.toNat)) (putBit v 3 false))) ∧
    (s.anyRuns = true → exec (.routeDownClear n pkg) s = .next s))

/-- TIME records (R407–R409) and the barrier (R416–R418, R511); the fire asks for no time lock (log entry 32); OFS shows the low
16 bits of the offset (log entry 51). -/
def Obligations.TimeRecordsAndBarrier : Prop :=
  ∀ (s : State),
    (∀ p : PortId, s.portState p = 5 → 65536 ≤ s.since (s.port p).lastTimeSent → exec (.timeRecordSend p) s =
      .next (s.setPort p { s.port p with
        lastTimeSent := s.getReg (hdl 0x00)
        ctrlOut := (s.port p).ctrlOut ++ [leBytes 1 1 ++ leBytes 8 s.weft] })) ∧
    (∀ (p : PortId) (b : List Byte) (t : List (List Byte)), (s.port p).ctrlIn = b :: t → leAt b 0 1 = 1 →
      let s1 := s.setPort p { s.port p with ctrlIn := t }
      let off : Int := signed 64 ((leAt b 1 8 + s.portNs p + 2 ^ 64 - s.weft) % 2 ^ 64)
      let good := if off.natAbs ≤ 1 then s.heddle.goodRun + 1 else 0
      let bad := if 4 < off.natAbs then s.heddle.badRun + 1 else 0
      let lock := if 16 ≤ good then 1 else if 3 ≤ bad then 0 else flagBit (bit (s.getReg (hdl 0x114)) 0) 0
      (s.timeRoot = false → p = s.timeUp → exec (.timeRecord p) s = .next ((s1.modHeddle fun h =>
        { h with
          goodRun := min good 16, badRun := min bad 3, lastTime := s.getReg (hdl 0x00)
          timeOwed := off }).setTime
            (BitVec.ofNat 64 (lock + 2 ^ 16 * unsigned 16 off)))) ∧
      (s.timeRoot = true ∨ p ≠ s.timeUp → exec (.timeRecord p) s = .next s1)) ∧
    (s.timeRoot = false → 200000 ≤ s.since s.heddle.lastTime → exec .timeHoldover s =
      .next (s.setTime (putBit (s.getReg (hdl 0x114)) 1 true))) ∧
    (∀ v : Dword, (s.setTime v).getReg (hdl 0x114) = v) ∧
    (∀ val : Word, s.answers .hdl = true → s.active = false →
      let s1 := s.setReg (hdl 0x120) (BitVec.ofNat 64 val.toNat &&& 0xFFFF0001)
      (bit val 0 = true → exec (.barrierCfgWrite val) s = .next (s1.setReg (hdl 0x128) 0)) ∧
      (bit val 0 = false → exec (.barrierCfgWrite val) s = .next s1)) ∧
    (∀ val : Word, s.active = true → exec (.barrierCfgWrite val) s = .next s) ∧
    (∀ val : Word, s.answers .hdl = true → s.safe = false → bit (s.getReg (hdl 0x108)) 0 = true → s.armed = true →
      let tree := fld (s.getReg (hdl 0x120)) 31 16
      let t := s.weft + ceilDiv tree 16 + fld val 15 0 * 1000
      exec (.barrierGo val) s = .next ((s.toChildren (barrierRec t tree)).modHeddle fun h =>
        { h with barrier := some ⟨BitVec.ofNat 64 t, BitVec.ofNat 64 (s.weft + ceilDiv tree 16), false⟩ })) ∧
    (∀ (p : PortId) (b : List Byte) (l : List (List Byte)), (s.port p).ctrlIn = b :: l → leAt b 0 1 = 5 →
      let t := leAt b 1 8
      let rest := signed 32 (leAt b 9 4) - 16 * ((s.portNs p : Int) + 10)
      let s2 := (s.setPort p { s.port p with ctrlIn := l }).toChildren (barrierRec t rest)
      (s.armed = false → exec (.barrierRecord p) s = .next s2) ∧
      (s.armed = true → rest < 0 → exec (.barrierRecord p) s =
        .next (s2.fire ⟨BitVec.ofNat 64 t, s.getReg (hdl 0x00), true⟩)) ∧
      (s.armed = true → 0 ≤ rest → exec (.barrierRecord p) s = .next (s2.modHeddle fun h =>
        { h with barrier := some ⟨BitVec.ofNat 64 t, BitVec.ofNat 64 (s.weft + ceilDiv rest.toNat 16), false⟩ }))) ∧
    (∀ b : Barrier, s.heddle.barrier = some b →
      (s.reached b.fireAt = true → exec .barrierFire s = .next (s.fire b)) ∧
      (s.reached b.fireAt = false → exec .barrierFire s = .next s)) ∧
    (∀ b : Barrier, s.armed = true → b.t.toNat ≤ s.weft → bit ((s.fire b).getReg (hdl 0x120)) 0 = false ∧
      (s.fire b).getReg (hdl 0x128) = s.getReg (hdl 0x128) ||| 2 ||| (if b.early then 4 else 0))

/-- OVERSEER_COMPARE, RESYNC_END, COMPARATOR_SELFTEST, OVS_HALT (R445–R454). -/
def Obligations.OverseerComparesHaltsAndResyncs : Prop :=
  ∀ (s : State) (oa ob : BitVec 256),
    let o := s.overseer
    let out := o.delay.headD 0
    let s1 : State := { s with overseer := { o with delay := o.delay.drop 1 ++ [oa] } }
    let live := o.resync = false ∨ o.resyncEnded = true
    (live → out = ob → o.testAt ≠ some (s.getReg (hdl 0x00)) → exec (.overseerCompare oa ob none) s =
      .next { s1 with overseer := { s1.overseer with again := [] }, out := s.out ++ (o.again ++ [ob]).map Output.overseer }) ∧
    (live → out = ob → o.testAt = some (s.getReg (hdl 0x00)) → exec (.overseerCompare oa ob none) s =
      .next { s1 with overseer := { s1.overseer with again := o.again ++ [ob] } }) ∧
    (live → out ≠ ob → exec (.overseerCompare oa ob none) s = .next (s1.ovsFault 1 (lowBit (out ^^^ ob)))) ∧
    (∀ r : Byte, live → exec (.overseerCompare oa ob (some r)) s = .next (s1.ovsFault 2 r.toNat)) ∧
    (∀ bad, o.resync = true → o.resyncEnded = false → exec (.overseerCompare oa ob bad) s = .next s1) ∧
    (∀ kind b, s.safe = true → s.ovsFault kind b = s.ovsRecord kind b) ∧
    (∀ kind b, s.safe = false → (s.heddle.phase ≠ .window ∨ s.heddle.vote ≠ .none) →
      let picks := true :: o.faultPicks.drop 1
      let n := picks.countP fun x => x
      let s3 := (({ s.ovsRecord kind b with overseer := ⟨o.delay, true, false, true, picks, o.testAt, []⟩ }.modReg (hdl 0x1000) fun v =>
        putFld v 12 8 n).modReg (hdl 0x1000) fun v => putFld v 1 0 1)
      s.ovsFault kind b = if 3 ≤ n then s3.enterSafe true else s3) ∧
    (∀ again, s.safe = false → s.heddle.phase = .issuing ∨ s.heddle.phase = .window →
      (s.enterSafe again).getReg (hdl 0x20) = 0 ∧ (s.enterSafe again).safe = true) ∧
    (o.resync = true → o.resyncEnded = false → (s.curPick.isSome && s.heddle.vote == .ready && !s.heddle.decided) = false →
      let s4 : State := { s with overseer := { o with resyncEnded := true } }
      exec (.resyncEnd false) s = .next s4 ∧ exec (.resyncEnd true) s = .next (s4.enterSafe true)) ∧
    (∀ reported : BitVec 256, s.weftRuns = true → s.weft % 1000000 = 0 →
      let k := (s.getReg (hdl 0x1018)).toNat % 256
      let s5 := s.countWrap (hdl 0x1018) 1
      (reported.getLsbD k = false → exec (.comparatorSelftest reported) s = .next ((s5.ovsRecord 3 k).enterSafe false)) ∧
      (reported = BitVec.ofNat 256 (2 ^ k) → exec (.comparatorSelftest reported) s =
        .next { s5 with overseer := { s5.overseer with testAt := some (s.getReg (hdl 0x00)) } })) ∧
    (∀ val : Word, let g : CoreId := BitVec.ofNat 8 (fld val 7 0)
      (s.answers .hdl = true → bit val 31 = true → s.works g = true → s.runs g = true →
        exec (.ovsHalt val) s = .next (s.halt g 0x80 0 0 0)) ∧
      (s.runs g = false → exec (.ovsHalt val) s = .next s))

/-- LOG_QUEUE_ENTER, LOG_ENTRY_WRITE, ERROR_STATUS_SET (R456–R458). -/
def Obligations.EventsReachTheLogsAndTheHost : Prop :=
  ∀ (s : State) (d : LogDie),
    let l := s.log d
    (let fit := 32 - l.queue.length
     exec (.logQueueEnter d) s = .next ((s.setLog d ⟨[], l.queue ++ (eventOrder l.now).take fit, l.lastWrite⟩).count
       (logReg d 0xC) (l.now.length - fit))) ∧
    (∀ (e : Event) (t : List Event), l.queue = e :: t → (∀ w, l.lastWrite = some w → 16 ≤ s.since w) →
      e.weft.toNat ≠ s.weft →
      let seq := (s.getReg (logReg d 0)).toNat
      let full := 1024 ≤ sub32 seq (s.getReg (logReg d 4)).toNat
      let s2 := ((s.setBytes ((logBlock d).base + 0x80000 + seq % 1024 * 32) (e.bytes seq)).count (logReg d 8)
        (if full then 1 else 0)).countWrap (logReg d 0) 1
      exec (.logEntryWrite d) s = .next { s2.setLog d ⟨l.now, t, some (s.getReg (hdl 0x00))⟩ with
        statusDue := s2.statusDue ++ [e.code] }) ∧
    (∀ (e : Event) (n : Nat), (e.bytes n).length = 32) ∧
    (∀ (code : BitVec 16) (t : List (BitVec 16)), s.statusDue = code :: t →
      let cls := fld code 15 12
      let s1 := ({ s with statusDue := t } : State).setReg (hdl 0x1020)
        (if bit code 11 then putBit (putBit (s.getReg (hdl 0x1020)) cls true) 15 true
         else putBit (s.getReg (hdl 0x1020)) cls true)
      (bit code 11 = true ∨ s.errPending = 0 ∧ s1.errPending ≠ 0 → exec .errorStatusSet s = .next s1.errorInterrupt) ∧
      (bit code 11 = false → (s.errPending ≠ 0 ∨ s1.errPending = 0) → exec .errorStatusSet s = .next s1))

/-- FLASH_READ, FLASH_PROGRAM, FLASH_ERASE, FLASH_OP_DONE (R441), REBOOT; what a failed operation leaves is a free value (log
entry 3), an erased byte is 0xFF (log entry 35). -/
def Obligations.FlashOperationsAndReboot : Prop :=
  ∀ (s : State),
    let addr := fld (s.getReg (tpl 0x404)) 23 0
    let len := fld (s.getReg (tpl 0x408)) 12 0
    let badLen := len = 0 ∨ 4096 < len
    (∀ e ∈ [(1, Instr.flashRead), (2, Instr.flashProgram), (3, Instr.flashErase)],
      let refused := s.shuttingDown = true ∨
        (if e.1 = 1 then badLen
         else if e.1 = 2 then badLen ∨ addr / 256 ≠ (addr + len - 1) / 256 ∨ s.touchesSelected addr len = true
         else addr % 0x10000 ≠ 0 ∨ s.touchesSelected addr 0x10000 = true)
      (s.answers .tpl = true → bit (s.getReg (tpl 0x40C)) 0 = false →
        (refused → exec e.2 s = .next (s.setReg (tpl 0x40C) (putBit (s.getReg (tpl 0x40C)) 1 true))) ∧
        (¬ refused → exec e.2 s = .next { s.setReg (tpl 0x40C) (putBit (s.getReg (tpl 0x40C)) 0 true) with
          temple := { s.temple with busy := some ⟨e.1, addr, len⟩ } })) ∧
      (bit (s.getReg (tpl 0x40C)) 0 = true → exec e.2 s = .next s)) ∧
    (∀ (x : FlashOp) (fail : Bool), s.temple.busy = some x → ∃ t : State, exec (.flashOpDone fail) s = .next t ∧
      t.temple.busy = none ∧ bit (t.getReg (tpl 0x40C)) 0 = false ∧
      (fail = true → x.op ≠ 1 → bit (t.getReg (tpl 0x40C)) 2 = true ∧ (t.log 39).now = (s.log 39).now ++
        [⟨s.getReg (hdl 0x00), 0xA004, 0x10A, s.pickNum, s.pickEpoch, 0, s.getReg (tpl 0x404)⟩]) ∧
      (x.op = 1 → ∀ i < x.len, x.addr + i < 0x1000000 → t.rawByte (flashBuf + i) = s.flashByte (x.addr + i)) ∧
      (x.op = 1 → ∀ a, t.flashByte a = s.flashByte a) ∧
      (x.op = 2 → fail = false → ∀ i < x.len, t.flashByte (x.addr + i) = s.byte (flashBuf + i)) ∧
      (x.op = 3 → fail = false → ∀ i < 0x10000, t.flashByte (x.addr + i) = 0xFF) ∧
      (x.op = 2 → ∀ a, a < x.addr ∨ x.addr + x.len ≤ a → t.flashByte a = s.flashByte a) ∧
      (x.op = 3 → ∀ a, a < x.addr ∨ x.addr + 0x10000 ≤ a → t.flashByte a = s.flashByte a)) ∧
    (s.answers .tpl = true → s.active = false → s.mayShut 0 = true →
      exec .reboot s = .next ((s.nextFree.modPower fun p => { p with reboot := true }).startShutdown
        ⟨(Config.freeValue s.free).toNat % 2, 0, 9⟩)) ∧
    (∀ a : PwrAsk, bit (s.getReg (hdl 0x20)) 0 = false → s.progState = 0 →
      (s.startShutdown a).power = { s.power with
        seq := .phaseA a.target, ask := a, stepAt := s.getReg (hdl 0x00), aDone := false, aborted := false, next := none } ∧
      (s.startShutdown a).getReg (hdl 0x1104) = putFld (putFld (s.getReg (hdl 0x1104)) 15 12 a.cause) 9 8 1) ∧
    (s.active = true → exec .reboot s = .next s)

/-- The Tally commands (§14.6). -/
def Obligations.TallyChannelsCheckCommittedData : Prop :=
  ∀ (s : State),
    (∀ (td : Td) (n : TallyNo), s.answers (.trd td) = true →
      let b := trdTally td n
      let st := s.getReg (b + 0x28)
      (s.getReg (b + 0x24) ≠ s.getReg (b + 0x20) →
        exec (.tallyArm td n) s = .next (s.setReg (b + 0x28) (putBit st 4 true))) ∧
      (s.getReg (b + 0x24) = s.getReg (b + 0x20) → ∃ t : State, exec (.tallyArm td n) s = .next t ∧
        bit (t.getReg (b + 0x28)) 4 = false ∧
        (s.getReg (b + 0x18) = s.getReg (b + 0x10) →
          t.getReg (b + 0x28) = putBit (putBit st 4 true) 4 false ∧ ∀ a ≠ b + 0x28, t.getReg a = s.getReg a) ∧
        (s.getReg (b + 0x18) ≠ s.getReg (b + 0x10) → bit (t.getReg (b + 0x28)) 1 = true ∧
          t.getReg (b + 0x2C) = (s.count (b + 0x2C) 1).getReg (b + 0x2C) ∧
          (t.log (Fin.ofNat 40 (36 + td.val))).now.length = (s.log (Fin.ofNat 40 (36 + td.val))).now.length + 1 ∧
          ∀ a, a ≠ b + 0x28 → a ≠ b + 0x2C → t.getReg a = s.getReg a)) ∧
      (∃ t : State, exec (.tallyStreamReset td n) s = .next t ∧ (t.tallyStream td n).bytes = [] ∧ t.getReg (b + 0x24) = 0 ∧
        t.getReg (b + 0x18) = tallyCrc (fld (s.getReg b) 1 0) [] ∧ t.getReg b = s.getReg b ∧
        (bit st 4 = false ∨ s.getReg (b + 0x20) ≠ 0 → ∀ a, a ≠ b + 0x24 → a ≠ b + 0x18 → t.getReg a = s.getReg a) ∧
        (s.getReg (b + 0x20) = 0 → bit (t.getReg (b + 0x28)) 4 = false)) ∧
      (∀ val : Word, let cfg : Dword := BitVec.ofNat 64 val.toNat &&& 0x003F0133
        ∃ t : State, exec (.tallyCfgWrite td n val) s = .next t ∧ t.getReg b = cfg ∧ (t.tallyStream td n).bytes = [] ∧
          t.getReg (b + 0x24) = 0 ∧ t.getReg (b + 0x18) = tallyCrc (fld cfg 1 0) []) ∧
      (∀ (l : List Byte) (sp : SpoolId) (mode : Nat), fld (s.getReg b) 5 4 = mode → fld (s.getReg b) 21 16 = sp.val →
          ((s.tallyInclude td sp mode l).tallyStream td n).bytes = (s.tallyStream td n).bytes ++ l ∧
          (s.tallyInclude td sp mode l).getReg (b + 0x18) =
            tallyCrc (fld (s.getReg b) 1 0) ((s.tallyStream td n).bytes ++ l))) ∧
    (∀ (d : Die) (n : TallyNo), s.answers (.ldie d) = true →
      let b := loomTally d n
      let g := coreOf d (fld (s.getReg b) 18 16)
      let base := fld (s.getReg (b + 8)) 22 0
      let len := fld (s.getReg (b + 0xC)) 22 0
      fld (s.getReg b) 5 4 = 2 → (s.tally d n).busy = false →
        (s.runs g = true → exec (.tallyPassGo d n) s = .next (s.setTally d n { s.tally d n with pending := true })) ∧
        (s.runs g = false → 0 < len → (∀ i, base / 65536 ≤ i → i ≤ (base + len - 1) / 65536 → i < 127 ∧
          s.carryBit g i = true) → exec (.tallyPassGo d n) s =
            .next (((s.setReg (b + 0x28) (putBit (s.getReg (b + 0x28)) 0 true)).setTally d n { busy := true }).modCore g fun c =>
              { c with svc := c.svc ++ [.tally d n] })) ∧
        (∀ i, s.runs g = false → 0 < len → i = base / 65536 → (127 ≤ i ∨ s.carryBit g i = false) →
          exec (.tallyPassGo d n) s = .next (((s.setReg (b + 0x28) (putBit (s.getReg (b + 0x28)) 3 true)).logDie d 0x9003
            n.val (BitVec.ofNat 64 i)).setTally d n {}))) ∧
    (∀ (d : Die) (n : TallyNo), (s.tally d n).busy = true →
      let b := loomTally d n
      let g := coreOf d (fld (s.getReg b) 18 16)
      let t := s.tally d n
      let off := fld (s.getReg (b + 8)) 22 0 + t.got.length
      let len := fld (s.getReg (b + 0xC)) 22 0
      (t.got.length < len → exec (.tallyPassDone d n) s = .next s ∧
        s.portSpan (.tally d n) = some (off, min (64 - off % 64) (len - t.got.length))) ∧
      (∀ data : List Byte, s.tallyLine g d n data [] =
        (let s1 := s.setTally d n { t with got := t.got ++ data }
         if len ≤ t.got.length + data.length then s1 else s1.modCore g fun c => { c with svc := c.svc ++ [.tally d n] })) ∧
      (len ≤ t.got.length → exec (.tallyPassDone d n) s =
        .next (((((s.setReg (b + 0x18) (tallyCrc (fld (s.getReg b) 1 0) t.got)).countWrap (b + 0x24) 1).modReg (b + 0x28) fun x =>
          putBit x 0 false).setTally d n {}).tallyCompare b fun s c v => s.logDie d c n.val v))) ∧
    (∀ (base : Nat) (ev : State → Nat → Dword → State),
      (s.getReg (base + 0x18) = s.getReg (base + 0x10) → s.tallyCompare base ev = s) ∧
      (s.getReg (base + 0x18) ≠ s.getReg (base + 0x10) → s.tallyCompare base ev =
        ev ((s.modReg (base + 0x28) fun x => putBit x 1 true).count (base + 0x2C) 1)
          (if bit (s.getReg base) 8 then 0x9801 else 0x9001) (s.getReg (base + 0x18))))

/-- CLK_CFG_WRITE, CLOCK_CHANGE_DONE, POWER_REQUEST, POWER_TRANSITION_DONE, AVS_ACK, AVS_TIMEOUT; a step from SLUMBER goes to
HOLD (log entry 38). -/
def Obligations.ClocksVoltagesAndRequests : Prop :=
  ∀ (s : State),
    (∀ val : Word, let v := val &&& 0x10FFF
      (coreMillivolt (fld v 11 0) = none → exec (.clkCfgWrite val) s = .next s) ∧
      (∀ mv, s.answers .hdl = true → s.active = false → coreMillivolt (fld v 11 0) = some mv →
        ((s.pwrState = 2 ∨ s.heddle.clkChange = true) → exec (.clkCfgWrite val) s =
          .next (s.modHeddle fun h => { h with clkDoze := some v })) ∧
        (s.pwrState ≠ 2 → s.heddle.clkChange = false → s.below mv = false → exec (.clkCfgWrite val) s =
          .next ((s.modHeddle fun h => { h with clkChange := true, clkWanted := none }).setReg (hdl 0x44)
            (BitVec.ofNat 64 v.toNat))) ∧
        (s.pwrState ≠ 2 → s.heddle.clkChange = false → s.below mv = true → exec (.clkCfgWrite val) s =
          .next ((s.modHeddle fun h => { h with clkChange := true, clkWanted := some v }).avsAll mv)))) ∧
    (s.heddle.clkChange = true → s.heddle.clkWanted = none → s.heddle.clkDoze = none → exec .clockChangeDone s =
      .next ((s.modHeddle fun h => { h with clkChange := false, clkDoze := none }).avsAll s.clkMillivolt)) ∧
    (∀ (td : Td) (val : Word), s.answers .hdl = true → bit val 31 = true → s.power.seq = .none →
      let a : PwrAsk := ⟨td.val, fld val 2 0, 1⟩
      (4 < a.target → exec (.powerRequest td val) s = .next s) ∧
      (a.target ≤ 4 → bit s.temple.settings.policyHost a.target = false →
        exec (.powerRequest td val) s = .next (s.refusePwr a 1 0)) ∧
      (a.target ≤ 4 → bit s.temple.settings.policyHost a.target = true →
        (a.target = s.pwrState → exec (.powerRequest td val) s = .next s) ∧
        (a.target ≠ s.pwrState → a.target = 4 → s.safe = true → exec (.powerRequest td val) s = .next (s.refusePwr a 2 0)) ∧
        (a.target ≠ s.pwrState → s.safe = false → s.active = false →
          (2 ≤ a.target → exec (.powerRequest td val) s = .next (s.beginStep a)) ∧
          (a.target ≤ 1 → s.mayShut a.target = true → exec (.powerRequest td val) s = .next (s.startShutdown a))))) ∧
    (∀ (a : PwrAsk) (who index : Nat), who < 8 → (s.refusePwr a who index).power.alert = putBit s.power.alert 1 true ∧
      (s.refusePwr a who index).getReg (hdl 0x1104) = s.getReg (hdl 0x1104) ∧
      bit ((s.refusePwr a who index).getReg (hdl 0x1108)) 31 = true) ∧
    (∀ n : Nat, n ≤ 4 → (s.setPwr n).pwrState = n ∧ (s.setPwr n).power.alert = putBit s.power.alert 0 true) ∧
    (∀ n : Nat, s.power.seq = .step n → s.avsBusy = false → s.active = false → s.heddle.clkChange = false →
      ((n ≠ 3 ∨ 3 ≤ s.pwrState) ∨ s.below s.holdMillivolt = false) →
      exec .powerTransitionDone s = .next (((s.setPwr n).endSeq.arrive s.pwrState n).afterSeq)) ∧
    (∀ cur target : Nat, 2 ≤ target → target ≤ 4 → cur ≤ 4 → cur ≠ target →
      nextPwr cur target = if cur < target then (if cur = 1 then 3 else cur + 1) else cur - 1) ∧
    (∀ (j : Fin 16) (r : AvsReq), s.power.avs.lookup j.val = some r →
      (s.heddle.clkWanted = none → exec (.avsAck j) s = .next (s.modPower fun p => { p with
        millivolt := sset (fun _ => 700) p.millivolt j.val r.millivolt
        avs := p.avs.filter fun e => e.1 != j.val })) ∧
      (s.since r.sent < 1000 * fld (s.getReg (hdl 0x1134)) 12 0 → exec (.avsTimeout j) s = .next s) ∧
      (1000 * fld (s.getReg (hdl 0x1134)) 12 0 ≤ s.since r.sent → r.repeated = false →
        exec (.avsTimeout j) s = .next (s.avsSend j r.millivolt r.raise true)) ∧
      (1000 * fld (s.getReg (hdl 0x1134)) 12 0 ≤ s.since r.sent → r.repeated = true → r.raise = false →
        exec (.avsTimeout j) s = .next ((s.modPower fun p => { p with avs := p.avs.filter fun e => e.1 != j.val }).logHdl 0x7804
          j.val (BitVec.ofNat 64 (r.millivolt % 2 ^ 16 + 2 ^ 16 * (s.millivolt j.val % 2 ^ 16) + 0)))))

/-- The power sequences (§15.2–§15.4). -/
def Obligations.SuppliesResetsAndSequences : Prop :=
  ∀ (s : State),
    (∃ t, exec .vddAuxRise s = .next t ∧ t.regs = [] ∧ t.mem = [] ∧ t.cores = [] ∧ t.pins = { s.pins with vddAux := true } ∧
      t.power = { cold := true } ∧ t.temple.fuses = s.temple.fuses ∧ t.temple.flash = s.temple.flash ∧ t.pending = s.pending ∧
      t.out = s.out) ∧
    (∃ t, exec .resetNAssert s = .next t ∧ t.regs = [] ∧ t.mem = [] ∧ t.cores = [] ∧ t.pins = { s.pins with resetN := false } ∧
      t.power = {} ∧ t.temple.fuses = s.temple.fuses ∧ t.temple.flash = s.temple.flash ∧ t.pending = s.pending) ∧
    (s.pins.resetN = false → exec .resetNRelease s = .next { s with
      pins := { s.pins with resetN := true }, power := { s.power with cold := s.pins.vddAux } }) ∧
    (s.power.seq = .none → s.pwrState = 0 → s.pins.vddAux = true → s.pins.resetN = true → s.pins.pwrFailN = true →
      (s.powerOnDue = none → exec .powerOn s = .next s) ∧
      (∀ a, s.powerOnDue = some a → ∃ t, exec .powerOn s = .next t ∧ t.power.seq = .powerOn 1 ∧ t.power.ask = a ∧
        t.power.cold = s.power.cold ∧ t.power.smbLive = true ∧ t.getReg (hdl 0x10) = 1 ∧ fld (t.getReg (hdl 0x1104)) 9 8 = 3)) ∧
    (∀ n : Nat, s.power.seq = .powerOn n →
      let rec' := s.power.recovery
      (n = 1 → exec .powerOnStepDone s = .next (s.seqAt (.powerOn 2))) ∧
      (n = 2 → exec .powerOnStepDone s = .next ((s.selectCopy.modPower fun p => { p with enIo := true }).seqAt (.powerOn 3))) ∧
      (n = 3 → exec .powerOnStepDone s = .next ((s.modPower fun p => { p with enSram := !rec' }).seqAt (.powerOn 4))) ∧
      (n = 4 → s.power.cold = true → exec .powerOnStepDone s =
        .next ((s.modPower fun p => { p with enSerdes := true }).seqAt (.powerOn 5))) ∧
      (n = 5 → rec' = false → exec .powerOnStepDone s =
        .next (((s.seqAt (.powerOn 6)).modPower fun p => { p with enCore := true }).avsEvery s.clkMillivolt)) ∧
      (n = 5 → rec' = true → exec .powerOnStepDone s = .next (s.seqAt (.powerOn 6))) ∧
      (n = 6 → s.avsBusy = false → exec .powerOnStepDone s = .next (s.seqAt (.powerOn 7))) ∧
      (n = 6 → s.avsBusy = true → exec .powerOnStepDone s = .next s) ∧
      (n = 7 → exec .powerOnStepDone s = .next s.powerOnEnd) ∧
      (10000000 ≤ s.since s.power.stepAt →
        (n = 3 ∧ s.power.enIo = true ∨ n = 4 ∧ s.power.enSram = true ∨ n = 5 ∧ s.power.enSerdes = true ∨
          n = 6 ∧ s.power.enCore = true) → exec .powerGoodTimeout s = .next (s.refusePowerOn 5 (n - 3)))) ∧
    (s.power.seq = .none → 2 ≤ s.pwrState → exec .pwrFailFall s = .next
      ((((({ s with pins := { s.pins with pwrFailN := false }, power := { s.power with failHighSince := none } } : State).logHdl
        0x7806 0 (BitVec.ofNat 64 (s.pwrState + 2 ^ 8 * fld (s.getReg (hdl 0x1104)) 9 8))).alert 4).modPower fun p =>
          { p with supplyFail := true }).startShutdown ⟨3, 0, 2⟩)) ∧
    (s.power.seq = .none → s.pwrState ≤ 1 → exec .pwrFailFall s = .next
      { s with pins := { s.pins with pwrFailN := false }, power := { s.power with failHighSince := none } }) ∧
    (exec .pwrFailRise s = .next { s with
      pins := { s.pins with pwrFailN := true }, power := { s.power with failHighSince := some (s.getReg (hdl 0x00)) } }) ∧
    (∀ t f, s.power.seq = .phaseA t → s.power.failHighSince = some f → s.power.supplyFail = true → s.pins.pwrFailN = true →
      (2000000 ≤ s.since f → exec .supplyReturnTimeout s =
        .next (((s.modReg (hdl 0x1104) fun v => putFld v 15 12 7).modPower fun p => { p with aborted := true }).phaseAHold)) ∧
      (s.since f < 2000000 → exec .supplyReturnTimeout s = .next s)) ∧
    (∀ t, s.power.seq = .phaseA t → s.active = false → s.temple.busy = none → s.power.aDone = false → s.pwrState = 3 →
      s.power.aborted = false → s.power.supplyFail = false →
      exec .phaseADone s = .next ((s.abortAll.issueTickets.flashStop).phaseB t)) ∧
    (∀ t n, s.power.seq = .phaseB t n →
      ((n = 6 ∨ n = 5 ∧ t ≠ 0) → exec .phaseBStep s = .next (s.phaseBEnd t)) ∧
      (n < 5 ∨ n = 5 ∧ t = 0 → exec .phaseBStep s = .next (s.phaseBEnter t (n + 1))))

/-- DIE_POWER_WRITE, DIE_POWER_DONE, ISLAND_FAULT, WAKE_N_LOW, PERST_RISE, GPIO0_EDGE. -/
def Obligations.DiesIslandsAndWakeSources : Prop :=
  ∀ (s : State),
    (∀ val : Dword, s.answers .hdl = true → 3 ≤ s.pwrState → s.progState = 0 → s.active = false →
      (∀ d < 32, s.boltOnDie d = false) → ∃ t, exec (.diePowerWrite val) s = .next t ∧
        (∀ d < 36, bit (t.getReg (hdl 0x1128)) d = bit val d) ∧
        (∀ d < 36, bit (s.getReg (hdl 0x1128)) d = true → bit val d = false → d ∈ t.power.dieDown) ∧
        (∀ d < 36, bit (s.getReg (hdl 0x1128)) d = false → bit val d = true → d ∉ s.power.dieDown → d ∈ t.power.dieUp)) ∧
    (∀ val : Dword, s.pwrState < 3 → exec (.diePowerWrite val) s = .next s) ∧
    (∀ d : Fin 36, d.val ∈ s.power.dieDown → ∃ t, exec (.diePowerDone d) s = .next t ∧ t.dieOn d.val = false ∧
      (∀ a, inDie d.val a = true → t.getReg a = regReset a ∧ t.rawByte a = memReset a) ∧
      (∀ a, inDie d.val a = false → t.getReg a = s.getReg a ∧ t.rawByte a = s.rawByte a)) ∧
    (∀ d : Fin 36, d.val ∉ s.power.dieDown → d.val ∈ s.power.dieUp → ∃ t, exec (.diePowerDone d) s = .next t ∧
      t.dieOn d.val = true) ∧
    (∀ (g : CoreId) (kind : BitVec 3), s.fusedOff g = false →
      let s1 := s.modReg (ldie (dieOf g) 0x10) fun v => putBit v (8 + g.toNat % 8) true
      (s.runs g = true → exec (.islandFault (.core g) kind) s =
        .next ((s1.halt g 0x82 0 0 0).logEvent 38 (0x120 + (dieOf g).val) 0x7805 g.toNat (BitVec.ofNat 64 kind.toNat))) ∧
      (s.runs g = false → exec (.islandFault (.core g) kind) s =
        .next ((s1.haltCore g 0x82 0 0 0).logEvent 38 (0x120 + (dieOf g).val) 0x7805 g.toNat (BitVec.ofNat 64 kind.toNat)))) ∧
    (∀ (d : Die) (kind : BitVec 3), exec (.islandFault (.die d) kind) s = .next
      ((((List.range 8).map (coreOf d)).foldl (fun s g => if s.runs g then s.halt g 0x82 0 0 0 else s)
        (s.modReg (ldie d 0x10) fun v => putBit v 16 true)).logEvent 38 (0x120 + d.val) 0x7805 (0x120 + d.val)
          (BitVec.ofNat 64 kind.toNat))) ∧
    (let wake := s.temple.settings.wakeEn
     (bit wake 1 = true → exec .wakeNLow s = .next (s.wakeUp 2)) ∧ (bit wake 1 = false → exec .wakeNLow s = .next s) ∧
     (∀ td : Td, (s.perst td = false → bit wake 2 = true → exec (.perstRise td) s =
         .next ((s.setPerst td true).wakeUp (3 + td.val))) ∧
       ((s.perst td = true ∨ bit wake 2 = false) → exec (.perstRise td) s = .next (s.setPerst td true))) ∧
     (∀ rising : Bool, (bit wake 3 = true → bit wake 4 = rising → exec (.gpio0Edge rising) s = .next (s.wakeUp 5)) ∧
       ((bit wake 3 = false ∨ bit wake 4 ≠ rising) → exec (.gpio0Edge rising) s = .next s))) ∧
    (∀ src : Nat, s.pwrState = 1 → s.power.seq = .none →
      s.wakeUp src = (s.setReg (hdl 0x1138) (BitVec.ofNat 64 src)).askPower ⟨4, 3, 5⟩) ∧
    (∀ src : Nat, 2 ≤ s.pwrState → s.wakeUp src = s)

/-- The SMBus commands; the temperatures and samples reset as log entry 6 says. -/
def Obligations.SmbusWindowAnswers : Prop :=
  ∀ (s : State),
    let nack := s.emit (.smbus none)
    let woken := if bit s.temple.settings.wakeEn 0 && s.pwrState == 0 then nack.wakeUp 1 else nack
    (s.power.smbLive = true →
      (∀ e ∈ [(Instr.smbState, leBytes 2 (fld (s.getReg (hdl 0x1104)) 15 0)),
        (Instr.smbRefusal, leBytes 8 (s.getReg (hdl 0x1108)).toNat), (Instr.smbTemp, leBytes 2 (unsigned 16 s.hottest)),
        (Instr.smbPower, leBytes 2 (s.power.samples.sum / 10)), (Instr.smbAlertRead, [s.power.alert]),
        (Instr.smbLogseq, leBytes 4 (s.getReg 0xC207F000).toNat)],
        exec e.1 s = .next (s.emit (.smbus (some e.2)))) ∧
      exec .smbusAddressMatch s = .next s ∧
      (∀ val : Byte, exec (.smbReq val false) s = .next nack ∧ exec (.smbAlertClear val false) s = .next nack ∧
        (fld val 7 3 ≠ 0 → exec (.smbReq val true) s = .next (s.emit (.smbus (some [])))) ∧
        (fld val 7 3 = 0 → exec (.smbReq val true) s = .next ((s.emit (.smbus (some []))).askPower ⟨2, fld val 2 0, 1⟩)) ∧
        exec (.smbAlertClear val true) s = .next ((s.emit (.smbus (some []))).modPower fun p =>
          { p with alert := p.alert &&& ~~~val }))) ∧
    (s.power.smbLive = false → ∀ (val : Byte) (pec : Bool), ∀ c ∈ [Instr.smbusAddressMatch, .smbState, .smbRefusal, .smbTemp,
      .smbPower, .smbAlertRead, .smbLogseq, .smbReq val pec, .smbAlertClear val pec], exec c s = .next woken)

/-- AVS_TELEMETRY, THERMAL_REPORT, PWR_LIMIT_WRITE, AVS_TMO_WRITE, PAD_SLEW_WRITE, JTAG_INSTRUCTION, TRST_N_ASSERT; IDCODE on
reset is the model's choice (log entry 7). -/
def Obligations.LimitsTemperatureAndJtag : Prop :=
  ∀ (s : State),
    (∀ watts : Nat, s.power.enCore = true →
      let lim := s.getReg (hdl 0x1130)
      let samples := ((watts + fld lim 27 16) :: s.power.samples).take 10
      (samples.sum ≤ 10 * fld lim 10 0 → exec (.avsTelemetry watts) s =
        .next (s.modPower fun p => { p with samples := samples, overCount := 0 })) ∧
      (10 * fld lim 10 0 < samples.sum →
        let s1 := s.modPower fun p => { p with samples := samples, overCount := s.power.overCount + 1 }
        (s.power.overCount < 2 → exec (.avsTelemetry watts) s = .next s1) ∧
        (2 ≤ s.power.overCount → exec (.avsTelemetry watts) s = .next ((s1.alert 3).askPower ⟨3, 3, 3⟩)))) ∧
    (∀ (d : LogDie) (temp : BitVec 16), s.weftRuns = true →
      let limit : Int := s.temple.settings.thermC
      let s1 := s.modPower fun p => { p with temps := sins (serase p.temps d.val) d.val temp }
      (temp.toInt < limit - 10 → exec (.thermalReport d temp) s = .next s1) ∧
      (limit - 10 ≤ temp.toInt → temp.toInt < limit → exec (.thermalReport d temp) s = .next (s1.alert 2)) ∧
      (limit ≤ temp.toInt → exec (.thermalReport d temp) s = .next ((s1.alert 2).askPower ⟨3, 0, 4⟩))) ∧
    (∀ val : Word, s.answers .hdl = true →
      (100 ≤ fld val 10 0 → fld val 10 0 ≤ 1650 → exec (.pwrLimitWrite val) s =
        .next (s.setReg (hdl 0x1130) (BitVec.ofNat 64 (fld val 10 0 + 2 ^ 16 * fld val 27 16)))) ∧
      ((fld val 10 0 < 100 ∨ 1650 < fld val 10 0) → exec (.pwrLimitWrite val) s = .next s) ∧
      (50 ≤ fld val 12 0 → fld val 12 0 ≤ 5000 → exec (.avsTmoWrite val) s =
        .next (s.setReg (hdl 0x1134) (BitVec.ofNat 64 (fld val 12 0)))) ∧
      ((fld val 12 0 < 50 ∨ 5000 < fld val 12 0) → exec (.avsTmoWrite val) s = .next s) ∧
      (∃ v : Dword, exec (.padSlewWrite val) s = .next (s.setReg (hdl 0x113C) v) ∧
        ∀ i < 6, fld v (2 * i + 1) (2 * i) = if fld val (2 * i + 1) (2 * i) = 3 then
          fld (s.getReg (hdl 0x113C)) (2 * i + 1) (2 * i) else fld val (2 * i + 1) (2 * i))) ∧
    (∀ op : JtagOp, exec (.jtagInstruction op) s = .next { s with
      jtag := ⟨false, if s.active = true ∨ op = .other then .bypass else op⟩, pins := { s.pins with trstN := true } }) ∧
    exec .trstNAssert s = .next { s with jtag := ⟨true, .idcode⟩, pins := { s.pins with trstN := false } }
end

