-- ==== Sys2Proof/Laws/Sparse.lean ====
section
/-! SUPPORT. The laws of the sparse maps: what a read finds after a write, and that every operation keeps the canonical
form. -/

namespace Sys2Proof.Machine

variable {β : Type}

/-- A read after an erase of another key. -/
theorem sget_serase (d : Nat → β) (l : List (Nat × β)) (k j : Nat) :
    sget d (serase l k) j = if j = k then d j else sget d l j := by
  induction l with
  | nil => simp [serase, sget]
  | cons e t ih =>
    obtain ⟨a, v⟩ := e
    by_cases ha : a = k
    · subst ha
      simp only [serase, if_true, ih, sget]
      by_cases hj : j = a
      · simp [hj]
      · simp [hj, Ne.symm hj]
    · simp only [serase, if_neg ha, sget, ih]
      by_cases hj : j = k
      · subst hj; simp [ha]
      · simp [hj]

/-- A read after an insertion where the key was not listed. -/
theorem sget_sins (d : Nat → β) (l : List (Nat × β)) (k j : Nat) (v : β) (hk : ∀ e ∈ l, e.1 ≠ k) :
    sget d (sins l k v) j = if j = k then v else sget d l j := by
  induction l with
  | nil => simp [sins, sget, eq_comm]
  | cons e t ih =>
    obtain ⟨a, b⟩ := e
    have ha : a ≠ k := hk (a, b) (by simp)
    have ht := ih fun e he => hk e (by simp [he])
    by_cases hlt : k < a
    · simp only [sins, if_pos hlt, sget]
      by_cases hj : j = k
      · simp [hj]
      · simp [hj, Ne.symm hj]
    · simp only [sins, if_neg hlt, sget, ht]
      by_cases hj : j = k
      · subst hj; simp [ha]
      · simp [hj]

/-- An erased key is no longer listed. -/
theorem serase_not_mem (l : List (Nat × β)) (k : Nat) : ∀ e ∈ serase l k, e.1 ≠ k := by
  induction l with
  | nil => simp [serase]
  | cons e t ih =>
    obtain ⟨a, v⟩ := e
    by_cases ha : a = k
    · simpa [serase, ha] using ih
    · simp only [serase, if_neg ha]
      intro e he
      rcases List.mem_cons.mp he with rfl | he
      · exact ha
      · exact ih e he

/-- A read after a write. -/
theorem sget_sset [DecidableEq β] (d : Nat → β) (l : List (Nat × β)) (k j : Nat) (v : β) :
    sget d (sset d l k v) j = if j = k then v else sget d l j := by
  unfold sset
  split
  · next h => rw [sget_serase]; split <;> simp_all
  · rw [sget_sins _ _ _ _ _ (serase_not_mem l k), sget_serase]; split <;> simp_all

/-- A read of the key written. -/
@[simp] theorem sget_sset_self [DecidableEq β] (d : Nat → β) (l : List (Nat × β)) (k : Nat) (v : β) :
    sget d (sset d l k v) k = v := by simp [sget_sset]

/-- A read of another key. -/
theorem sget_sset_ne [DecidableEq β] (d : Nat → β) (l : List (Nat × β)) {k j : Nat} (v : β) (h : j ≠ k) :
    sget d (sset d l k v) j = sget d l j := by simp [sget_sset, h]

/-- A read after keys were dropped. -/
theorem sget_sdrop (d : Nat → β) (p : Nat → Bool) (l : List (Nat × β)) (k : Nat) :
    sget d (sdrop p l) k = if p k then d k else sget d l k := by
  induction l with
  | nil => simp [sdrop, sget]
  | cons e t ih =>
    obtain ⟨a, v⟩ := e
    simp only [sdrop] at ih ⊢
    by_cases hp : p a
    · simp only [List.filter_cons, hp, Bool.not_true, Bool.false_eq_true, if_false, ih, sget]
      by_cases hk : a = k
      · subst hk; simp [hp]
      · simp [hk]
    · simp only [List.filter_cons, hp, Bool.not_false, if_true, sget, ih]
      by_cases hk : a = k
      · subst hk; simp [hp]
      · simp [hk]

/-- Strictly rising keys, as a pairwise order. -/
theorem ssorted_iff (l : List (Nat × β)) : ssorted l = true ↔ l.Pairwise fun a b => a.1 < b.1 := by
  induction l with
  | nil => simp [ssorted]
  | cons e t ih =>
    cases t with
    | nil => simp [ssorted]
    | cons f t =>
      obtain ⟨a, v⟩ := e
      obtain ⟨b, w⟩ := f
      simp only [ssorted, Bool.and_eq_true, decide_eq_true_eq, ih, List.pairwise_cons, List.mem_cons, forall_eq_or_imp]
      constructor
      · rintro ⟨h, hb, ht⟩
        exact ⟨⟨h, fun x hx => Nat.lt_trans h (hb x hx)⟩, hb, ht⟩
      · rintro ⟨⟨h, _⟩, hb, ht⟩
        exact ⟨h, hb, ht⟩

/-- The canonical form, said without Bool. -/
theorem swf_iff [DecidableEq β] (d : Nat → β) (l : List (Nat × β)) :
    swf d l = true ↔ (l.Pairwise fun a b => a.1 < b.1) ∧ ∀ e ∈ l, e.2 ≠ d e.1 := by
  simp [swf, ssorted_iff]

/-- Erasing is filtering. -/
theorem serase_eq_filter (l : List (Nat × β)) (k : Nat) : serase l k = l.filter fun e => decide (e.1 ≠ k) := by
  induction l with
  | nil => rfl
  | cons e t ih =>
    obtain ⟨a, v⟩ := e
    by_cases ha : a = k <;> simp [serase, ha, ih]

/-- Any filter keeps the canonical form. -/
theorem swf_filter [DecidableEq β] {d : Nat → β} {l : List (Nat × β)} (p : Nat × β → Bool) (h : swf d l = true) :
    swf d (l.filter p) = true := by
  rw [swf_iff] at h ⊢
  exact ⟨h.1.filter p, fun e he => h.2 e (List.mem_filter.mp he).1⟩

/-- Dropping keys keeps the canonical form. -/
theorem swf_sdrop [DecidableEq β] {d : Nat → β} {l : List (Nat × β)} (p : Nat → Bool) (h : swf d l = true) :
    swf d (sdrop p l) = true := swf_filter _ h

/-- Members of a list with an insertion. -/
theorem mem_sins (l : List (Nat × β)) (k : Nat) (v : β) (e : Nat × β) :
    e ∈ sins l k v ↔ e = (k, v) ∨ e ∈ l := by
  induction l with
  | nil => simp [sins]
  | cons f t ih =>
    obtain ⟨a, b⟩ := f
    by_cases h : k < a
    · simp [sins, h]
    · simp only [sins, if_neg h, List.mem_cons, ih]
      exact or_left_comm

/-- An insertion of a key not listed keeps the order. -/
theorem sins_pairwise {l : List (Nat × β)} {k : Nat} (v : β) (h : l.Pairwise fun a b => a.1 < b.1)
    (hk : ∀ e ∈ l, e.1 ≠ k) : (sins l k v).Pairwise fun a b => a.1 < b.1 := by
  induction l with
  | nil => simp [sins]
  | cons f t ih =>
    obtain ⟨a, b⟩ := f
    rw [List.pairwise_cons] at h
    by_cases hlt : k < a
    · simp only [sins, if_pos hlt, List.pairwise_cons, List.mem_cons, forall_eq_or_imp]
      exact ⟨⟨hlt, fun x hx => Nat.lt_trans hlt (h.1 x hx)⟩, h.1, h.2⟩
    · simp only [sins, if_neg hlt, List.pairwise_cons]
      refine ⟨fun x hx => ?_, ih h.2 fun e he => hk e (by simp [he])⟩
      rcases (mem_sins t k v x).mp hx with rfl | hx
      · have : a ≠ k := hk (a, b) (by simp)
        show a < k
        omega
      · exact h.1 x hx

/-- A write keeps the canonical form. -/
theorem swf_sset [DecidableEq β] {d : Nat → β} {l : List (Nat × β)} (k : Nat) (v : β) (h : swf d l = true) :
    swf d (sset d l k v) = true := by
  have he : swf d (serase l k) = true := by rw [serase_eq_filter]; exact swf_filter _ h
  unfold sset
  split
  · exact he
  · next hv =>
    rw [swf_iff] at he ⊢
    refine ⟨sins_pairwise v he.1 (serase_not_mem l k), fun e hm => ?_⟩
    rcases (mem_sins _ _ _ _).mp hm with rfl | hm
    · exact hv
    · exact he.2 e hm

end Sys2Proof.Machine
end

