-- ==== Sys2Proof/Laws/State.lean ====
section
/-! SUPPORT. One lemma for each field and each elementary update of State: what the field holds after it. The updates built
from these (modReg, modCore, setCreg, the logs …) follow by simp. -/

namespace Sys2Proof.Machine

@[simp] theorem State.setReg_pending (s : State) (a : Nat) (v : Dword) :
    (s.setReg a v).pending = s.pending := rfl
@[simp] theorem State.setReg_regs (s : State) (a : Nat) (v : Dword) :
    (s.setReg a v).regs = sset regReset s.regs a v := rfl
@[simp] theorem State.setReg_mem (s : State) (a : Nat) (v : Dword) :
    (s.setReg a v).mem = s.mem := rfl
@[simp] theorem State.setReg_badPar (s : State) (a : Nat) (v : Dword) :
    (s.setReg a v).badPar = s.badPar := rfl
@[simp] theorem State.setReg_undefs (s : State) (a : Nat) (v : Dword) :
    (s.setReg a v).undefs = s.undefs := rfl
@[simp] theorem State.setReg_low (s : State) (a : Nat) (v : Dword) :
    (s.setReg a v).low = s.low := rfl
@[simp] theorem State.setReg_latches (s : State) (a : Nat) (v : Dword) :
    (s.setReg a v).latches = s.latches := rfl
@[simp] theorem State.setReg_cores (s : State) (a : Nat) (v : Dword) :
    (s.setReg a v).cores = s.cores := rfl
@[simp] theorem State.setReg_td0 (s : State) (a : Nat) (v : Dword) :
    (s.setReg a v).td0 = s.td0 := rfl
@[simp] theorem State.setReg_td1 (s : State) (a : Nat) (v : Dword) :
    (s.setReg a v).td1 = s.td1 := rfl
@[simp] theorem State.setReg_ports (s : State) (a : Nat) (v : Dword) :
    (s.setReg a v).ports = s.ports := rfl
@[simp] theorem State.setReg_sds (s : State) (a : Nat) (v : Dword) :
    (s.setReg a v).sds = s.sds := rfl
@[simp] theorem State.setReg_heddle (s : State) (a : Nat) (v : Dword) :
    (s.setReg a v).heddle = s.heddle := rfl
@[simp] theorem State.setReg_overseer (s : State) (a : Nat) (v : Dword) :
    (s.setReg a v).overseer = s.overseer := rfl
@[simp] theorem State.setReg_temple (s : State) (a : Nat) (v : Dword) :
    (s.setReg a v).temple = s.temple := rfl
@[simp] theorem State.setReg_power (s : State) (a : Nat) (v : Dword) :
    (s.setReg a v).power = s.power := rfl
@[simp] theorem State.setReg_pins (s : State) (a : Nat) (v : Dword) :
    (s.setReg a v).pins = s.pins := rfl
@[simp] theorem State.setReg_jtag (s : State) (a : Nat) (v : Dword) :
    (s.setReg a v).jtag = s.jtag := rfl
@[simp] theorem State.setReg_tallies (s : State) (a : Nat) (v : Dword) :
    (s.setReg a v).tallies = s.tallies := rfl
@[simp] theorem State.setReg_logs (s : State) (a : Nat) (v : Dword) :
    (s.setReg a v).logs = s.logs := rfl
@[simp] theorem State.setReg_statusDue (s : State) (a : Nat) (v : Dword) :
    (s.setReg a v).statusDue = s.statusDue := rfl
@[simp] theorem State.setReg_out (s : State) (a : Nat) (v : Dword) :
    (s.setReg a v).out = s.out := rfl
@[simp] theorem State.setReg_free (s : State) (a : Nat) (v : Dword) :
    (s.setReg a v).free = s.free := rfl

@[simp] theorem State.setCore_pending (s : State) (g : CoreId) (c : Core) :
    (s.setCore g c).pending = s.pending := rfl
@[simp] theorem State.setCore_regs (s : State) (g : CoreId) (c : Core) :
    (s.setCore g c).regs = s.regs := rfl
@[simp] theorem State.setCore_mem (s : State) (g : CoreId) (c : Core) :
    (s.setCore g c).mem = s.mem := rfl
@[simp] theorem State.setCore_badPar (s : State) (g : CoreId) (c : Core) :
    (s.setCore g c).badPar = s.badPar := rfl
@[simp] theorem State.setCore_undefs (s : State) (g : CoreId) (c : Core) :
    (s.setCore g c).undefs = s.undefs := rfl
@[simp] theorem State.setCore_low (s : State) (g : CoreId) (c : Core) :
    (s.setCore g c).low = s.low := rfl
@[simp] theorem State.setCore_latches (s : State) (g : CoreId) (c : Core) :
    (s.setCore g c).latches = s.latches := rfl
@[simp] theorem State.setCore_cores (s : State) (g : CoreId) (c : Core) :
    (s.setCore g c).cores = sset (fun _ => {}) s.cores g.toNat c := rfl
@[simp] theorem State.setCore_td0 (s : State) (g : CoreId) (c : Core) :
    (s.setCore g c).td0 = s.td0 := rfl
@[simp] theorem State.setCore_td1 (s : State) (g : CoreId) (c : Core) :
    (s.setCore g c).td1 = s.td1 := rfl
@[simp] theorem State.setCore_ports (s : State) (g : CoreId) (c : Core) :
    (s.setCore g c).ports = s.ports := rfl
@[simp] theorem State.setCore_sds (s : State) (g : CoreId) (c : Core) :
    (s.setCore g c).sds = s.sds := rfl
@[simp] theorem State.setCore_heddle (s : State) (g : CoreId) (c : Core) :
    (s.setCore g c).heddle = s.heddle := rfl
@[simp] theorem State.setCore_overseer (s : State) (g : CoreId) (c : Core) :
    (s.setCore g c).overseer = s.overseer := rfl
@[simp] theorem State.setCore_temple (s : State) (g : CoreId) (c : Core) :
    (s.setCore g c).temple = s.temple := rfl
@[simp] theorem State.setCore_power (s : State) (g : CoreId) (c : Core) :
    (s.setCore g c).power = s.power := rfl
@[simp] theorem State.setCore_pins (s : State) (g : CoreId) (c : Core) :
    (s.setCore g c).pins = s.pins := rfl
@[simp] theorem State.setCore_jtag (s : State) (g : CoreId) (c : Core) :
    (s.setCore g c).jtag = s.jtag := rfl
@[simp] theorem State.setCore_tallies (s : State) (g : CoreId) (c : Core) :
    (s.setCore g c).tallies = s.tallies := rfl
@[simp] theorem State.setCore_logs (s : State) (g : CoreId) (c : Core) :
    (s.setCore g c).logs = s.logs := rfl
@[simp] theorem State.setCore_statusDue (s : State) (g : CoreId) (c : Core) :
    (s.setCore g c).statusDue = s.statusDue := rfl
@[simp] theorem State.setCore_out (s : State) (g : CoreId) (c : Core) :
    (s.setCore g c).out = s.out := rfl
@[simp] theorem State.setCore_free (s : State) (g : CoreId) (c : Core) :
    (s.setCore g c).free = s.free := rfl

@[simp] theorem State.setPort_pending (s : State) (p : PortId) (x : Port) :
    (s.setPort p x).pending = s.pending := rfl
@[simp] theorem State.setPort_regs (s : State) (p : PortId) (x : Port) :
    (s.setPort p x).regs = s.regs := rfl
@[simp] theorem State.setPort_mem (s : State) (p : PortId) (x : Port) :
    (s.setPort p x).mem = s.mem := rfl
@[simp] theorem State.setPort_badPar (s : State) (p : PortId) (x : Port) :
    (s.setPort p x).badPar = s.badPar := rfl
@[simp] theorem State.setPort_undefs (s : State) (p : PortId) (x : Port) :
    (s.setPort p x).undefs = s.undefs := rfl
@[simp] theorem State.setPort_low (s : State) (p : PortId) (x : Port) :
    (s.setPort p x).low = s.low := rfl
@[simp] theorem State.setPort_latches (s : State) (p : PortId) (x : Port) :
    (s.setPort p x).latches = s.latches := rfl
@[simp] theorem State.setPort_cores (s : State) (p : PortId) (x : Port) :
    (s.setPort p x).cores = s.cores := rfl
@[simp] theorem State.setPort_td0 (s : State) (p : PortId) (x : Port) :
    (s.setPort p x).td0 = s.td0 := rfl
@[simp] theorem State.setPort_td1 (s : State) (p : PortId) (x : Port) :
    (s.setPort p x).td1 = s.td1 := rfl
@[simp] theorem State.setPort_ports (s : State) (p : PortId) (x : Port) :
    (s.setPort p x).ports = sset (fun _ => {}) s.ports p.val x := rfl
@[simp] theorem State.setPort_sds (s : State) (p : PortId) (x : Port) :
    (s.setPort p x).sds = s.sds := rfl
@[simp] theorem State.setPort_heddle (s : State) (p : PortId) (x : Port) :
    (s.setPort p x).heddle = s.heddle := rfl
@[simp] theorem State.setPort_overseer (s : State) (p : PortId) (x : Port) :
    (s.setPort p x).overseer = s.overseer := rfl
@[simp] theorem State.setPort_temple (s : State) (p : PortId) (x : Port) :
    (s.setPort p x).temple = s.temple := rfl
@[simp] theorem State.setPort_power (s : State) (p : PortId) (x : Port) :
    (s.setPort p x).power = s.power := rfl
@[simp] theorem State.setPort_pins (s : State) (p : PortId) (x : Port) :
    (s.setPort p x).pins = s.pins := rfl
@[simp] theorem State.setPort_jtag (s : State) (p : PortId) (x : Port) :
    (s.setPort p x).jtag = s.jtag := rfl
@[simp] theorem State.setPort_tallies (s : State) (p : PortId) (x : Port) :
    (s.setPort p x).tallies = s.tallies := rfl
@[simp] theorem State.setPort_logs (s : State) (p : PortId) (x : Port) :
    (s.setPort p x).logs = s.logs := rfl
@[simp] theorem State.setPort_statusDue (s : State) (p : PortId) (x : Port) :
    (s.setPort p x).statusDue = s.statusDue := rfl
@[simp] theorem State.setPort_out (s : State) (p : PortId) (x : Port) :
    (s.setPort p x).out = s.out := rfl
@[simp] theorem State.setPort_free (s : State) (p : PortId) (x : Port) :
    (s.setPort p x).free = s.free := rfl

@[simp] theorem State.setSd_pending (s : State) (n : Sd) (x : Selvedge) :
    (s.setSd n x).pending = s.pending := rfl
@[simp] theorem State.setSd_regs (s : State) (n : Sd) (x : Selvedge) :
    (s.setSd n x).regs = s.regs := rfl
@[simp] theorem State.setSd_mem (s : State) (n : Sd) (x : Selvedge) :
    (s.setSd n x).mem = s.mem := rfl
@[simp] theorem State.setSd_badPar (s : State) (n : Sd) (x : Selvedge) :
    (s.setSd n x).badPar = s.badPar := rfl
@[simp] theorem State.setSd_undefs (s : State) (n : Sd) (x : Selvedge) :
    (s.setSd n x).undefs = s.undefs := rfl
@[simp] theorem State.setSd_low (s : State) (n : Sd) (x : Selvedge) :
    (s.setSd n x).low = s.low := rfl
@[simp] theorem State.setSd_latches (s : State) (n : Sd) (x : Selvedge) :
    (s.setSd n x).latches = s.latches := rfl
@[simp] theorem State.setSd_cores (s : State) (n : Sd) (x : Selvedge) :
    (s.setSd n x).cores = s.cores := rfl
@[simp] theorem State.setSd_td0 (s : State) (n : Sd) (x : Selvedge) :
    (s.setSd n x).td0 = s.td0 := rfl
@[simp] theorem State.setSd_td1 (s : State) (n : Sd) (x : Selvedge) :
    (s.setSd n x).td1 = s.td1 := rfl
@[simp] theorem State.setSd_ports (s : State) (n : Sd) (x : Selvedge) :
    (s.setSd n x).ports = s.ports := rfl
@[simp] theorem State.setSd_sds (s : State) (n : Sd) (x : Selvedge) :
    (s.setSd n x).sds = sset (fun _ => {}) s.sds n.val x := rfl
@[simp] theorem State.setSd_heddle (s : State) (n : Sd) (x : Selvedge) :
    (s.setSd n x).heddle = s.heddle := rfl
@[simp] theorem State.setSd_overseer (s : State) (n : Sd) (x : Selvedge) :
    (s.setSd n x).overseer = s.overseer := rfl
@[simp] theorem State.setSd_temple (s : State) (n : Sd) (x : Selvedge) :
    (s.setSd n x).temple = s.temple := rfl
@[simp] theorem State.setSd_power (s : State) (n : Sd) (x : Selvedge) :
    (s.setSd n x).power = s.power := rfl
@[simp] theorem State.setSd_pins (s : State) (n : Sd) (x : Selvedge) :
    (s.setSd n x).pins = s.pins := rfl
@[simp] theorem State.setSd_jtag (s : State) (n : Sd) (x : Selvedge) :
    (s.setSd n x).jtag = s.jtag := rfl
@[simp] theorem State.setSd_tallies (s : State) (n : Sd) (x : Selvedge) :
    (s.setSd n x).tallies = s.tallies := rfl
@[simp] theorem State.setSd_logs (s : State) (n : Sd) (x : Selvedge) :
    (s.setSd n x).logs = s.logs := rfl
@[simp] theorem State.setSd_statusDue (s : State) (n : Sd) (x : Selvedge) :
    (s.setSd n x).statusDue = s.statusDue := rfl
@[simp] theorem State.setSd_out (s : State) (n : Sd) (x : Selvedge) :
    (s.setSd n x).out = s.out := rfl
@[simp] theorem State.setSd_free (s : State) (n : Sd) (x : Selvedge) :
    (s.setSd n x).free = s.free := rfl

@[simp] theorem State.setLog_pending (s : State) (d : LogDie) (x : DieLog) :
    (s.setLog d x).pending = s.pending := rfl
@[simp] theorem State.setLog_regs (s : State) (d : LogDie) (x : DieLog) :
    (s.setLog d x).regs = s.regs := rfl
@[simp] theorem State.setLog_mem (s : State) (d : LogDie) (x : DieLog) :
    (s.setLog d x).mem = s.mem := rfl
@[simp] theorem State.setLog_badPar (s : State) (d : LogDie) (x : DieLog) :
    (s.setLog d x).badPar = s.badPar := rfl
@[simp] theorem State.setLog_undefs (s : State) (d : LogDie) (x : DieLog) :
    (s.setLog d x).undefs = s.undefs := rfl
@[simp] theorem State.setLog_low (s : State) (d : LogDie) (x : DieLog) :
    (s.setLog d x).low = s.low := rfl
@[simp] theorem State.setLog_latches (s : State) (d : LogDie) (x : DieLog) :
    (s.setLog d x).latches = s.latches := rfl
@[simp] theorem State.setLog_cores (s : State) (d : LogDie) (x : DieLog) :
    (s.setLog d x).cores = s.cores := rfl
@[simp] theorem State.setLog_td0 (s : State) (d : LogDie) (x : DieLog) :
    (s.setLog d x).td0 = s.td0 := rfl
@[simp] theorem State.setLog_td1 (s : State) (d : LogDie) (x : DieLog) :
    (s.setLog d x).td1 = s.td1 := rfl
@[simp] theorem State.setLog_ports (s : State) (d : LogDie) (x : DieLog) :
    (s.setLog d x).ports = s.ports := rfl
@[simp] theorem State.setLog_sds (s : State) (d : LogDie) (x : DieLog) :
    (s.setLog d x).sds = s.sds := rfl
@[simp] theorem State.setLog_heddle (s : State) (d : LogDie) (x : DieLog) :
    (s.setLog d x).heddle = s.heddle := rfl
@[simp] theorem State.setLog_overseer (s : State) (d : LogDie) (x : DieLog) :
    (s.setLog d x).overseer = s.overseer := rfl
@[simp] theorem State.setLog_temple (s : State) (d : LogDie) (x : DieLog) :
    (s.setLog d x).temple = s.temple := rfl
@[simp] theorem State.setLog_power (s : State) (d : LogDie) (x : DieLog) :
    (s.setLog d x).power = s.power := rfl
@[simp] theorem State.setLog_pins (s : State) (d : LogDie) (x : DieLog) :
    (s.setLog d x).pins = s.pins := rfl
@[simp] theorem State.setLog_jtag (s : State) (d : LogDie) (x : DieLog) :
    (s.setLog d x).jtag = s.jtag := rfl
@[simp] theorem State.setLog_tallies (s : State) (d : LogDie) (x : DieLog) :
    (s.setLog d x).tallies = s.tallies := rfl
@[simp] theorem State.setLog_logs (s : State) (d : LogDie) (x : DieLog) :
    (s.setLog d x).logs = sset (fun _ => {}) s.logs d.val x := rfl
@[simp] theorem State.setLog_statusDue (s : State) (d : LogDie) (x : DieLog) :
    (s.setLog d x).statusDue = s.statusDue := rfl
@[simp] theorem State.setLog_out (s : State) (d : LogDie) (x : DieLog) :
    (s.setLog d x).out = s.out := rfl
@[simp] theorem State.setLog_free (s : State) (d : LogDie) (x : DieLog) :
    (s.setLog d x).free = s.free := rfl

@[simp] theorem State.setTally_pending (s : State) (d : Die) (n : TallyNo) (x : TallyPass) :
    (s.setTally d n x).pending = s.pending := rfl
@[simp] theorem State.setTally_regs (s : State) (d : Die) (n : TallyNo) (x : TallyPass) :
    (s.setTally d n x).regs = s.regs := rfl
@[simp] theorem State.setTally_mem (s : State) (d : Die) (n : TallyNo) (x : TallyPass) :
    (s.setTally d n x).mem = s.mem := rfl
@[simp] theorem State.setTally_badPar (s : State) (d : Die) (n : TallyNo) (x : TallyPass) :
    (s.setTally d n x).badPar = s.badPar := rfl
@[simp] theorem State.setTally_undefs (s : State) (d : Die) (n : TallyNo) (x : TallyPass) :
    (s.setTally d n x).undefs = s.undefs := rfl
@[simp] theorem State.setTally_low (s : State) (d : Die) (n : TallyNo) (x : TallyPass) :
    (s.setTally d n x).low = s.low := rfl
@[simp] theorem State.setTally_latches (s : State) (d : Die) (n : TallyNo) (x : TallyPass) :
    (s.setTally d n x).latches = s.latches := rfl
@[simp] theorem State.setTally_cores (s : State) (d : Die) (n : TallyNo) (x : TallyPass) :
    (s.setTally d n x).cores = s.cores := rfl
@[simp] theorem State.setTally_td0 (s : State) (d : Die) (n : TallyNo) (x : TallyPass) :
    (s.setTally d n x).td0 = s.td0 := rfl
@[simp] theorem State.setTally_td1 (s : State) (d : Die) (n : TallyNo) (x : TallyPass) :
    (s.setTally d n x).td1 = s.td1 := rfl
@[simp] theorem State.setTally_ports (s : State) (d : Die) (n : TallyNo) (x : TallyPass) :
    (s.setTally d n x).ports = s.ports := rfl
@[simp] theorem State.setTally_sds (s : State) (d : Die) (n : TallyNo) (x : TallyPass) :
    (s.setTally d n x).sds = s.sds := rfl
@[simp] theorem State.setTally_heddle (s : State) (d : Die) (n : TallyNo) (x : TallyPass) :
    (s.setTally d n x).heddle = s.heddle := rfl
@[simp] theorem State.setTally_overseer (s : State) (d : Die) (n : TallyNo) (x : TallyPass) :
    (s.setTally d n x).overseer = s.overseer := rfl
@[simp] theorem State.setTally_temple (s : State) (d : Die) (n : TallyNo) (x : TallyPass) :
    (s.setTally d n x).temple = s.temple := rfl
@[simp] theorem State.setTally_power (s : State) (d : Die) (n : TallyNo) (x : TallyPass) :
    (s.setTally d n x).power = s.power := rfl
@[simp] theorem State.setTally_pins (s : State) (d : Die) (n : TallyNo) (x : TallyPass) :
    (s.setTally d n x).pins = s.pins := rfl
@[simp] theorem State.setTally_jtag (s : State) (d : Die) (n : TallyNo) (x : TallyPass) :
    (s.setTally d n x).jtag = s.jtag := rfl
@[simp] theorem State.setTally_tallies (s : State) (d : Die) (n : TallyNo) (x : TallyPass) :
    (s.setTally d n x).tallies = sset (fun _ => {}) s.tallies (16 * d.val + n.val) x := rfl
@[simp] theorem State.setTally_logs (s : State) (d : Die) (n : TallyNo) (x : TallyPass) :
    (s.setTally d n x).logs = s.logs := rfl
@[simp] theorem State.setTally_statusDue (s : State) (d : Die) (n : TallyNo) (x : TallyPass) :
    (s.setTally d n x).statusDue = s.statusDue := rfl
@[simp] theorem State.setTally_out (s : State) (d : Die) (n : TallyNo) (x : TallyPass) :
    (s.setTally d n x).out = s.out := rfl
@[simp] theorem State.setTally_free (s : State) (d : Die) (n : TallyNo) (x : TallyPass) :
    (s.setTally d n x).free = s.free := rfl

@[simp] theorem State.emit_pending (s : State) (o : Output) :
    (s.emit o).pending = s.pending := rfl
@[simp] theorem State.emit_regs (s : State) (o : Output) :
    (s.emit o).regs = s.regs := rfl
@[simp] theorem State.emit_mem (s : State) (o : Output) :
    (s.emit o).mem = s.mem := rfl
@[simp] theorem State.emit_badPar (s : State) (o : Output) :
    (s.emit o).badPar = s.badPar := rfl
@[simp] theorem State.emit_undefs (s : State) (o : Output) :
    (s.emit o).undefs = s.undefs := rfl
@[simp] theorem State.emit_low (s : State) (o : Output) :
    (s.emit o).low = s.low := rfl
@[simp] theorem State.emit_latches (s : State) (o : Output) :
    (s.emit o).latches = s.latches := rfl
@[simp] theorem State.emit_cores (s : State) (o : Output) :
    (s.emit o).cores = s.cores := rfl
@[simp] theorem State.emit_td0 (s : State) (o : Output) :
    (s.emit o).td0 = s.td0 := rfl
@[simp] theorem State.emit_td1 (s : State) (o : Output) :
    (s.emit o).td1 = s.td1 := rfl
@[simp] theorem State.emit_ports (s : State) (o : Output) :
    (s.emit o).ports = s.ports := rfl
@[simp] theorem State.emit_sds (s : State) (o : Output) :
    (s.emit o).sds = s.sds := rfl
@[simp] theorem State.emit_heddle (s : State) (o : Output) :
    (s.emit o).heddle = s.heddle := rfl
@[simp] theorem State.emit_overseer (s : State) (o : Output) :
    (s.emit o).overseer = s.overseer := rfl
@[simp] theorem State.emit_temple (s : State) (o : Output) :
    (s.emit o).temple = s.temple := rfl
@[simp] theorem State.emit_power (s : State) (o : Output) :
    (s.emit o).power = s.power := rfl
@[simp] theorem State.emit_pins (s : State) (o : Output) :
    (s.emit o).pins = s.pins := rfl
@[simp] theorem State.emit_jtag (s : State) (o : Output) :
    (s.emit o).jtag = s.jtag := rfl
@[simp] theorem State.emit_tallies (s : State) (o : Output) :
    (s.emit o).tallies = s.tallies := rfl
@[simp] theorem State.emit_logs (s : State) (o : Output) :
    (s.emit o).logs = s.logs := rfl
@[simp] theorem State.emit_statusDue (s : State) (o : Output) :
    (s.emit o).statusDue = s.statusDue := rfl
@[simp] theorem State.emit_out (s : State) (o : Output) :
    (s.emit o).out = s.out ++ [o] := rfl
@[simp] theorem State.emit_free (s : State) (o : Output) :
    (s.emit o).free = s.free := rfl

@[simp] theorem State.nextFree_pending (s : State) :
    (s.nextFree).pending = s.pending := rfl
@[simp] theorem State.nextFree_regs (s : State) :
    (s.nextFree).regs = s.regs := rfl
@[simp] theorem State.nextFree_mem (s : State) :
    (s.nextFree).mem = s.mem := rfl
@[simp] theorem State.nextFree_badPar (s : State) :
    (s.nextFree).badPar = s.badPar := rfl
@[simp] theorem State.nextFree_undefs (s : State) :
    (s.nextFree).undefs = s.undefs := rfl
@[simp] theorem State.nextFree_low (s : State) :
    (s.nextFree).low = s.low := rfl
@[simp] theorem State.nextFree_latches (s : State) :
    (s.nextFree).latches = s.latches := rfl
@[simp] theorem State.nextFree_cores (s : State) :
    (s.nextFree).cores = s.cores := rfl
@[simp] theorem State.nextFree_td0 (s : State) :
    (s.nextFree).td0 = s.td0 := rfl
@[simp] theorem State.nextFree_td1 (s : State) :
    (s.nextFree).td1 = s.td1 := rfl
@[simp] theorem State.nextFree_ports (s : State) :
    (s.nextFree).ports = s.ports := rfl
@[simp] theorem State.nextFree_sds (s : State) :
    (s.nextFree).sds = s.sds := rfl
@[simp] theorem State.nextFree_heddle (s : State) :
    (s.nextFree).heddle = s.heddle := rfl
@[simp] theorem State.nextFree_overseer (s : State) :
    (s.nextFree).overseer = s.overseer := rfl
@[simp] theorem State.nextFree_temple (s : State) :
    (s.nextFree).temple = s.temple := rfl
@[simp] theorem State.nextFree_power (s : State) :
    (s.nextFree).power = s.power := rfl
@[simp] theorem State.nextFree_pins (s : State) :
    (s.nextFree).pins = s.pins := rfl
@[simp] theorem State.nextFree_jtag (s : State) :
    (s.nextFree).jtag = s.jtag := rfl
@[simp] theorem State.nextFree_tallies (s : State) :
    (s.nextFree).tallies = s.tallies := rfl
@[simp] theorem State.nextFree_logs (s : State) :
    (s.nextFree).logs = s.logs := rfl
@[simp] theorem State.nextFree_statusDue (s : State) :
    (s.nextFree).statusDue = s.statusDue := rfl
@[simp] theorem State.nextFree_out (s : State) :
    (s.nextFree).out = s.out := rfl
@[simp] theorem State.nextFree_free (s : State) :
    (s.nextFree).free = s.free + 1 := rfl

@[simp] theorem State.putByte_pending (s : State) (a : Nat) (b : Byte) :
    (s.putByte a b).pending = s.pending := rfl
@[simp] theorem State.putByte_regs (s : State) (a : Nat) (b : Byte) :
    (s.putByte a b).regs = s.regs := rfl
@[simp] theorem State.putByte_mem (s : State) (a : Nat) (b : Byte) :
    (s.putByte a b).mem = sset memReset s.mem a b := rfl
@[simp] theorem State.putByte_badPar (s : State) (a : Nat) (b : Byte) :
    (s.putByte a b).badPar = s.badPar := rfl
@[simp] theorem State.putByte_undefs (s : State) (a : Nat) (b : Byte) :
    (s.putByte a b).undefs = s.undefs := rfl
@[simp] theorem State.putByte_low (s : State) (a : Nat) (b : Byte) :
    (s.putByte a b).low = s.low := rfl
@[simp] theorem State.putByte_latches (s : State) (a : Nat) (b : Byte) :
    (s.putByte a b).latches = s.latches := rfl
@[simp] theorem State.putByte_cores (s : State) (a : Nat) (b : Byte) :
    (s.putByte a b).cores = s.cores := rfl
@[simp] theorem State.putByte_td0 (s : State) (a : Nat) (b : Byte) :
    (s.putByte a b).td0 = s.td0 := rfl
@[simp] theorem State.putByte_td1 (s : State) (a : Nat) (b : Byte) :
    (s.putByte a b).td1 = s.td1 := rfl
@[simp] theorem State.putByte_ports (s : State) (a : Nat) (b : Byte) :
    (s.putByte a b).ports = s.ports := rfl
@[simp] theorem State.putByte_sds (s : State) (a : Nat) (b : Byte) :
    (s.putByte a b).sds = s.sds := rfl
@[simp] theorem State.putByte_heddle (s : State) (a : Nat) (b : Byte) :
    (s.putByte a b).heddle = s.heddle := rfl
@[simp] theorem State.putByte_overseer (s : State) (a : Nat) (b : Byte) :
    (s.putByte a b).overseer = s.overseer := rfl
@[simp] theorem State.putByte_temple (s : State) (a : Nat) (b : Byte) :
    (s.putByte a b).temple = s.temple := rfl
@[simp] theorem State.putByte_power (s : State) (a : Nat) (b : Byte) :
    (s.putByte a b).power = s.power := rfl
@[simp] theorem State.putByte_pins (s : State) (a : Nat) (b : Byte) :
    (s.putByte a b).pins = s.pins := rfl
@[simp] theorem State.putByte_jtag (s : State) (a : Nat) (b : Byte) :
    (s.putByte a b).jtag = s.jtag := rfl
@[simp] theorem State.putByte_tallies (s : State) (a : Nat) (b : Byte) :
    (s.putByte a b).tallies = s.tallies := rfl
@[simp] theorem State.putByte_logs (s : State) (a : Nat) (b : Byte) :
    (s.putByte a b).logs = s.logs := rfl
@[simp] theorem State.putByte_statusDue (s : State) (a : Nat) (b : Byte) :
    (s.putByte a b).statusDue = s.statusDue := rfl
@[simp] theorem State.putByte_out (s : State) (a : Nat) (b : Byte) :
    (s.putByte a b).out = s.out := rfl
@[simp] theorem State.putByte_free (s : State) (a : Nat) (b : Byte) :
    (s.putByte a b).free = s.free := rfl

@[simp] theorem State.setPar_pending (s : State) (a : Nat) (bad : Bool) :
    (s.setPar a bad).pending = s.pending := rfl
@[simp] theorem State.setPar_regs (s : State) (a : Nat) (bad : Bool) :
    (s.setPar a bad).regs = s.regs := rfl
@[simp] theorem State.setPar_mem (s : State) (a : Nat) (bad : Bool) :
    (s.setPar a bad).mem = s.mem := rfl
@[simp] theorem State.setPar_badPar (s : State) (a : Nat) (bad : Bool) :
    (s.setPar a bad).badPar = if bad then addKey s.badPar (wordOf a) else s.badPar.filter (· != wordOf a) := rfl
@[simp] theorem State.setPar_undefs (s : State) (a : Nat) (bad : Bool) :
    (s.setPar a bad).undefs = s.undefs := rfl
@[simp] theorem State.setPar_low (s : State) (a : Nat) (bad : Bool) :
    (s.setPar a bad).low = s.low := rfl
@[simp] theorem State.setPar_latches (s : State) (a : Nat) (bad : Bool) :
    (s.setPar a bad).latches = s.latches := rfl
@[simp] theorem State.setPar_cores (s : State) (a : Nat) (bad : Bool) :
    (s.setPar a bad).cores = s.cores := rfl
@[simp] theorem State.setPar_td0 (s : State) (a : Nat) (bad : Bool) :
    (s.setPar a bad).td0 = s.td0 := rfl
@[simp] theorem State.setPar_td1 (s : State) (a : Nat) (bad : Bool) :
    (s.setPar a bad).td1 = s.td1 := rfl
@[simp] theorem State.setPar_ports (s : State) (a : Nat) (bad : Bool) :
    (s.setPar a bad).ports = s.ports := rfl
@[simp] theorem State.setPar_sds (s : State) (a : Nat) (bad : Bool) :
    (s.setPar a bad).sds = s.sds := rfl
@[simp] theorem State.setPar_heddle (s : State) (a : Nat) (bad : Bool) :
    (s.setPar a bad).heddle = s.heddle := rfl
@[simp] theorem State.setPar_overseer (s : State) (a : Nat) (bad : Bool) :
    (s.setPar a bad).overseer = s.overseer := rfl
@[simp] theorem State.setPar_temple (s : State) (a : Nat) (bad : Bool) :
    (s.setPar a bad).temple = s.temple := rfl
@[simp] theorem State.setPar_power (s : State) (a : Nat) (bad : Bool) :
    (s.setPar a bad).power = s.power := rfl
@[simp] theorem State.setPar_pins (s : State) (a : Nat) (bad : Bool) :
    (s.setPar a bad).pins = s.pins := rfl
@[simp] theorem State.setPar_jtag (s : State) (a : Nat) (bad : Bool) :
    (s.setPar a bad).jtag = s.jtag := rfl
@[simp] theorem State.setPar_tallies (s : State) (a : Nat) (bad : Bool) :
    (s.setPar a bad).tallies = s.tallies := rfl
@[simp] theorem State.setPar_logs (s : State) (a : Nat) (bad : Bool) :
    (s.setPar a bad).logs = s.logs := rfl
@[simp] theorem State.setPar_statusDue (s : State) (a : Nat) (bad : Bool) :
    (s.setPar a bad).statusDue = s.statusDue := rfl
@[simp] theorem State.setPar_out (s : State) (a : Nat) (bad : Bool) :
    (s.setPar a bad).out = s.out := rfl
@[simp] theorem State.setPar_free (s : State) (a : Nat) (bad : Bool) :
    (s.setPar a bad).free = s.free := rfl

@[simp] theorem State.modHeddle_pending (s : State) (f : Heddle → Heddle) :
    (s.modHeddle f).pending = s.pending := rfl
@[simp] theorem State.modHeddle_regs (s : State) (f : Heddle → Heddle) :
    (s.modHeddle f).regs = s.regs := rfl
@[simp] theorem State.modHeddle_mem (s : State) (f : Heddle → Heddle) :
    (s.modHeddle f).mem = s.mem := rfl
@[simp] theorem State.modHeddle_badPar (s : State) (f : Heddle → Heddle) :
    (s.modHeddle f).badPar = s.badPar := rfl
@[simp] theorem State.modHeddle_undefs (s : State) (f : Heddle → Heddle) :
    (s.modHeddle f).undefs = s.undefs := rfl
@[simp] theorem State.modHeddle_low (s : State) (f : Heddle → Heddle) :
    (s.modHeddle f).low = s.low := rfl
@[simp] theorem State.modHeddle_latches (s : State) (f : Heddle → Heddle) :
    (s.modHeddle f).latches = s.latches := rfl
@[simp] theorem State.modHeddle_cores (s : State) (f : Heddle → Heddle) :
    (s.modHeddle f).cores = s.cores := rfl
@[simp] theorem State.modHeddle_td0 (s : State) (f : Heddle → Heddle) :
    (s.modHeddle f).td0 = s.td0 := rfl
@[simp] theorem State.modHeddle_td1 (s : State) (f : Heddle → Heddle) :
    (s.modHeddle f).td1 = s.td1 := rfl
@[simp] theorem State.modHeddle_ports (s : State) (f : Heddle → Heddle) :
    (s.modHeddle f).ports = s.ports := rfl
@[simp] theorem State.modHeddle_sds (s : State) (f : Heddle → Heddle) :
    (s.modHeddle f).sds = s.sds := rfl
@[simp] theorem State.modHeddle_heddle (s : State) (f : Heddle → Heddle) :
    (s.modHeddle f).heddle = f s.heddle := rfl
@[simp] theorem State.modHeddle_overseer (s : State) (f : Heddle → Heddle) :
    (s.modHeddle f).overseer = s.overseer := rfl
@[simp] theorem State.modHeddle_temple (s : State) (f : Heddle → Heddle) :
    (s.modHeddle f).temple = s.temple := rfl
@[simp] theorem State.modHeddle_power (s : State) (f : Heddle → Heddle) :
    (s.modHeddle f).power = s.power := rfl
@[simp] theorem State.modHeddle_pins (s : State) (f : Heddle → Heddle) :
    (s.modHeddle f).pins = s.pins := rfl
@[simp] theorem State.modHeddle_jtag (s : State) (f : Heddle → Heddle) :
    (s.modHeddle f).jtag = s.jtag := rfl
@[simp] theorem State.modHeddle_tallies (s : State) (f : Heddle → Heddle) :
    (s.modHeddle f).tallies = s.tallies := rfl
@[simp] theorem State.modHeddle_logs (s : State) (f : Heddle → Heddle) :
    (s.modHeddle f).logs = s.logs := rfl
@[simp] theorem State.modHeddle_statusDue (s : State) (f : Heddle → Heddle) :
    (s.modHeddle f).statusDue = s.statusDue := rfl
@[simp] theorem State.modHeddle_out (s : State) (f : Heddle → Heddle) :
    (s.modHeddle f).out = s.out := rfl
@[simp] theorem State.modHeddle_free (s : State) (f : Heddle → Heddle) :
    (s.modHeddle f).free = s.free := rfl

@[simp] theorem State.modPower_pending (s : State) (f : Power → Power) :
    (s.modPower f).pending = s.pending := rfl
@[simp] theorem State.modPower_regs (s : State) (f : Power → Power) :
    (s.modPower f).regs = s.regs := rfl
@[simp] theorem State.modPower_mem (s : State) (f : Power → Power) :
    (s.modPower f).mem = s.mem := rfl
@[simp] theorem State.modPower_badPar (s : State) (f : Power → Power) :
    (s.modPower f).badPar = s.badPar := rfl
@[simp] theorem State.modPower_undefs (s : State) (f : Power → Power) :
    (s.modPower f).undefs = s.undefs := rfl
@[simp] theorem State.modPower_low (s : State) (f : Power → Power) :
    (s.modPower f).low = s.low := rfl
@[simp] theorem State.modPower_latches (s : State) (f : Power → Power) :
    (s.modPower f).latches = s.latches := rfl
@[simp] theorem State.modPower_cores (s : State) (f : Power → Power) :
    (s.modPower f).cores = s.cores := rfl
@[simp] theorem State.modPower_td0 (s : State) (f : Power → Power) :
    (s.modPower f).td0 = s.td0 := rfl
@[simp] theorem State.modPower_td1 (s : State) (f : Power → Power) :
    (s.modPower f).td1 = s.td1 := rfl
@[simp] theorem State.modPower_ports (s : State) (f : Power → Power) :
    (s.modPower f).ports = s.ports := rfl
@[simp] theorem State.modPower_sds (s : State) (f : Power → Power) :
    (s.modPower f).sds = s.sds := rfl
@[simp] theorem State.modPower_heddle (s : State) (f : Power → Power) :
    (s.modPower f).heddle = s.heddle := rfl
@[simp] theorem State.modPower_overseer (s : State) (f : Power → Power) :
    (s.modPower f).overseer = s.overseer := rfl
@[simp] theorem State.modPower_temple (s : State) (f : Power → Power) :
    (s.modPower f).temple = s.temple := rfl
@[simp] theorem State.modPower_power (s : State) (f : Power → Power) :
    (s.modPower f).power = f s.power := rfl
@[simp] theorem State.modPower_pins (s : State) (f : Power → Power) :
    (s.modPower f).pins = s.pins := rfl
@[simp] theorem State.modPower_jtag (s : State) (f : Power → Power) :
    (s.modPower f).jtag = s.jtag := rfl
@[simp] theorem State.modPower_tallies (s : State) (f : Power → Power) :
    (s.modPower f).tallies = s.tallies := rfl
@[simp] theorem State.modPower_logs (s : State) (f : Power → Power) :
    (s.modPower f).logs = s.logs := rfl
@[simp] theorem State.modPower_statusDue (s : State) (f : Power → Power) :
    (s.modPower f).statusDue = s.statusDue := rfl
@[simp] theorem State.modPower_out (s : State) (f : Power → Power) :
    (s.modPower f).out = s.out := rfl
@[simp] theorem State.modPower_free (s : State) (f : Power → Power) :
    (s.modPower f).free = s.free := rfl

@[simp] theorem State.setTd_pending (s : State) (td : Td) (t : Treadle) : (s.setTd td t).pending = s.pending := by
  unfold State.setTd; split <;> rfl
@[simp] theorem State.setTd_regs (s : State) (td : Td) (t : Treadle) : (s.setTd td t).regs = s.regs := by
  unfold State.setTd; split <;> rfl
@[simp] theorem State.setTd_mem (s : State) (td : Td) (t : Treadle) : (s.setTd td t).mem = s.mem := by
  unfold State.setTd; split <;> rfl
@[simp] theorem State.setTd_badPar (s : State) (td : Td) (t : Treadle) : (s.setTd td t).badPar = s.badPar := by
  unfold State.setTd; split <;> rfl
@[simp] theorem State.setTd_undefs (s : State) (td : Td) (t : Treadle) : (s.setTd td t).undefs = s.undefs := by
  unfold State.setTd; split <;> rfl
@[simp] theorem State.setTd_low (s : State) (td : Td) (t : Treadle) : (s.setTd td t).low = s.low := by
  unfold State.setTd; split <;> rfl
@[simp] theorem State.setTd_latches (s : State) (td : Td) (t : Treadle) : (s.setTd td t).latches = s.latches := by
  unfold State.setTd; split <;> rfl
@[simp] theorem State.setTd_cores (s : State) (td : Td) (t : Treadle) : (s.setTd td t).cores = s.cores := by
  unfold State.setTd; split <;> rfl
@[simp] theorem State.setTd_ports (s : State) (td : Td) (t : Treadle) : (s.setTd td t).ports = s.ports := by
  unfold State.setTd; split <;> rfl
@[simp] theorem State.setTd_sds (s : State) (td : Td) (t : Treadle) : (s.setTd td t).sds = s.sds := by
  unfold State.setTd; split <;> rfl
@[simp] theorem State.setTd_heddle (s : State) (td : Td) (t : Treadle) : (s.setTd td t).heddle = s.heddle := by
  unfold State.setTd; split <;> rfl
@[simp] theorem State.setTd_overseer (s : State) (td : Td) (t : Treadle) : (s.setTd td t).overseer = s.overseer := by
  unfold State.setTd; split <;> rfl
@[simp] theorem State.setTd_temple (s : State) (td : Td) (t : Treadle) : (s.setTd td t).temple = s.temple := by
  unfold State.setTd; split <;> rfl
@[simp] theorem State.setTd_power (s : State) (td : Td) (t : Treadle) : (s.setTd td t).power = s.power := by
  unfold State.setTd; split <;> rfl
@[simp] theorem State.setTd_pins (s : State) (td : Td) (t : Treadle) : (s.setTd td t).pins = s.pins := by
  unfold State.setTd; split <;> rfl
@[simp] theorem State.setTd_jtag (s : State) (td : Td) (t : Treadle) : (s.setTd td t).jtag = s.jtag := by
  unfold State.setTd; split <;> rfl
@[simp] theorem State.setTd_tallies (s : State) (td : Td) (t : Treadle) : (s.setTd td t).tallies = s.tallies := by
  unfold State.setTd; split <;> rfl
@[simp] theorem State.setTd_logs (s : State) (td : Td) (t : Treadle) : (s.setTd td t).logs = s.logs := by
  unfold State.setTd; split <;> rfl
@[simp] theorem State.setTd_statusDue (s : State) (td : Td) (t : Treadle) : (s.setTd td t).statusDue = s.statusDue := by
  unfold State.setTd; split <;> rfl
@[simp] theorem State.setTd_out (s : State) (td : Td) (t : Treadle) : (s.setTd td t).out = s.out := by
  unfold State.setTd; split <;> rfl
@[simp] theorem State.setTd_free (s : State) (td : Td) (t : Treadle) : (s.setTd td t).free = s.free := by
  unfold State.setTd; split <;> rfl
@[simp] theorem State.setTd_td0 (s : State) (td : Td) (t : Treadle) : (s.setTd td t).td0 = if td = 0 then t else s.td0 := by
  unfold State.setTd; split <;> rfl
@[simp] theorem State.setTd_td1 (s : State) (td : Td) (t : Treadle) : (s.setTd td t).td1 = if td = 0 then s.td1 else t := by
  unfold State.setTd; split <;> rfl

end Sys2Proof.Machine
end

