-- ==== Sys2Proof/Laws/Ops.lean ====
section
/-! SUPPORT. What each named operation of Machine/Ops.lean reads back: a register after a register write, a table entry after
an update, and everything else unchanged. A proof about a meaning cites these and unfolds none of the operations. -/

namespace Sys2Proof.Machine

/-! ## Reads of what was written -/

/-- A register after a register write. -/
theorem State.setReg_getReg (s : State) (a b : Nat) (v : Dword) :
    (s.setReg a v).getReg b = if b = a then v else s.getReg b := sget_sset _ _ _ _ _
@[simp] theorem State.setReg_getReg_self (s : State) (a : Nat) (v : Dword) : (s.setReg a v).getReg a = v := by
  simp [State.setReg_getReg]
/-- A register after a write of another. -/
theorem State.setReg_getReg_ne (s : State) {a b : Nat} (v : Dword) (h : b ≠ a) : (s.setReg a v).getReg b = s.getReg b := by
  simp [State.setReg_getReg, h]
/-- A register after a change of a register. -/
theorem State.modReg_getReg (s : State) (a b : Nat) (f : Dword → Dword) :
    (s.modReg a f).getReg b = if b = a then f (s.getReg a) else s.getReg b := State.setReg_getReg _ _ _ _
/-- A register after a saturating count. -/
theorem State.count_getReg (s : State) (a n b : Nat) :
    (s.count a n).getReg b = if b = a then (if n = 0 then s.getReg a else satAdd (s.getReg a) n) else s.getReg b := by
  unfold State.count
  by_cases hn : n = 0
  · by_cases hb : b = a <;> simp [hn, hb]
  · by_cases hb : b = a <;> simp [hn, hb, State.modReg_getReg]
/-- A register after a wrapping count. -/
theorem State.countWrap_getReg (s : State) (a n b : Nat) :
    (s.countWrap a n).getReg b =
      if b = a then BitVec.ofNat 64 (((s.getReg a).toNat + n) % 2 ^ 32) else s.getReg b := State.modReg_getReg _ _ _ _
/-- A core register after a core register write. -/
theorem State.setCreg_getReg (s : State) (g : CoreId) (o b : Nat) (v : Dword) :
    (s.setCreg g o v).getReg b = if b = coreReg g o then v else s.getReg b := State.setReg_getReg _ _ _ _
/-- A register after a core counter is raised. -/
theorem State.ccount_getReg (s : State) (g : CoreId) (o n b : Nat) :
    (s.ccount g o n).getReg b =
      if b = coreReg g o then (if n = 0 then s.getReg b else satAdd (s.getReg b) n) else s.getReg b := by
  unfold State.ccount
  rw [State.count_getReg]; split <;> simp_all
/-- Registers of one core at different offsets are different. -/
theorem coreReg_ne {g : CoreId} {o p : Nat} (h : o ≠ p) : coreReg g o ≠ coreReg g p := by unfold coreReg; omega
/-- A core register is not a register of the package dies (offsets inside the register window). -/
theorem coreReg_ne_of_ge {g : CoreId} {o a : Nat} (ho : o < 0x10000) (ha : 0xC0000000 ≤ a) : coreReg g o ≠ a := by
  have := g.isLt
  unfold coreReg regBase auxBase
  omega
/-- Core registers of different cores are different. -/
theorem coreReg_inj {g h : CoreId} {o p : Nat} (ho : o < 0x10000) (hp : p < 0x10000) (e : coreReg g o = coreReg h p) :
    g = h ∧ o = p := by
  unfold coreReg regBase auxBase at e
  refine ⟨BitVec.eq_of_toNat_eq ?_, ?_⟩ <;> omega

/-- A core after an update of a core. -/
theorem State.setCore_core (s : State) (g h : CoreId) (c : Core) :
    (s.setCore g c).core h = if h = g then c else s.core h := by
  unfold State.setCore State.core
  rw [sget_sset]
  by_cases e : h = g
  · simp [e]
  · have : h.toNat ≠ g.toNat := fun k => e (BitVec.eq_of_toNat_eq k)
    simp [e, this]
@[simp] theorem State.setCore_core_self (s : State) (g : CoreId) (c : Core) : (s.setCore g c).core g = c := by
  simp [State.setCore_core]
/-- A core after a change of a core. -/
theorem State.modCore_core (s : State) (g h : CoreId) (f : Core → Core) :
    (s.modCore g f).core h = if h = g then f (s.core g) else s.core h := State.setCore_core _ _ _ _
@[simp] theorem State.modCore_core_self (s : State) (g : CoreId) (f : Core → Core) : (s.modCore g f).core g = f (s.core g) := by
  simp [State.modCore_core]
/-- A Treadle die after an update of a Treadle die. -/
theorem State.setTd_td (s : State) (a b : Td) (t : Treadle) : (s.setTd a t).td b = if b = a then t else s.td b := by
  unfold State.td
  match a, b with
  | 0, 0 => rfl
  | 0, 1 => rfl
  | 1, 0 => rfl
  | 1, 1 => rfl
@[simp] theorem State.setTd_td_self (s : State) (a : Td) (t : Treadle) : (s.setTd a t).td a = t := by
  simp [State.setTd_td]
/-- A spool after an update of a spool. -/
theorem State.setSpool_spool (s : State) (a b : Td) (i j : SpoolId) (x : Spool) :
    (s.setSpool a i x).spool b j = if b = a ∧ j = i then x else s.spool b j := by
  unfold State.setSpool State.spool
  rw [State.setTd_td]
  by_cases hb : b = a
  · subst hb
    simp only [if_true, true_and]
    rw [sget_sset]
    by_cases hj : j = i
    · simp [hj]
    · have : j.val ≠ i.val := fun k => hj (Fin.ext k)
      simp [hj, this]
  · simp [hb]
@[simp] theorem State.setSpool_spool_self (s : State) (a : Td) (i : SpoolId) (x : Spool) :
    (s.setSpool a i x).spool a i = x := by simp [State.setSpool_spool]
/-- A function after an update of a function. -/
theorem State.setFn_fn (s : State) (a b : Td) (f h : Fn) (x : PcieFn) :
    (s.setFn a f x).fn b h = if b = a ∧ h = f then x else s.fn b h := by
  unfold State.setFn State.fn
  rw [State.setTd_td]
  by_cases hb : b = a
  · subst hb
    simp only [if_true, true_and]
    match f, h with
    | 0, 0 => rfl
    | 0, 1 => rfl
    | 1, 0 => rfl
    | 1, 1 => rfl
  · simp [hb]
@[simp] theorem State.setFn_fn_self (s : State) (a : Td) (f : Fn) (x : PcieFn) : (s.setFn a f x).fn a f = x := by
  simp [State.setFn_fn]
/-- A port after an update of a port. -/
theorem State.setPort_port (s : State) (p q : PortId) (x : Port) :
    (s.setPort p x).port q = if q = p then x else s.port q := by
  unfold State.setPort State.port
  rw [sget_sset]
  by_cases e : q = p
  · simp [e]
  · have : q.val ≠ p.val := fun k => e (Fin.ext k)
    simp [e, this]
@[simp] theorem State.setPort_port_self (s : State) (p : PortId) (x : Port) : (s.setPort p x).port p = x := by
  simp [State.setPort_port]
/-- A Selvedge die after an update of a Selvedge die. -/
theorem State.setSd_sd (s : State) (p q : Sd) (x : Selvedge) : (s.setSd p x).sd q = if q = p then x else s.sd q := by
  unfold State.setSd State.sd
  rw [sget_sset]
  by_cases e : q = p
  · simp [e]
  · have : q.val ≠ p.val := fun k => e (Fin.ext k)
    simp [e, this]
/-- A die's log logic after an update of a die's log logic. -/
theorem State.setLog_log (s : State) (p q : LogDie) (x : DieLog) : (s.setLog p x).log q = if q = p then x else s.log q := by
  unfold State.setLog State.log
  rw [sget_sset]
  by_cases e : q = p
  · simp [e]
  · have : q.val ≠ p.val := fun k => e (Fin.ext k)
    simp [e, this]
@[simp] theorem State.setLog_log_self (s : State) (p : LogDie) (x : DieLog) : (s.setLog p x).log p = x := by
  simp [State.setLog_log]
/-- A stored byte after a store. -/
theorem State.putByte_rawByte (s : State) (a b : Nat) (v : Byte) :
    (s.putByte a v).rawByte b = if b = a then v else s.rawByte b := sget_sset _ _ _ _ _
/-- An event is appended to its die's events of the ns. -/
theorem State.logEvent_log (s : State) (d e : LogDie) (src code aux : Nat) (data : Dword) :
    (s.logEvent d src code aux data).log e =
      if e = d then
        { s.log d with now := (s.log d).now ++ [⟨s.getReg 0xC2000000, BitVec.ofNat 16 code, BitVec.ofNat 16 src, s.pickNum,
          s.pickEpoch, BitVec.ofNat 16 aux, data⟩] }
      else s.log e := State.setLog_log _ _ _ _

/-! ## What an operation does not touch -/

@[simp] theorem State.setReg_core (s : State) (a : Nat) (v : Dword) (h : CoreId) :
    (s.setReg a v).core h = s.core h := rfl
@[simp] theorem State.setReg_td (s : State) (a : Nat) (v : Dword) (b : Td) :
    (s.setReg a v).td b = s.td b := rfl
@[simp] theorem State.setReg_spool (s : State) (a : Nat) (v : Dword) (b : Td) (j : SpoolId) :
    (s.setReg a v).spool b j = s.spool b j := rfl
@[simp] theorem State.setReg_fn (s : State) (a : Nat) (v : Dword) (b : Td) (j : Fn) :
    (s.setReg a v).fn b j = s.fn b j := rfl
@[simp] theorem State.setReg_port (s : State) (a : Nat) (v : Dword) (q : PortId) :
    (s.setReg a v).port q = s.port q := rfl
@[simp] theorem State.setReg_sd (s : State) (a : Nat) (v : Dword) (q : Sd) :
    (s.setReg a v).sd q = s.sd q := rfl
@[simp] theorem State.setReg_log (s : State) (a : Nat) (v : Dword) (q : LogDie) :
    (s.setReg a v).log q = s.log q := rfl
@[simp] theorem State.setReg_tally (s : State) (a : Nat) (v : Dword) (q : Die) (m : TallyNo) :
    (s.setReg a v).tally q m = s.tally q m := rfl
@[simp] theorem State.setReg_rawByte (s : State) (a : Nat) (v : Dword) (b : Nat) :
    (s.setReg a v).rawByte b = s.rawByte b := rfl

@[simp] theorem State.setCore_getReg (s : State) (g : CoreId) (c : Core) (b : Nat) :
    (s.setCore g c).getReg b = s.getReg b := rfl
@[simp] theorem State.setCore_td (s : State) (g : CoreId) (c : Core) (b : Td) :
    (s.setCore g c).td b = s.td b := rfl
@[simp] theorem State.setCore_spool (s : State) (g : CoreId) (c : Core) (b : Td) (j : SpoolId) :
    (s.setCore g c).spool b j = s.spool b j := rfl
@[simp] theorem State.setCore_fn (s : State) (g : CoreId) (c : Core) (b : Td) (j : Fn) :
    (s.setCore g c).fn b j = s.fn b j := rfl
@[simp] theorem State.setCore_port (s : State) (g : CoreId) (c : Core) (q : PortId) :
    (s.setCore g c).port q = s.port q := rfl
@[simp] theorem State.setCore_sd (s : State) (g : CoreId) (c : Core) (q : Sd) :
    (s.setCore g c).sd q = s.sd q := rfl
@[simp] theorem State.setCore_log (s : State) (g : CoreId) (c : Core) (q : LogDie) :
    (s.setCore g c).log q = s.log q := rfl
@[simp] theorem State.setCore_tally (s : State) (g : CoreId) (c : Core) (q : Die) (m : TallyNo) :
    (s.setCore g c).tally q m = s.tally q m := rfl
@[simp] theorem State.setCore_rawByte (s : State) (g : CoreId) (c : Core) (b : Nat) :
    (s.setCore g c).rawByte b = s.rawByte b := rfl

@[simp] theorem State.setPort_getReg (s : State) (p : PortId) (x : Port) (b : Nat) :
    (s.setPort p x).getReg b = s.getReg b := rfl
@[simp] theorem State.setPort_core (s : State) (p : PortId) (x : Port) (h : CoreId) :
    (s.setPort p x).core h = s.core h := rfl
@[simp] theorem State.setPort_td (s : State) (p : PortId) (x : Port) (b : Td) :
    (s.setPort p x).td b = s.td b := rfl
@[simp] theorem State.setPort_spool (s : State) (p : PortId) (x : Port) (b : Td) (j : SpoolId) :
    (s.setPort p x).spool b j = s.spool b j := rfl
@[simp] theorem State.setPort_fn (s : State) (p : PortId) (x : Port) (b : Td) (j : Fn) :
    (s.setPort p x).fn b j = s.fn b j := rfl
@[simp] theorem State.setPort_sd (s : State) (p : PortId) (x : Port) (q : Sd) :
    (s.setPort p x).sd q = s.sd q := rfl
@[simp] theorem State.setPort_log (s : State) (p : PortId) (x : Port) (q : LogDie) :
    (s.setPort p x).log q = s.log q := rfl
@[simp] theorem State.setPort_tally (s : State) (p : PortId) (x : Port) (q : Die) (m : TallyNo) :
    (s.setPort p x).tally q m = s.tally q m := rfl
@[simp] theorem State.setPort_rawByte (s : State) (p : PortId) (x : Port) (b : Nat) :
    (s.setPort p x).rawByte b = s.rawByte b := rfl

@[simp] theorem State.setSd_getReg (s : State) (n : Sd) (x : Selvedge) (b : Nat) :
    (s.setSd n x).getReg b = s.getReg b := rfl
@[simp] theorem State.setSd_core (s : State) (n : Sd) (x : Selvedge) (h : CoreId) :
    (s.setSd n x).core h = s.core h := rfl
@[simp] theorem State.setSd_td (s : State) (n : Sd) (x : Selvedge) (b : Td) :
    (s.setSd n x).td b = s.td b := rfl
@[simp] theorem State.setSd_spool (s : State) (n : Sd) (x : Selvedge) (b : Td) (j : SpoolId) :
    (s.setSd n x).spool b j = s.spool b j := rfl
@[simp] theorem State.setSd_fn (s : State) (n : Sd) (x : Selvedge) (b : Td) (j : Fn) :
    (s.setSd n x).fn b j = s.fn b j := rfl
@[simp] theorem State.setSd_port (s : State) (n : Sd) (x : Selvedge) (q : PortId) :
    (s.setSd n x).port q = s.port q := rfl
@[simp] theorem State.setSd_log (s : State) (n : Sd) (x : Selvedge) (q : LogDie) :
    (s.setSd n x).log q = s.log q := rfl
@[simp] theorem State.setSd_tally (s : State) (n : Sd) (x : Selvedge) (q : Die) (m : TallyNo) :
    (s.setSd n x).tally q m = s.tally q m := rfl
@[simp] theorem State.setSd_rawByte (s : State) (n : Sd) (x : Selvedge) (b : Nat) :
    (s.setSd n x).rawByte b = s.rawByte b := rfl

@[simp] theorem State.setLog_getReg (s : State) (d : LogDie) (x : DieLog) (b : Nat) :
    (s.setLog d x).getReg b = s.getReg b := rfl
@[simp] theorem State.setLog_core (s : State) (d : LogDie) (x : DieLog) (h : CoreId) :
    (s.setLog d x).core h = s.core h := rfl
@[simp] theorem State.setLog_td (s : State) (d : LogDie) (x : DieLog) (b : Td) :
    (s.setLog d x).td b = s.td b := rfl
@[simp] theorem State.setLog_spool (s : State) (d : LogDie) (x : DieLog) (b : Td) (j : SpoolId) :
    (s.setLog d x).spool b j = s.spool b j := rfl
@[simp] theorem State.setLog_fn (s : State) (d : LogDie) (x : DieLog) (b : Td) (j : Fn) :
    (s.setLog d x).fn b j = s.fn b j := rfl
@[simp] theorem State.setLog_port (s : State) (d : LogDie) (x : DieLog) (q : PortId) :
    (s.setLog d x).port q = s.port q := rfl
@[simp] theorem State.setLog_sd (s : State) (d : LogDie) (x : DieLog) (q : Sd) :
    (s.setLog d x).sd q = s.sd q := rfl
@[simp] theorem State.setLog_tally (s : State) (d : LogDie) (x : DieLog) (q : Die) (m : TallyNo) :
    (s.setLog d x).tally q m = s.tally q m := rfl
@[simp] theorem State.setLog_rawByte (s : State) (d : LogDie) (x : DieLog) (b : Nat) :
    (s.setLog d x).rawByte b = s.rawByte b := rfl

@[simp] theorem State.setTally_getReg (s : State) (d : Die) (n : TallyNo) (x : TallyPass) (b : Nat) :
    (s.setTally d n x).getReg b = s.getReg b := rfl
@[simp] theorem State.setTally_core (s : State) (d : Die) (n : TallyNo) (x : TallyPass) (h : CoreId) :
    (s.setTally d n x).core h = s.core h := rfl
@[simp] theorem State.setTally_td (s : State) (d : Die) (n : TallyNo) (x : TallyPass) (b : Td) :
    (s.setTally d n x).td b = s.td b := rfl
@[simp] theorem State.setTally_spool (s : State) (d : Die) (n : TallyNo) (x : TallyPass) (b : Td) (j : SpoolId) :
    (s.setTally d n x).spool b j = s.spool b j := rfl
@[simp] theorem State.setTally_fn (s : State) (d : Die) (n : TallyNo) (x : TallyPass) (b : Td) (j : Fn) :
    (s.setTally d n x).fn b j = s.fn b j := rfl
@[simp] theorem State.setTally_port (s : State) (d : Die) (n : TallyNo) (x : TallyPass) (q : PortId) :
    (s.setTally d n x).port q = s.port q := rfl
@[simp] theorem State.setTally_sd (s : State) (d : Die) (n : TallyNo) (x : TallyPass) (q : Sd) :
    (s.setTally d n x).sd q = s.sd q := rfl
@[simp] theorem State.setTally_log (s : State) (d : Die) (n : TallyNo) (x : TallyPass) (q : LogDie) :
    (s.setTally d n x).log q = s.log q := rfl
@[simp] theorem State.setTally_rawByte (s : State) (d : Die) (n : TallyNo) (x : TallyPass) (b : Nat) :
    (s.setTally d n x).rawByte b = s.rawByte b := rfl

@[simp] theorem State.emit_getReg (s : State) (o : Output) (b : Nat) :
    (s.emit o).getReg b = s.getReg b := rfl
@[simp] theorem State.emit_core (s : State) (o : Output) (h : CoreId) :
    (s.emit o).core h = s.core h := rfl
@[simp] theorem State.emit_td (s : State) (o : Output) (b : Td) :
    (s.emit o).td b = s.td b := rfl
@[simp] theorem State.emit_spool (s : State) (o : Output) (b : Td) (j : SpoolId) :
    (s.emit o).spool b j = s.spool b j := rfl
@[simp] theorem State.emit_fn (s : State) (o : Output) (b : Td) (j : Fn) :
    (s.emit o).fn b j = s.fn b j := rfl
@[simp] theorem State.emit_port (s : State) (o : Output) (q : PortId) :
    (s.emit o).port q = s.port q := rfl
@[simp] theorem State.emit_sd (s : State) (o : Output) (q : Sd) :
    (s.emit o).sd q = s.sd q := rfl
@[simp] theorem State.emit_log (s : State) (o : Output) (q : LogDie) :
    (s.emit o).log q = s.log q := rfl
@[simp] theorem State.emit_tally (s : State) (o : Output) (q : Die) (m : TallyNo) :
    (s.emit o).tally q m = s.tally q m := rfl
@[simp] theorem State.emit_rawByte (s : State) (o : Output) (b : Nat) :
    (s.emit o).rawByte b = s.rawByte b := rfl

@[simp] theorem State.nextFree_getReg (s : State) (b : Nat) :
    (s.nextFree).getReg b = s.getReg b := rfl
@[simp] theorem State.nextFree_core (s : State) (h : CoreId) :
    (s.nextFree).core h = s.core h := rfl
@[simp] theorem State.nextFree_td (s : State) (b : Td) :
    (s.nextFree).td b = s.td b := rfl
@[simp] theorem State.nextFree_spool (s : State) (b : Td) (j : SpoolId) :
    (s.nextFree).spool b j = s.spool b j := rfl
@[simp] theorem State.nextFree_fn (s : State) (b : Td) (j : Fn) :
    (s.nextFree).fn b j = s.fn b j := rfl
@[simp] theorem State.nextFree_port (s : State) (q : PortId) :
    (s.nextFree).port q = s.port q := rfl
@[simp] theorem State.nextFree_sd (s : State) (q : Sd) :
    (s.nextFree).sd q = s.sd q := rfl
@[simp] theorem State.nextFree_log (s : State) (q : LogDie) :
    (s.nextFree).log q = s.log q := rfl
@[simp] theorem State.nextFree_tally (s : State) (q : Die) (m : TallyNo) :
    (s.nextFree).tally q m = s.tally q m := rfl
@[simp] theorem State.nextFree_rawByte (s : State) (b : Nat) :
    (s.nextFree).rawByte b = s.rawByte b := rfl

@[simp] theorem State.putByte_getReg (s : State) (a : Nat) (v : Byte) (b : Nat) :
    (s.putByte a v).getReg b = s.getReg b := rfl
@[simp] theorem State.putByte_core (s : State) (a : Nat) (v : Byte) (h : CoreId) :
    (s.putByte a v).core h = s.core h := rfl
@[simp] theorem State.putByte_td (s : State) (a : Nat) (v : Byte) (b : Td) :
    (s.putByte a v).td b = s.td b := rfl
@[simp] theorem State.putByte_spool (s : State) (a : Nat) (v : Byte) (b : Td) (j : SpoolId) :
    (s.putByte a v).spool b j = s.spool b j := rfl
@[simp] theorem State.putByte_fn (s : State) (a : Nat) (v : Byte) (b : Td) (j : Fn) :
    (s.putByte a v).fn b j = s.fn b j := rfl
@[simp] theorem State.putByte_port (s : State) (a : Nat) (v : Byte) (q : PortId) :
    (s.putByte a v).port q = s.port q := rfl
@[simp] theorem State.putByte_sd (s : State) (a : Nat) (v : Byte) (q : Sd) :
    (s.putByte a v).sd q = s.sd q := rfl
@[simp] theorem State.putByte_log (s : State) (a : Nat) (v : Byte) (q : LogDie) :
    (s.putByte a v).log q = s.log q := rfl
@[simp] theorem State.putByte_tally (s : State) (a : Nat) (v : Byte) (q : Die) (m : TallyNo) :
    (s.putByte a v).tally q m = s.tally q m := rfl

@[simp] theorem State.setPar_getReg (s : State) (a : Nat) (bad : Bool) (b : Nat) :
    (s.setPar a bad).getReg b = s.getReg b := rfl
@[simp] theorem State.setPar_core (s : State) (a : Nat) (bad : Bool) (h : CoreId) :
    (s.setPar a bad).core h = s.core h := rfl
@[simp] theorem State.setPar_td (s : State) (a : Nat) (bad : Bool) (b : Td) :
    (s.setPar a bad).td b = s.td b := rfl
@[simp] theorem State.setPar_spool (s : State) (a : Nat) (bad : Bool) (b : Td) (j : SpoolId) :
    (s.setPar a bad).spool b j = s.spool b j := rfl
@[simp] theorem State.setPar_fn (s : State) (a : Nat) (bad : Bool) (b : Td) (j : Fn) :
    (s.setPar a bad).fn b j = s.fn b j := rfl
@[simp] theorem State.setPar_port (s : State) (a : Nat) (bad : Bool) (q : PortId) :
    (s.setPar a bad).port q = s.port q := rfl
@[simp] theorem State.setPar_sd (s : State) (a : Nat) (bad : Bool) (q : Sd) :
    (s.setPar a bad).sd q = s.sd q := rfl
@[simp] theorem State.setPar_log (s : State) (a : Nat) (bad : Bool) (q : LogDie) :
    (s.setPar a bad).log q = s.log q := rfl
@[simp] theorem State.setPar_tally (s : State) (a : Nat) (bad : Bool) (q : Die) (m : TallyNo) :
    (s.setPar a bad).tally q m = s.tally q m := rfl
@[simp] theorem State.setPar_rawByte (s : State) (a : Nat) (bad : Bool) (b : Nat) :
    (s.setPar a bad).rawByte b = s.rawByte b := rfl

@[simp] theorem State.modHeddle_getReg (s : State) (f : Heddle → Heddle) (b : Nat) :
    (s.modHeddle f).getReg b = s.getReg b := rfl
@[simp] theorem State.modHeddle_core (s : State) (f : Heddle → Heddle) (h : CoreId) :
    (s.modHeddle f).core h = s.core h := rfl
@[simp] theorem State.modHeddle_td (s : State) (f : Heddle → Heddle) (b : Td) :
    (s.modHeddle f).td b = s.td b := rfl
@[simp] theorem State.modHeddle_spool (s : State) (f : Heddle → Heddle) (b : Td) (j : SpoolId) :
    (s.modHeddle f).spool b j = s.spool b j := rfl
@[simp] theorem State.modHeddle_fn (s : State) (f : Heddle → Heddle) (b : Td) (j : Fn) :
    (s.modHeddle f).fn b j = s.fn b j := rfl
@[simp] theorem State.modHeddle_port (s : State) (f : Heddle → Heddle) (q : PortId) :
    (s.modHeddle f).port q = s.port q := rfl
@[simp] theorem State.modHeddle_sd (s : State) (f : Heddle → Heddle) (q : Sd) :
    (s.modHeddle f).sd q = s.sd q := rfl
@[simp] theorem State.modHeddle_log (s : State) (f : Heddle → Heddle) (q : LogDie) :
    (s.modHeddle f).log q = s.log q := rfl
@[simp] theorem State.modHeddle_tally (s : State) (f : Heddle → Heddle) (q : Die) (m : TallyNo) :
    (s.modHeddle f).tally q m = s.tally q m := rfl
@[simp] theorem State.modHeddle_rawByte (s : State) (f : Heddle → Heddle) (b : Nat) :
    (s.modHeddle f).rawByte b = s.rawByte b := rfl

@[simp] theorem State.modPower_getReg (s : State) (f : Power → Power) (b : Nat) :
    (s.modPower f).getReg b = s.getReg b := rfl
@[simp] theorem State.modPower_core (s : State) (f : Power → Power) (h : CoreId) :
    (s.modPower f).core h = s.core h := rfl
@[simp] theorem State.modPower_td (s : State) (f : Power → Power) (b : Td) :
    (s.modPower f).td b = s.td b := rfl
@[simp] theorem State.modPower_spool (s : State) (f : Power → Power) (b : Td) (j : SpoolId) :
    (s.modPower f).spool b j = s.spool b j := rfl
@[simp] theorem State.modPower_fn (s : State) (f : Power → Power) (b : Td) (j : Fn) :
    (s.modPower f).fn b j = s.fn b j := rfl
@[simp] theorem State.modPower_port (s : State) (f : Power → Power) (q : PortId) :
    (s.modPower f).port q = s.port q := rfl
@[simp] theorem State.modPower_sd (s : State) (f : Power → Power) (q : Sd) :
    (s.modPower f).sd q = s.sd q := rfl
@[simp] theorem State.modPower_log (s : State) (f : Power → Power) (q : LogDie) :
    (s.modPower f).log q = s.log q := rfl
@[simp] theorem State.modPower_tally (s : State) (f : Power → Power) (q : Die) (m : TallyNo) :
    (s.modPower f).tally q m = s.tally q m := rfl
@[simp] theorem State.modPower_rawByte (s : State) (f : Power → Power) (b : Nat) :
    (s.modPower f).rawByte b = s.rawByte b := rfl

@[simp] theorem State.setTd_getReg (s : State) (d : Td) (t : Treadle) (b : Nat) :
    (s.setTd d t).getReg b = s.getReg b := by
  unfold State.setTd; split <;> rfl
@[simp] theorem State.setTd_core (s : State) (d : Td) (t : Treadle) (h : CoreId) :
    (s.setTd d t).core h = s.core h := by
  unfold State.setTd; split <;> rfl
@[simp] theorem State.setTd_port (s : State) (d : Td) (t : Treadle) (q : PortId) :
    (s.setTd d t).port q = s.port q := by
  unfold State.setTd; split <;> rfl
@[simp] theorem State.setTd_sd (s : State) (d : Td) (t : Treadle) (q : Sd) :
    (s.setTd d t).sd q = s.sd q := by
  unfold State.setTd; split <;> rfl
@[simp] theorem State.setTd_log (s : State) (d : Td) (t : Treadle) (q : LogDie) :
    (s.setTd d t).log q = s.log q := by
  unfold State.setTd; split <;> rfl
@[simp] theorem State.setTd_tally (s : State) (d : Td) (t : Treadle) (q : Die) (m : TallyNo) :
    (s.setTd d t).tally q m = s.tally q m := by
  unfold State.setTd; split <;> rfl
@[simp] theorem State.setTd_rawByte (s : State) (d : Td) (t : Treadle) (b : Nat) :
    (s.setTd d t).rawByte b = s.rawByte b := by
  unfold State.setTd; split <;> rfl

@[simp] theorem State.modReg_core (s : State) (a : Nat) (f : Dword → Dword) (h : CoreId) :
    (s.modReg a f).core h = s.core h := rfl
@[simp] theorem State.modReg_td (s : State) (a : Nat) (f : Dword → Dword) (b : Td) :
    (s.modReg a f).td b = s.td b := rfl
@[simp] theorem State.modReg_spool (s : State) (a : Nat) (f : Dword → Dword) (b : Td) (j : SpoolId) :
    (s.modReg a f).spool b j = s.spool b j := rfl
@[simp] theorem State.modReg_fn (s : State) (a : Nat) (f : Dword → Dword) (b : Td) (j : Fn) :
    (s.modReg a f).fn b j = s.fn b j := rfl
@[simp] theorem State.modReg_port (s : State) (a : Nat) (f : Dword → Dword) (q : PortId) :
    (s.modReg a f).port q = s.port q := rfl
@[simp] theorem State.modReg_sd (s : State) (a : Nat) (f : Dword → Dword) (q : Sd) :
    (s.modReg a f).sd q = s.sd q := rfl
@[simp] theorem State.modReg_log (s : State) (a : Nat) (f : Dword → Dword) (q : LogDie) :
    (s.modReg a f).log q = s.log q := rfl
@[simp] theorem State.modReg_tally (s : State) (a : Nat) (f : Dword → Dword) (q : Die) (m : TallyNo) :
    (s.modReg a f).tally q m = s.tally q m := rfl
@[simp] theorem State.modReg_rawByte (s : State) (a : Nat) (f : Dword → Dword) (b : Nat) :
    (s.modReg a f).rawByte b = s.rawByte b := rfl
@[simp] theorem State.modReg_pending (s : State) (a : Nat) (f : Dword → Dword) :
    (s.modReg a f).pending = s.pending := rfl
@[simp] theorem State.modReg_mem (s : State) (a : Nat) (f : Dword → Dword) :
    (s.modReg a f).mem = s.mem := rfl
@[simp] theorem State.modReg_badPar (s : State) (a : Nat) (f : Dword → Dword) :
    (s.modReg a f).badPar = s.badPar := rfl
@[simp] theorem State.modReg_undefs (s : State) (a : Nat) (f : Dword → Dword) :
    (s.modReg a f).undefs = s.undefs := rfl
@[simp] theorem State.modReg_low (s : State) (a : Nat) (f : Dword → Dword) :
    (s.modReg a f).low = s.low := rfl
@[simp] theorem State.modReg_latches (s : State) (a : Nat) (f : Dword → Dword) :
    (s.modReg a f).latches = s.latches := rfl
@[simp] theorem State.modReg_cores (s : State) (a : Nat) (f : Dword → Dword) :
    (s.modReg a f).cores = s.cores := rfl
@[simp] theorem State.modReg_td0 (s : State) (a : Nat) (f : Dword → Dword) :
    (s.modReg a f).td0 = s.td0 := rfl
@[simp] theorem State.modReg_td1 (s : State) (a : Nat) (f : Dword → Dword) :
    (s.modReg a f).td1 = s.td1 := rfl
@[simp] theorem State.modReg_ports (s : State) (a : Nat) (f : Dword → Dword) :
    (s.modReg a f).ports = s.ports := rfl
@[simp] theorem State.modReg_sds (s : State) (a : Nat) (f : Dword → Dword) :
    (s.modReg a f).sds = s.sds := rfl
@[simp] theorem State.modReg_heddle (s : State) (a : Nat) (f : Dword → Dword) :
    (s.modReg a f).heddle = s.heddle := rfl
@[simp] theorem State.modReg_overseer (s : State) (a : Nat) (f : Dword → Dword) :
    (s.modReg a f).overseer = s.overseer := rfl
@[simp] theorem State.modReg_temple (s : State) (a : Nat) (f : Dword → Dword) :
    (s.modReg a f).temple = s.temple := rfl
@[simp] theorem State.modReg_power (s : State) (a : Nat) (f : Dword → Dword) :
    (s.modReg a f).power = s.power := rfl
@[simp] theorem State.modReg_pins (s : State) (a : Nat) (f : Dword → Dword) :
    (s.modReg a f).pins = s.pins := rfl
@[simp] theorem State.modReg_jtag (s : State) (a : Nat) (f : Dword → Dword) :
    (s.modReg a f).jtag = s.jtag := rfl
@[simp] theorem State.modReg_tallies (s : State) (a : Nat) (f : Dword → Dword) :
    (s.modReg a f).tallies = s.tallies := rfl
@[simp] theorem State.modReg_logs (s : State) (a : Nat) (f : Dword → Dword) :
    (s.modReg a f).logs = s.logs := rfl
@[simp] theorem State.modReg_statusDue (s : State) (a : Nat) (f : Dword → Dword) :
    (s.modReg a f).statusDue = s.statusDue := rfl
@[simp] theorem State.modReg_out (s : State) (a : Nat) (f : Dword → Dword) :
    (s.modReg a f).out = s.out := rfl
@[simp] theorem State.modReg_free (s : State) (a : Nat) (f : Dword → Dword) :
    (s.modReg a f).free = s.free := rfl

@[simp] theorem State.count_core (s : State) (a n : Nat) (h : CoreId) :
    (s.count a n).core h = s.core h := by unfold State.count; split <;> rfl
@[simp] theorem State.count_td (s : State) (a n : Nat) (b : Td) :
    (s.count a n).td b = s.td b := by unfold State.count; split <;> rfl
@[simp] theorem State.count_spool (s : State) (a n : Nat) (b : Td) (j : SpoolId) :
    (s.count a n).spool b j = s.spool b j := by unfold State.count; split <;> rfl
@[simp] theorem State.count_fn (s : State) (a n : Nat) (b : Td) (j : Fn) :
    (s.count a n).fn b j = s.fn b j := by unfold State.count; split <;> rfl
@[simp] theorem State.count_port (s : State) (a n : Nat) (q : PortId) :
    (s.count a n).port q = s.port q := by unfold State.count; split <;> rfl
@[simp] theorem State.count_sd (s : State) (a n : Nat) (q : Sd) :
    (s.count a n).sd q = s.sd q := by unfold State.count; split <;> rfl
@[simp] theorem State.count_log (s : State) (a n : Nat) (q : LogDie) :
    (s.count a n).log q = s.log q := by unfold State.count; split <;> rfl
@[simp] theorem State.count_tally (s : State) (a n : Nat) (q : Die) (m : TallyNo) :
    (s.count a n).tally q m = s.tally q m := by unfold State.count; split <;> rfl
@[simp] theorem State.count_rawByte (s : State) (a n : Nat) (b : Nat) :
    (s.count a n).rawByte b = s.rawByte b := by unfold State.count; split <;> rfl
@[simp] theorem State.count_pending (s : State) (a n : Nat) :
    (s.count a n).pending = s.pending := by unfold State.count; split <;> rfl
@[simp] theorem State.count_mem (s : State) (a n : Nat) :
    (s.count a n).mem = s.mem := by unfold State.count; split <;> rfl
@[simp] theorem State.count_badPar (s : State) (a n : Nat) :
    (s.count a n).badPar = s.badPar := by unfold State.count; split <;> rfl
@[simp] theorem State.count_undefs (s : State) (a n : Nat) :
    (s.count a n).undefs = s.undefs := by unfold State.count; split <;> rfl
@[simp] theorem State.count_low (s : State) (a n : Nat) :
    (s.count a n).low = s.low := by unfold State.count; split <;> rfl
@[simp] theorem State.count_latches (s : State) (a n : Nat) :
    (s.count a n).latches = s.latches := by unfold State.count; split <;> rfl
@[simp] theorem State.count_cores (s : State) (a n : Nat) :
    (s.count a n).cores = s.cores := by unfold State.count; split <;> rfl
@[simp] theorem State.count_td0 (s : State) (a n : Nat) :
    (s.count a n).td0 = s.td0 := by unfold State.count; split <;> rfl
@[simp] theorem State.count_td1 (s : State) (a n : Nat) :
    (s.count a n).td1 = s.td1 := by unfold State.count; split <;> rfl
@[simp] theorem State.count_ports (s : State) (a n : Nat) :
    (s.count a n).ports = s.ports := by unfold State.count; split <;> rfl
@[simp] theorem State.count_sds (s : State) (a n : Nat) :
    (s.count a n).sds = s.sds := by unfold State.count; split <;> rfl
@[simp] theorem State.count_heddle (s : State) (a n : Nat) :
    (s.count a n).heddle = s.heddle := by unfold State.count; split <;> rfl
@[simp] theorem State.count_overseer (s : State) (a n : Nat) :
    (s.count a n).overseer = s.overseer := by unfold State.count; split <;> rfl
@[simp] theorem State.count_temple (s : State) (a n : Nat) :
    (s.count a n).temple = s.temple := by unfold State.count; split <;> rfl
@[simp] theorem State.count_power (s : State) (a n : Nat) :
    (s.count a n).power = s.power := by unfold State.count; split <;> rfl
@[simp] theorem State.count_pins (s : State) (a n : Nat) :
    (s.count a n).pins = s.pins := by unfold State.count; split <;> rfl
@[simp] theorem State.count_jtag (s : State) (a n : Nat) :
    (s.count a n).jtag = s.jtag := by unfold State.count; split <;> rfl
@[simp] theorem State.count_tallies (s : State) (a n : Nat) :
    (s.count a n).tallies = s.tallies := by unfold State.count; split <;> rfl
@[simp] theorem State.count_logs (s : State) (a n : Nat) :
    (s.count a n).logs = s.logs := by unfold State.count; split <;> rfl
@[simp] theorem State.count_statusDue (s : State) (a n : Nat) :
    (s.count a n).statusDue = s.statusDue := by unfold State.count; split <;> rfl
@[simp] theorem State.count_out (s : State) (a n : Nat) :
    (s.count a n).out = s.out := by unfold State.count; split <;> rfl
@[simp] theorem State.count_free (s : State) (a n : Nat) :
    (s.count a n).free = s.free := by unfold State.count; split <;> rfl

@[simp] theorem State.countWrap_core (s : State) (a n : Nat) (h : CoreId) :
    (s.countWrap a n).core h = s.core h := rfl
@[simp] theorem State.countWrap_td (s : State) (a n : Nat) (b : Td) :
    (s.countWrap a n).td b = s.td b := rfl
@[simp] theorem State.countWrap_spool (s : State) (a n : Nat) (b : Td) (j : SpoolId) :
    (s.countWrap a n).spool b j = s.spool b j := rfl
@[simp] theorem State.countWrap_fn (s : State) (a n : Nat) (b : Td) (j : Fn) :
    (s.countWrap a n).fn b j = s.fn b j := rfl
@[simp] theorem State.countWrap_port (s : State) (a n : Nat) (q : PortId) :
    (s.countWrap a n).port q = s.port q := rfl
@[simp] theorem State.countWrap_sd (s : State) (a n : Nat) (q : Sd) :
    (s.countWrap a n).sd q = s.sd q := rfl
@[simp] theorem State.countWrap_log (s : State) (a n : Nat) (q : LogDie) :
    (s.countWrap a n).log q = s.log q := rfl
@[simp] theorem State.countWrap_tally (s : State) (a n : Nat) (q : Die) (m : TallyNo) :
    (s.countWrap a n).tally q m = s.tally q m := rfl
@[simp] theorem State.countWrap_rawByte (s : State) (a n : Nat) (b : Nat) :
    (s.countWrap a n).rawByte b = s.rawByte b := rfl
@[simp] theorem State.countWrap_pending (s : State) (a n : Nat) :
    (s.countWrap a n).pending = s.pending := rfl
@[simp] theorem State.countWrap_mem (s : State) (a n : Nat) :
    (s.countWrap a n).mem = s.mem := rfl
@[simp] theorem State.countWrap_badPar (s : State) (a n : Nat) :
    (s.countWrap a n).badPar = s.badPar := rfl
@[simp] theorem State.countWrap_undefs (s : State) (a n : Nat) :
    (s.countWrap a n).undefs = s.undefs := rfl
@[simp] theorem State.countWrap_low (s : State) (a n : Nat) :
    (s.countWrap a n).low = s.low := rfl
@[simp] theorem State.countWrap_latches (s : State) (a n : Nat) :
    (s.countWrap a n).latches = s.latches := rfl
@[simp] theorem State.countWrap_cores (s : State) (a n : Nat) :
    (s.countWrap a n).cores = s.cores := rfl
@[simp] theorem State.countWrap_td0 (s : State) (a n : Nat) :
    (s.countWrap a n).td0 = s.td0 := rfl
@[simp] theorem State.countWrap_td1 (s : State) (a n : Nat) :
    (s.countWrap a n).td1 = s.td1 := rfl
@[simp] theorem State.countWrap_ports (s : State) (a n : Nat) :
    (s.countWrap a n).ports = s.ports := rfl
@[simp] theorem State.countWrap_sds (s : State) (a n : Nat) :
    (s.countWrap a n).sds = s.sds := rfl
@[simp] theorem State.countWrap_heddle (s : State) (a n : Nat) :
    (s.countWrap a n).heddle = s.heddle := rfl
@[simp] theorem State.countWrap_overseer (s : State) (a n : Nat) :
    (s.countWrap a n).overseer = s.overseer := rfl
@[simp] theorem State.countWrap_temple (s : State) (a n : Nat) :
    (s.countWrap a n).temple = s.temple := rfl
@[simp] theorem State.countWrap_power (s : State) (a n : Nat) :
    (s.countWrap a n).power = s.power := rfl
@[simp] theorem State.countWrap_pins (s : State) (a n : Nat) :
    (s.countWrap a n).pins = s.pins := rfl
@[simp] theorem State.countWrap_jtag (s : State) (a n : Nat) :
    (s.countWrap a n).jtag = s.jtag := rfl
@[simp] theorem State.countWrap_tallies (s : State) (a n : Nat) :
    (s.countWrap a n).tallies = s.tallies := rfl
@[simp] theorem State.countWrap_logs (s : State) (a n : Nat) :
    (s.countWrap a n).logs = s.logs := rfl
@[simp] theorem State.countWrap_statusDue (s : State) (a n : Nat) :
    (s.countWrap a n).statusDue = s.statusDue := rfl
@[simp] theorem State.countWrap_out (s : State) (a n : Nat) :
    (s.countWrap a n).out = s.out := rfl
@[simp] theorem State.countWrap_free (s : State) (a n : Nat) :
    (s.countWrap a n).free = s.free := rfl

@[simp] theorem State.setCreg_core (s : State) (g : CoreId) (o : Nat) (v : Dword) (h : CoreId) :
    (s.setCreg g o v).core h = s.core h := State.setReg_core s _ v _
@[simp] theorem State.setCreg_td (s : State) (g : CoreId) (o : Nat) (v : Dword) (b : Td) :
    (s.setCreg g o v).td b = s.td b := State.setReg_td s _ v _
@[simp] theorem State.setCreg_spool (s : State) (g : CoreId) (o : Nat) (v : Dword) (b : Td) (j : SpoolId) :
    (s.setCreg g o v).spool b j = s.spool b j := State.setReg_spool s _ v _ _
@[simp] theorem State.setCreg_fn (s : State) (g : CoreId) (o : Nat) (v : Dword) (b : Td) (j : Fn) :
    (s.setCreg g o v).fn b j = s.fn b j := State.setReg_fn s _ v _ _
@[simp] theorem State.setCreg_port (s : State) (g : CoreId) (o : Nat) (v : Dword) (q : PortId) :
    (s.setCreg g o v).port q = s.port q := State.setReg_port s _ v _
@[simp] theorem State.setCreg_sd (s : State) (g : CoreId) (o : Nat) (v : Dword) (q : Sd) :
    (s.setCreg g o v).sd q = s.sd q := State.setReg_sd s _ v _
@[simp] theorem State.setCreg_log (s : State) (g : CoreId) (o : Nat) (v : Dword) (q : LogDie) :
    (s.setCreg g o v).log q = s.log q := State.setReg_log s _ v _
@[simp] theorem State.setCreg_tally (s : State) (g : CoreId) (o : Nat) (v : Dword) (q : Die) (m : TallyNo) :
    (s.setCreg g o v).tally q m = s.tally q m := State.setReg_tally s _ v _ _
@[simp] theorem State.setCreg_rawByte (s : State) (g : CoreId) (o : Nat) (v : Dword) (b : Nat) :
    (s.setCreg g o v).rawByte b = s.rawByte b := State.setReg_rawByte s _ v _
@[simp] theorem State.setCreg_pending (s : State) (g : CoreId) (o : Nat) (v : Dword) :
    (s.setCreg g o v).pending = s.pending := State.setReg_pending s _ v
@[simp] theorem State.setCreg_mem (s : State) (g : CoreId) (o : Nat) (v : Dword) :
    (s.setCreg g o v).mem = s.mem := State.setReg_mem s _ v
@[simp] theorem State.setCreg_badPar (s : State) (g : CoreId) (o : Nat) (v : Dword) :
    (s.setCreg g o v).badPar = s.badPar := State.setReg_badPar s _ v
@[simp] theorem State.setCreg_undefs (s : State) (g : CoreId) (o : Nat) (v : Dword) :
    (s.setCreg g o v).undefs = s.undefs := State.setReg_undefs s _ v
@[simp] theorem State.setCreg_low (s : State) (g : CoreId) (o : Nat) (v : Dword) :
    (s.setCreg g o v).low = s.low := State.setReg_low s _ v
@[simp] theorem State.setCreg_latches (s : State) (g : CoreId) (o : Nat) (v : Dword) :
    (s.setCreg g o v).latches = s.latches := State.setReg_latches s _ v
@[simp] theorem State.setCreg_cores (s : State) (g : CoreId) (o : Nat) (v : Dword) :
    (s.setCreg g o v).cores = s.cores := State.setReg_cores s _ v
@[simp] theorem State.setCreg_td0 (s : State) (g : CoreId) (o : Nat) (v : Dword) :
    (s.setCreg g o v).td0 = s.td0 := State.setReg_td0 s _ v
@[simp] theorem State.setCreg_td1 (s : State) (g : CoreId) (o : Nat) (v : Dword) :
    (s.setCreg g o v).td1 = s.td1 := State.setReg_td1 s _ v
@[simp] theorem State.setCreg_ports (s : State) (g : CoreId) (o : Nat) (v : Dword) :
    (s.setCreg g o v).ports = s.ports := State.setReg_ports s _ v
@[simp] theorem State.setCreg_sds (s : State) (g : CoreId) (o : Nat) (v : Dword) :
    (s.setCreg g o v).sds = s.sds := State.setReg_sds s _ v
@[simp] theorem State.setCreg_heddle (s : State) (g : CoreId) (o : Nat) (v : Dword) :
    (s.setCreg g o v).heddle = s.heddle := State.setReg_heddle s _ v
@[simp] theorem State.setCreg_overseer (s : State) (g : CoreId) (o : Nat) (v : Dword) :
    (s.setCreg g o v).overseer = s.overseer := State.setReg_overseer s _ v
@[simp] theorem State.setCreg_temple (s : State) (g : CoreId) (o : Nat) (v : Dword) :
    (s.setCreg g o v).temple = s.temple := State.setReg_temple s _ v
@[simp] theorem State.setCreg_power (s : State) (g : CoreId) (o : Nat) (v : Dword) :
    (s.setCreg g o v).power = s.power := State.setReg_power s _ v
@[simp] theorem State.setCreg_pins (s : State) (g : CoreId) (o : Nat) (v : Dword) :
    (s.setCreg g o v).pins = s.pins := State.setReg_pins s _ v
@[simp] theorem State.setCreg_jtag (s : State) (g : CoreId) (o : Nat) (v : Dword) :
    (s.setCreg g o v).jtag = s.jtag := State.setReg_jtag s _ v
@[simp] theorem State.setCreg_tallies (s : State) (g : CoreId) (o : Nat) (v : Dword) :
    (s.setCreg g o v).tallies = s.tallies := State.setReg_tallies s _ v
@[simp] theorem State.setCreg_logs (s : State) (g : CoreId) (o : Nat) (v : Dword) :
    (s.setCreg g o v).logs = s.logs := State.setReg_logs s _ v
@[simp] theorem State.setCreg_statusDue (s : State) (g : CoreId) (o : Nat) (v : Dword) :
    (s.setCreg g o v).statusDue = s.statusDue := State.setReg_statusDue s _ v
@[simp] theorem State.setCreg_out (s : State) (g : CoreId) (o : Nat) (v : Dword) :
    (s.setCreg g o v).out = s.out := State.setReg_out s _ v
@[simp] theorem State.setCreg_free (s : State) (g : CoreId) (o : Nat) (v : Dword) :
    (s.setCreg g o v).free = s.free := State.setReg_free s _ v

@[simp] theorem State.ccount_core (s : State) (g : CoreId) (o n : Nat) (h : CoreId) :
    (s.ccount g o n).core h = s.core h := State.count_core s _ n _
@[simp] theorem State.ccount_td (s : State) (g : CoreId) (o n : Nat) (b : Td) :
    (s.ccount g o n).td b = s.td b := State.count_td s _ n _
@[simp] theorem State.ccount_spool (s : State) (g : CoreId) (o n : Nat) (b : Td) (j : SpoolId) :
    (s.ccount g o n).spool b j = s.spool b j := State.count_spool s _ n _ _
@[simp] theorem State.ccount_fn (s : State) (g : CoreId) (o n : Nat) (b : Td) (j : Fn) :
    (s.ccount g o n).fn b j = s.fn b j := State.count_fn s _ n _ _
@[simp] theorem State.ccount_port (s : State) (g : CoreId) (o n : Nat) (q : PortId) :
    (s.ccount g o n).port q = s.port q := State.count_port s _ n _
@[simp] theorem State.ccount_sd (s : State) (g : CoreId) (o n : Nat) (q : Sd) :
    (s.ccount g o n).sd q = s.sd q := State.count_sd s _ n _
@[simp] theorem State.ccount_log (s : State) (g : CoreId) (o n : Nat) (q : LogDie) :
    (s.ccount g o n).log q = s.log q := State.count_log s _ n _
@[simp] theorem State.ccount_tally (s : State) (g : CoreId) (o n : Nat) (q : Die) (m : TallyNo) :
    (s.ccount g o n).tally q m = s.tally q m := State.count_tally s _ n _ _
@[simp] theorem State.ccount_rawByte (s : State) (g : CoreId) (o n : Nat) (b : Nat) :
    (s.ccount g o n).rawByte b = s.rawByte b := State.count_rawByte s _ n _
@[simp] theorem State.ccount_pending (s : State) (g : CoreId) (o n : Nat) :
    (s.ccount g o n).pending = s.pending := State.count_pending s _ n
@[simp] theorem State.ccount_mem (s : State) (g : CoreId) (o n : Nat) :
    (s.ccount g o n).mem = s.mem := State.count_mem s _ n
@[simp] theorem State.ccount_badPar (s : State) (g : CoreId) (o n : Nat) :
    (s.ccount g o n).badPar = s.badPar := State.count_badPar s _ n
@[simp] theorem State.ccount_undefs (s : State) (g : CoreId) (o n : Nat) :
    (s.ccount g o n).undefs = s.undefs := State.count_undefs s _ n
@[simp] theorem State.ccount_low (s : State) (g : CoreId) (o n : Nat) :
    (s.ccount g o n).low = s.low := State.count_low s _ n
@[simp] theorem State.ccount_latches (s : State) (g : CoreId) (o n : Nat) :
    (s.ccount g o n).latches = s.latches := State.count_latches s _ n
@[simp] theorem State.ccount_cores (s : State) (g : CoreId) (o n : Nat) :
    (s.ccount g o n).cores = s.cores := State.count_cores s _ n
@[simp] theorem State.ccount_td0 (s : State) (g : CoreId) (o n : Nat) :
    (s.ccount g o n).td0 = s.td0 := State.count_td0 s _ n
@[simp] theorem State.ccount_td1 (s : State) (g : CoreId) (o n : Nat) :
    (s.ccount g o n).td1 = s.td1 := State.count_td1 s _ n
@[simp] theorem State.ccount_ports (s : State) (g : CoreId) (o n : Nat) :
    (s.ccount g o n).ports = s.ports := State.count_ports s _ n
@[simp] theorem State.ccount_sds (s : State) (g : CoreId) (o n : Nat) :
    (s.ccount g o n).sds = s.sds := State.count_sds s _ n
@[simp] theorem State.ccount_heddle (s : State) (g : CoreId) (o n : Nat) :
    (s.ccount g o n).heddle = s.heddle := State.count_heddle s _ n
@[simp] theorem State.ccount_overseer (s : State) (g : CoreId) (o n : Nat) :
    (s.ccount g o n).overseer = s.overseer := State.count_overseer s _ n
@[simp] theorem State.ccount_temple (s : State) (g : CoreId) (o n : Nat) :
    (s.ccount g o n).temple = s.temple := State.count_temple s _ n
@[simp] theorem State.ccount_power (s : State) (g : CoreId) (o n : Nat) :
    (s.ccount g o n).power = s.power := State.count_power s _ n
@[simp] theorem State.ccount_pins (s : State) (g : CoreId) (o n : Nat) :
    (s.ccount g o n).pins = s.pins := State.count_pins s _ n
@[simp] theorem State.ccount_jtag (s : State) (g : CoreId) (o n : Nat) :
    (s.ccount g o n).jtag = s.jtag := State.count_jtag s _ n
@[simp] theorem State.ccount_tallies (s : State) (g : CoreId) (o n : Nat) :
    (s.ccount g o n).tallies = s.tallies := State.count_tallies s _ n
@[simp] theorem State.ccount_logs (s : State) (g : CoreId) (o n : Nat) :
    (s.ccount g o n).logs = s.logs := State.count_logs s _ n
@[simp] theorem State.ccount_statusDue (s : State) (g : CoreId) (o n : Nat) :
    (s.ccount g o n).statusDue = s.statusDue := State.count_statusDue s _ n
@[simp] theorem State.ccount_out (s : State) (g : CoreId) (o n : Nat) :
    (s.ccount g o n).out = s.out := State.count_out s _ n
@[simp] theorem State.ccount_free (s : State) (g : CoreId) (o n : Nat) :
    (s.ccount g o n).free = s.free := State.count_free s _ n

@[simp] theorem State.modCore_getReg (s : State) (g : CoreId) (f : Core → Core) (b : Nat) :
    (s.modCore g f).getReg b = s.getReg b := rfl
@[simp] theorem State.modCore_td (s : State) (g : CoreId) (f : Core → Core) (b : Td) :
    (s.modCore g f).td b = s.td b := rfl
@[simp] theorem State.modCore_spool (s : State) (g : CoreId) (f : Core → Core) (b : Td) (j : SpoolId) :
    (s.modCore g f).spool b j = s.spool b j := rfl
@[simp] theorem State.modCore_fn (s : State) (g : CoreId) (f : Core → Core) (b : Td) (j : Fn) :
    (s.modCore g f).fn b j = s.fn b j := rfl
@[simp] theorem State.modCore_port (s : State) (g : CoreId) (f : Core → Core) (q : PortId) :
    (s.modCore g f).port q = s.port q := rfl
@[simp] theorem State.modCore_sd (s : State) (g : CoreId) (f : Core → Core) (q : Sd) :
    (s.modCore g f).sd q = s.sd q := rfl
@[simp] theorem State.modCore_log (s : State) (g : CoreId) (f : Core → Core) (q : LogDie) :
    (s.modCore g f).log q = s.log q := rfl
@[simp] theorem State.modCore_tally (s : State) (g : CoreId) (f : Core → Core) (q : Die) (m : TallyNo) :
    (s.modCore g f).tally q m = s.tally q m := rfl
@[simp] theorem State.modCore_rawByte (s : State) (g : CoreId) (f : Core → Core) (b : Nat) :
    (s.modCore g f).rawByte b = s.rawByte b := rfl
@[simp] theorem State.modCore_pending (s : State) (g : CoreId) (f : Core → Core) :
    (s.modCore g f).pending = s.pending := rfl
@[simp] theorem State.modCore_regs (s : State) (g : CoreId) (f : Core → Core) :
    (s.modCore g f).regs = s.regs := rfl
@[simp] theorem State.modCore_mem (s : State) (g : CoreId) (f : Core → Core) :
    (s.modCore g f).mem = s.mem := rfl
@[simp] theorem State.modCore_badPar (s : State) (g : CoreId) (f : Core → Core) :
    (s.modCore g f).badPar = s.badPar := rfl
@[simp] theorem State.modCore_undefs (s : State) (g : CoreId) (f : Core → Core) :
    (s.modCore g f).undefs = s.undefs := rfl
@[simp] theorem State.modCore_low (s : State) (g : CoreId) (f : Core → Core) :
    (s.modCore g f).low = s.low := rfl
@[simp] theorem State.modCore_latches (s : State) (g : CoreId) (f : Core → Core) :
    (s.modCore g f).latches = s.latches := rfl
@[simp] theorem State.modCore_td0 (s : State) (g : CoreId) (f : Core → Core) :
    (s.modCore g f).td0 = s.td0 := rfl
@[simp] theorem State.modCore_td1 (s : State) (g : CoreId) (f : Core → Core) :
    (s.modCore g f).td1 = s.td1 := rfl
@[simp] theorem State.modCore_ports (s : State) (g : CoreId) (f : Core → Core) :
    (s.modCore g f).ports = s.ports := rfl
@[simp] theorem State.modCore_sds (s : State) (g : CoreId) (f : Core → Core) :
    (s.modCore g f).sds = s.sds := rfl
@[simp] theorem State.modCore_heddle (s : State) (g : CoreId) (f : Core → Core) :
    (s.modCore g f).heddle = s.heddle := rfl
@[simp] theorem State.modCore_overseer (s : State) (g : CoreId) (f : Core → Core) :
    (s.modCore g f).overseer = s.overseer := rfl
@[simp] theorem State.modCore_temple (s : State) (g : CoreId) (f : Core → Core) :
    (s.modCore g f).temple = s.temple := rfl
@[simp] theorem State.modCore_power (s : State) (g : CoreId) (f : Core → Core) :
    (s.modCore g f).power = s.power := rfl
@[simp] theorem State.modCore_pins (s : State) (g : CoreId) (f : Core → Core) :
    (s.modCore g f).pins = s.pins := rfl
@[simp] theorem State.modCore_jtag (s : State) (g : CoreId) (f : Core → Core) :
    (s.modCore g f).jtag = s.jtag := rfl
@[simp] theorem State.modCore_tallies (s : State) (g : CoreId) (f : Core → Core) :
    (s.modCore g f).tallies = s.tallies := rfl
@[simp] theorem State.modCore_logs (s : State) (g : CoreId) (f : Core → Core) :
    (s.modCore g f).logs = s.logs := rfl
@[simp] theorem State.modCore_statusDue (s : State) (g : CoreId) (f : Core → Core) :
    (s.modCore g f).statusDue = s.statusDue := rfl
@[simp] theorem State.modCore_out (s : State) (g : CoreId) (f : Core → Core) :
    (s.modCore g f).out = s.out := rfl
@[simp] theorem State.modCore_free (s : State) (g : CoreId) (f : Core → Core) :
    (s.modCore g f).free = s.free := rfl

@[simp] theorem State.setSpool_getReg (s : State) (d : Td) (i : SpoolId) (x : Spool) (b : Nat) :
    (s.setSpool d i x).getReg b = s.getReg b := by
  unfold State.setSpool State.setTd; split <;> rfl
@[simp] theorem State.setSpool_core (s : State) (d : Td) (i : SpoolId) (x : Spool) (h : CoreId) :
    (s.setSpool d i x).core h = s.core h := by
  unfold State.setSpool State.setTd; split <;> rfl
@[simp] theorem State.setSpool_port (s : State) (d : Td) (i : SpoolId) (x : Spool) (q : PortId) :
    (s.setSpool d i x).port q = s.port q := by
  unfold State.setSpool State.setTd; split <;> rfl
@[simp] theorem State.setSpool_sd (s : State) (d : Td) (i : SpoolId) (x : Spool) (q : Sd) :
    (s.setSpool d i x).sd q = s.sd q := by
  unfold State.setSpool State.setTd; split <;> rfl
@[simp] theorem State.setSpool_log (s : State) (d : Td) (i : SpoolId) (x : Spool) (q : LogDie) :
    (s.setSpool d i x).log q = s.log q := by
  unfold State.setSpool State.setTd; split <;> rfl
@[simp] theorem State.setSpool_tally (s : State) (d : Td) (i : SpoolId) (x : Spool) (q : Die) (m : TallyNo) :
    (s.setSpool d i x).tally q m = s.tally q m := by
  unfold State.setSpool State.setTd; split <;> rfl
@[simp] theorem State.setSpool_rawByte (s : State) (d : Td) (i : SpoolId) (x : Spool) (b : Nat) :
    (s.setSpool d i x).rawByte b = s.rawByte b := by
  unfold State.setSpool State.setTd; split <;> rfl
@[simp] theorem State.setSpool_pending (s : State) (d : Td) (i : SpoolId) (x : Spool) :
    (s.setSpool d i x).pending = s.pending := by
  unfold State.setSpool State.setTd; split <;> rfl
@[simp] theorem State.setSpool_regs (s : State) (d : Td) (i : SpoolId) (x : Spool) :
    (s.setSpool d i x).regs = s.regs := by
  unfold State.setSpool State.setTd; split <;> rfl
@[simp] theorem State.setSpool_mem (s : State) (d : Td) (i : SpoolId) (x : Spool) :
    (s.setSpool d i x).mem = s.mem := by
  unfold State.setSpool State.setTd; split <;> rfl
@[simp] theorem State.setSpool_badPar (s : State) (d : Td) (i : SpoolId) (x : Spool) :
    (s.setSpool d i x).badPar = s.badPar := by
  unfold State.setSpool State.setTd; split <;> rfl
@[simp] theorem State.setSpool_undefs (s : State) (d : Td) (i : SpoolId) (x : Spool) :
    (s.setSpool d i x).undefs = s.undefs := by
  unfold State.setSpool State.setTd; split <;> rfl
@[simp] theorem State.setSpool_low (s : State) (d : Td) (i : SpoolId) (x : Spool) :
    (s.setSpool d i x).low = s.low := by
  unfold State.setSpool State.setTd; split <;> rfl
@[simp] theorem State.setSpool_latches (s : State) (d : Td) (i : SpoolId) (x : Spool) :
    (s.setSpool d i x).latches = s.latches := by
  unfold State.setSpool State.setTd; split <;> rfl
@[simp] theorem State.setSpool_cores (s : State) (d : Td) (i : SpoolId) (x : Spool) :
    (s.setSpool d i x).cores = s.cores := by
  unfold State.setSpool State.setTd; split <;> rfl
@[simp] theorem State.setSpool_ports (s : State) (d : Td) (i : SpoolId) (x : Spool) :
    (s.setSpool d i x).ports = s.ports := by
  unfold State.setSpool State.setTd; split <;> rfl
@[simp] theorem State.setSpool_sds (s : State) (d : Td) (i : SpoolId) (x : Spool) :
    (s.setSpool d i x).sds = s.sds := by
  unfold State.setSpool State.setTd; split <;> rfl
@[simp] theorem State.setSpool_heddle (s : State) (d : Td) (i : SpoolId) (x : Spool) :
    (s.setSpool d i x).heddle = s.heddle := by
  unfold State.setSpool State.setTd; split <;> rfl
@[simp] theorem State.setSpool_overseer (s : State) (d : Td) (i : SpoolId) (x : Spool) :
    (s.setSpool d i x).overseer = s.overseer := by
  unfold State.setSpool State.setTd; split <;> rfl
@[simp] theorem State.setSpool_temple (s : State) (d : Td) (i : SpoolId) (x : Spool) :
    (s.setSpool d i x).temple = s.temple := by
  unfold State.setSpool State.setTd; split <;> rfl
@[simp] theorem State.setSpool_power (s : State) (d : Td) (i : SpoolId) (x : Spool) :
    (s.setSpool d i x).power = s.power := by
  unfold State.setSpool State.setTd; split <;> rfl
@[simp] theorem State.setSpool_pins (s : State) (d : Td) (i : SpoolId) (x : Spool) :
    (s.setSpool d i x).pins = s.pins := by
  unfold State.setSpool State.setTd; split <;> rfl
@[simp] theorem State.setSpool_jtag (s : State) (d : Td) (i : SpoolId) (x : Spool) :
    (s.setSpool d i x).jtag = s.jtag := by
  unfold State.setSpool State.setTd; split <;> rfl
@[simp] theorem State.setSpool_tallies (s : State) (d : Td) (i : SpoolId) (x : Spool) :
    (s.setSpool d i x).tallies = s.tallies := by
  unfold State.setSpool State.setTd; split <;> rfl
@[simp] theorem State.setSpool_logs (s : State) (d : Td) (i : SpoolId) (x : Spool) :
    (s.setSpool d i x).logs = s.logs := by
  unfold State.setSpool State.setTd; split <;> rfl
@[simp] theorem State.setSpool_statusDue (s : State) (d : Td) (i : SpoolId) (x : Spool) :
    (s.setSpool d i x).statusDue = s.statusDue := by
  unfold State.setSpool State.setTd; split <;> rfl
@[simp] theorem State.setSpool_out (s : State) (d : Td) (i : SpoolId) (x : Spool) :
    (s.setSpool d i x).out = s.out := by
  unfold State.setSpool State.setTd; split <;> rfl
@[simp] theorem State.setSpool_free (s : State) (d : Td) (i : SpoolId) (x : Spool) :
    (s.setSpool d i x).free = s.free := by
  unfold State.setSpool State.setTd; split <;> rfl

@[simp] theorem State.setFn_getReg (s : State) (d : Td) (i : Fn) (x : PcieFn) (b : Nat) :
    (s.setFn d i x).getReg b = s.getReg b := by
  unfold State.setFn State.setTd; split <;> rfl
@[simp] theorem State.setFn_core (s : State) (d : Td) (i : Fn) (x : PcieFn) (h : CoreId) :
    (s.setFn d i x).core h = s.core h := by
  unfold State.setFn State.setTd; split <;> rfl
@[simp] theorem State.setFn_port (s : State) (d : Td) (i : Fn) (x : PcieFn) (q : PortId) :
    (s.setFn d i x).port q = s.port q := by
  unfold State.setFn State.setTd; split <;> rfl
@[simp] theorem State.setFn_sd (s : State) (d : Td) (i : Fn) (x : PcieFn) (q : Sd) :
    (s.setFn d i x).sd q = s.sd q := by
  unfold State.setFn State.setTd; split <;> rfl
@[simp] theorem State.setFn_log (s : State) (d : Td) (i : Fn) (x : PcieFn) (q : LogDie) :
    (s.setFn d i x).log q = s.log q := by
  unfold State.setFn State.setTd; split <;> rfl
@[simp] theorem State.setFn_tally (s : State) (d : Td) (i : Fn) (x : PcieFn) (q : Die) (m : TallyNo) :
    (s.setFn d i x).tally q m = s.tally q m := by
  unfold State.setFn State.setTd; split <;> rfl
@[simp] theorem State.setFn_rawByte (s : State) (d : Td) (i : Fn) (x : PcieFn) (b : Nat) :
    (s.setFn d i x).rawByte b = s.rawByte b := by
  unfold State.setFn State.setTd; split <;> rfl
@[simp] theorem State.setFn_pending (s : State) (d : Td) (i : Fn) (x : PcieFn) :
    (s.setFn d i x).pending = s.pending := by
  unfold State.setFn State.setTd; split <;> rfl
@[simp] theorem State.setFn_regs (s : State) (d : Td) (i : Fn) (x : PcieFn) :
    (s.setFn d i x).regs = s.regs := by
  unfold State.setFn State.setTd; split <;> rfl
@[simp] theorem State.setFn_mem (s : State) (d : Td) (i : Fn) (x : PcieFn) :
    (s.setFn d i x).mem = s.mem := by
  unfold State.setFn State.setTd; split <;> rfl
@[simp] theorem State.setFn_badPar (s : State) (d : Td) (i : Fn) (x : PcieFn) :
    (s.setFn d i x).badPar = s.badPar := by
  unfold State.setFn State.setTd; split <;> rfl
@[simp] theorem State.setFn_undefs (s : State) (d : Td) (i : Fn) (x : PcieFn) :
    (s.setFn d i x).undefs = s.undefs := by
  unfold State.setFn State.setTd; split <;> rfl
@[simp] theorem State.setFn_low (s : State) (d : Td) (i : Fn) (x : PcieFn) :
    (s.setFn d i x).low = s.low := by
  unfold State.setFn State.setTd; split <;> rfl
@[simp] theorem State.setFn_latches (s : State) (d : Td) (i : Fn) (x : PcieFn) :
    (s.setFn d i x).latches = s.latches := by
  unfold State.setFn State.setTd; split <;> rfl
@[simp] theorem State.setFn_cores (s : State) (d : Td) (i : Fn) (x : PcieFn) :
    (s.setFn d i x).cores = s.cores := by
  unfold State.setFn State.setTd; split <;> rfl
@[simp] theorem State.setFn_ports (s : State) (d : Td) (i : Fn) (x : PcieFn) :
    (s.setFn d i x).ports = s.ports := by
  unfold State.setFn State.setTd; split <;> rfl
@[simp] theorem State.setFn_sds (s : State) (d : Td) (i : Fn) (x : PcieFn) :
    (s.setFn d i x).sds = s.sds := by
  unfold State.setFn State.setTd; split <;> rfl
@[simp] theorem State.setFn_heddle (s : State) (d : Td) (i : Fn) (x : PcieFn) :
    (s.setFn d i x).heddle = s.heddle := by
  unfold State.setFn State.setTd; split <;> rfl
@[simp] theorem State.setFn_overseer (s : State) (d : Td) (i : Fn) (x : PcieFn) :
    (s.setFn d i x).overseer = s.overseer := by
  unfold State.setFn State.setTd; split <;> rfl
@[simp] theorem State.setFn_temple (s : State) (d : Td) (i : Fn) (x : PcieFn) :
    (s.setFn d i x).temple = s.temple := by
  unfold State.setFn State.setTd; split <;> rfl
@[simp] theorem State.setFn_power (s : State) (d : Td) (i : Fn) (x : PcieFn) :
    (s.setFn d i x).power = s.power := by
  unfold State.setFn State.setTd; split <;> rfl
@[simp] theorem State.setFn_pins (s : State) (d : Td) (i : Fn) (x : PcieFn) :
    (s.setFn d i x).pins = s.pins := by
  unfold State.setFn State.setTd; split <;> rfl
@[simp] theorem State.setFn_jtag (s : State) (d : Td) (i : Fn) (x : PcieFn) :
    (s.setFn d i x).jtag = s.jtag := by
  unfold State.setFn State.setTd; split <;> rfl
@[simp] theorem State.setFn_tallies (s : State) (d : Td) (i : Fn) (x : PcieFn) :
    (s.setFn d i x).tallies = s.tallies := by
  unfold State.setFn State.setTd; split <;> rfl
@[simp] theorem State.setFn_logs (s : State) (d : Td) (i : Fn) (x : PcieFn) :
    (s.setFn d i x).logs = s.logs := by
  unfold State.setFn State.setTd; split <;> rfl
@[simp] theorem State.setFn_statusDue (s : State) (d : Td) (i : Fn) (x : PcieFn) :
    (s.setFn d i x).statusDue = s.statusDue := by
  unfold State.setFn State.setTd; split <;> rfl
@[simp] theorem State.setFn_out (s : State) (d : Td) (i : Fn) (x : PcieFn) :
    (s.setFn d i x).out = s.out := by
  unfold State.setFn State.setTd; split <;> rfl
@[simp] theorem State.setFn_free (s : State) (d : Td) (i : Fn) (x : PcieFn) :
    (s.setFn d i x).free = s.free := by
  unfold State.setFn State.setTd; split <;> rfl

@[simp] theorem State.logEvent_getReg (s : State) (d : LogDie) (src code aux : Nat) (data : Dword) (b : Nat) :
    (s.logEvent d src code aux data).getReg b = s.getReg b := rfl
@[simp] theorem State.logEvent_core (s : State) (d : LogDie) (src code aux : Nat) (data : Dword) (h : CoreId) :
    (s.logEvent d src code aux data).core h = s.core h := rfl
@[simp] theorem State.logEvent_td (s : State) (d : LogDie) (src code aux : Nat) (data : Dword) (b : Td) :
    (s.logEvent d src code aux data).td b = s.td b := rfl
@[simp] theorem State.logEvent_spool (s : State) (d : LogDie) (src code aux : Nat) (data : Dword) (b : Td) (j : SpoolId) :
    (s.logEvent d src code aux data).spool b j = s.spool b j := rfl
@[simp] theorem State.logEvent_fn (s : State) (d : LogDie) (src code aux : Nat) (data : Dword) (b : Td) (j : Fn) :
    (s.logEvent d src code aux data).fn b j = s.fn b j := rfl
@[simp] theorem State.logEvent_port (s : State) (d : LogDie) (src code aux : Nat) (data : Dword) (q : PortId) :
    (s.logEvent d src code aux data).port q = s.port q := rfl
@[simp] theorem State.logEvent_sd (s : State) (d : LogDie) (src code aux : Nat) (data : Dword) (q : Sd) :
    (s.logEvent d src code aux data).sd q = s.sd q := rfl
@[simp] theorem State.logEvent_tally (s : State) (d : LogDie) (src code aux : Nat) (data : Dword) (q : Die) (m : TallyNo) :
    (s.logEvent d src code aux data).tally q m = s.tally q m := rfl
@[simp] theorem State.logEvent_rawByte (s : State) (d : LogDie) (src code aux : Nat) (data : Dword) (b : Nat) :
    (s.logEvent d src code aux data).rawByte b = s.rawByte b := rfl
@[simp] theorem State.logEvent_pending (s : State) (d : LogDie) (src code aux : Nat) (data : Dword) :
    (s.logEvent d src code aux data).pending = s.pending := rfl
@[simp] theorem State.logEvent_regs (s : State) (d : LogDie) (src code aux : Nat) (data : Dword) :
    (s.logEvent d src code aux data).regs = s.regs := rfl
@[simp] theorem State.logEvent_mem (s : State) (d : LogDie) (src code aux : Nat) (data : Dword) :
    (s.logEvent d src code aux data).mem = s.mem := rfl
@[simp] theorem State.logEvent_badPar (s : State) (d : LogDie) (src code aux : Nat) (data : Dword) :
    (s.logEvent d src code aux data).badPar = s.badPar := rfl
@[simp] theorem State.logEvent_undefs (s : State) (d : LogDie) (src code aux : Nat) (data : Dword) :
    (s.logEvent d src code aux data).undefs = s.undefs := rfl
@[simp] theorem State.logEvent_low (s : State) (d : LogDie) (src code aux : Nat) (data : Dword) :
    (s.logEvent d src code aux data).low = s.low := rfl
@[simp] theorem State.logEvent_latches (s : State) (d : LogDie) (src code aux : Nat) (data : Dword) :
    (s.logEvent d src code aux data).latches = s.latches := rfl
@[simp] theorem State.logEvent_cores (s : State) (d : LogDie) (src code aux : Nat) (data : Dword) :
    (s.logEvent d src code aux data).cores = s.cores := rfl
@[simp] theorem State.logEvent_td0 (s : State) (d : LogDie) (src code aux : Nat) (data : Dword) :
    (s.logEvent d src code aux data).td0 = s.td0 := rfl
@[simp] theorem State.logEvent_td1 (s : State) (d : LogDie) (src code aux : Nat) (data : Dword) :
    (s.logEvent d src code aux data).td1 = s.td1 := rfl
@[simp] theorem State.logEvent_ports (s : State) (d : LogDie) (src code aux : Nat) (data : Dword) :
    (s.logEvent d src code aux data).ports = s.ports := rfl
@[simp] theorem State.logEvent_sds (s : State) (d : LogDie) (src code aux : Nat) (data : Dword) :
    (s.logEvent d src code aux data).sds = s.sds := rfl
@[simp] theorem State.logEvent_heddle (s : State) (d : LogDie) (src code aux : Nat) (data : Dword) :
    (s.logEvent d src code aux data).heddle = s.heddle := rfl
@[simp] theorem State.logEvent_overseer (s : State) (d : LogDie) (src code aux : Nat) (data : Dword) :
    (s.logEvent d src code aux data).overseer = s.overseer := rfl
@[simp] theorem State.logEvent_temple (s : State) (d : LogDie) (src code aux : Nat) (data : Dword) :
    (s.logEvent d src code aux data).temple = s.temple := rfl
@[simp] theorem State.logEvent_power (s : State) (d : LogDie) (src code aux : Nat) (data : Dword) :
    (s.logEvent d src code aux data).power = s.power := rfl
@[simp] theorem State.logEvent_pins (s : State) (d : LogDie) (src code aux : Nat) (data : Dword) :
    (s.logEvent d src code aux data).pins = s.pins := rfl
@[simp] theorem State.logEvent_jtag (s : State) (d : LogDie) (src code aux : Nat) (data : Dword) :
    (s.logEvent d src code aux data).jtag = s.jtag := rfl
@[simp] theorem State.logEvent_tallies (s : State) (d : LogDie) (src code aux : Nat) (data : Dword) :
    (s.logEvent d src code aux data).tallies = s.tallies := rfl
@[simp] theorem State.logEvent_statusDue (s : State) (d : LogDie) (src code aux : Nat) (data : Dword) :
    (s.logEvent d src code aux data).statusDue = s.statusDue := rfl
@[simp] theorem State.logEvent_out (s : State) (d : LogDie) (src code aux : Nat) (data : Dword) :
    (s.logEvent d src code aux data).out = s.out := rfl
@[simp] theorem State.logEvent_free (s : State) (d : LogDie) (src code aux : Nat) (data : Dword) :
    (s.logEvent d src code aux data).free = s.free := rfl

@[simp] theorem State.logCore_getReg (s : State) (g : CoreId) (code : Nat) (data : Dword) (b : Nat) :
    (s.logCore g code data).getReg b = s.getReg b := rfl
@[simp] theorem State.logCore_core (s : State) (g : CoreId) (code : Nat) (data : Dword) (h : CoreId) :
    (s.logCore g code data).core h = s.core h := rfl
@[simp] theorem State.logCore_td (s : State) (g : CoreId) (code : Nat) (data : Dword) (b : Td) :
    (s.logCore g code data).td b = s.td b := rfl
@[simp] theorem State.logCore_spool (s : State) (g : CoreId) (code : Nat) (data : Dword) (b : Td) (j : SpoolId) :
    (s.logCore g code data).spool b j = s.spool b j := rfl
@[simp] theorem State.logCore_fn (s : State) (g : CoreId) (code : Nat) (data : Dword) (b : Td) (j : Fn) :
    (s.logCore g code data).fn b j = s.fn b j := rfl
@[simp] theorem State.logCore_port (s : State) (g : CoreId) (code : Nat) (data : Dword) (q : PortId) :
    (s.logCore g code data).port q = s.port q := rfl
@[simp] theorem State.logCore_sd (s : State) (g : CoreId) (code : Nat) (data : Dword) (q : Sd) :
    (s.logCore g code data).sd q = s.sd q := rfl
@[simp] theorem State.logCore_tally (s : State) (g : CoreId) (code : Nat) (data : Dword) (q : Die) (m : TallyNo) :
    (s.logCore g code data).tally q m = s.tally q m := rfl
@[simp] theorem State.logCore_rawByte (s : State) (g : CoreId) (code : Nat) (data : Dword) (b : Nat) :
    (s.logCore g code data).rawByte b = s.rawByte b := rfl
@[simp] theorem State.logCore_pending (s : State) (g : CoreId) (code : Nat) (data : Dword) :
    (s.logCore g code data).pending = s.pending := rfl
@[simp] theorem State.logCore_regs (s : State) (g : CoreId) (code : Nat) (data : Dword) :
    (s.logCore g code data).regs = s.regs := rfl
@[simp] theorem State.logCore_mem (s : State) (g : CoreId) (code : Nat) (data : Dword) :
    (s.logCore g code data).mem = s.mem := rfl
@[simp] theorem State.logCore_badPar (s : State) (g : CoreId) (code : Nat) (data : Dword) :
    (s.logCore g code data).badPar = s.badPar := rfl
@[simp] theorem State.logCore_undefs (s : State) (g : CoreId) (code : Nat) (data : Dword) :
    (s.logCore g code data).undefs = s.undefs := rfl
@[simp] theorem State.logCore_low (s : State) (g : CoreId) (code : Nat) (data : Dword) :
    (s.logCore g code data).low = s.low := rfl
@[simp] theorem State.logCore_latches (s : State) (g : CoreId) (code : Nat) (data : Dword) :
    (s.logCore g code data).latches = s.latches := rfl
@[simp] theorem State.logCore_cores (s : State) (g : CoreId) (code : Nat) (data : Dword) :
    (s.logCore g code data).cores = s.cores := rfl
@[simp] theorem State.logCore_td0 (s : State) (g : CoreId) (code : Nat) (data : Dword) :
    (s.logCore g code data).td0 = s.td0 := rfl
@[simp] theorem State.logCore_td1 (s : State) (g : CoreId) (code : Nat) (data : Dword) :
    (s.logCore g code data).td1 = s.td1 := rfl
@[simp] theorem State.logCore_ports (s : State) (g : CoreId) (code : Nat) (data : Dword) :
    (s.logCore g code data).ports = s.ports := rfl
@[simp] theorem State.logCore_sds (s : State) (g : CoreId) (code : Nat) (data : Dword) :
    (s.logCore g code data).sds = s.sds := rfl
@[simp] theorem State.logCore_heddle (s : State) (g : CoreId) (code : Nat) (data : Dword) :
    (s.logCore g code data).heddle = s.heddle := rfl
@[simp] theorem State.logCore_overseer (s : State) (g : CoreId) (code : Nat) (data : Dword) :
    (s.logCore g code data).overseer = s.overseer := rfl
@[simp] theorem State.logCore_temple (s : State) (g : CoreId) (code : Nat) (data : Dword) :
    (s.logCore g code data).temple = s.temple := rfl
@[simp] theorem State.logCore_power (s : State) (g : CoreId) (code : Nat) (data : Dword) :
    (s.logCore g code data).power = s.power := rfl
@[simp] theorem State.logCore_pins (s : State) (g : CoreId) (code : Nat) (data : Dword) :
    (s.logCore g code data).pins = s.pins := rfl
@[simp] theorem State.logCore_jtag (s : State) (g : CoreId) (code : Nat) (data : Dword) :
    (s.logCore g code data).jtag = s.jtag := rfl
@[simp] theorem State.logCore_tallies (s : State) (g : CoreId) (code : Nat) (data : Dword) :
    (s.logCore g code data).tallies = s.tallies := rfl
@[simp] theorem State.logCore_statusDue (s : State) (g : CoreId) (code : Nat) (data : Dword) :
    (s.logCore g code data).statusDue = s.statusDue := rfl
@[simp] theorem State.logCore_out (s : State) (g : CoreId) (code : Nat) (data : Dword) :
    (s.logCore g code data).out = s.out := rfl
@[simp] theorem State.logCore_free (s : State) (g : CoreId) (code : Nat) (data : Dword) :
    (s.logCore g code data).free = s.free := rfl

@[simp] theorem State.logHdl_getReg (s : State) (code aux : Nat) (data : Dword) (b : Nat) :
    (s.logHdl code aux data).getReg b = s.getReg b := rfl
@[simp] theorem State.logHdl_core (s : State) (code aux : Nat) (data : Dword) (h : CoreId) :
    (s.logHdl code aux data).core h = s.core h := rfl
@[simp] theorem State.logHdl_td (s : State) (code aux : Nat) (data : Dword) (b : Td) :
    (s.logHdl code aux data).td b = s.td b := rfl
@[simp] theorem State.logHdl_spool (s : State) (code aux : Nat) (data : Dword) (b : Td) (j : SpoolId) :
    (s.logHdl code aux data).spool b j = s.spool b j := rfl
@[simp] theorem State.logHdl_fn (s : State) (code aux : Nat) (data : Dword) (b : Td) (j : Fn) :
    (s.logHdl code aux data).fn b j = s.fn b j := rfl
@[simp] theorem State.logHdl_port (s : State) (code aux : Nat) (data : Dword) (q : PortId) :
    (s.logHdl code aux data).port q = s.port q := rfl
@[simp] theorem State.logHdl_sd (s : State) (code aux : Nat) (data : Dword) (q : Sd) :
    (s.logHdl code aux data).sd q = s.sd q := rfl
@[simp] theorem State.logHdl_tally (s : State) (code aux : Nat) (data : Dword) (q : Die) (m : TallyNo) :
    (s.logHdl code aux data).tally q m = s.tally q m := rfl
@[simp] theorem State.logHdl_rawByte (s : State) (code aux : Nat) (data : Dword) (b : Nat) :
    (s.logHdl code aux data).rawByte b = s.rawByte b := rfl
@[simp] theorem State.logHdl_pending (s : State) (code aux : Nat) (data : Dword) :
    (s.logHdl code aux data).pending = s.pending := rfl
@[simp] theorem State.logHdl_regs (s : State) (code aux : Nat) (data : Dword) :
    (s.logHdl code aux data).regs = s.regs := rfl
@[simp] theorem State.logHdl_mem (s : State) (code aux : Nat) (data : Dword) :
    (s.logHdl code aux data).mem = s.mem := rfl
@[simp] theorem State.logHdl_badPar (s : State) (code aux : Nat) (data : Dword) :
    (s.logHdl code aux data).badPar = s.badPar := rfl
@[simp] theorem State.logHdl_undefs (s : State) (code aux : Nat) (data : Dword) :
    (s.logHdl code aux data).undefs = s.undefs := rfl
@[simp] theorem State.logHdl_low (s : State) (code aux : Nat) (data : Dword) :
    (s.logHdl code aux data).low = s.low := rfl
@[simp] theorem State.logHdl_latches (s : State) (code aux : Nat) (data : Dword) :
    (s.logHdl code aux data).latches = s.latches := rfl
@[simp] theorem State.logHdl_cores (s : State) (code aux : Nat) (data : Dword) :
    (s.logHdl code aux data).cores = s.cores := rfl
@[simp] theorem State.logHdl_td0 (s : State) (code aux : Nat) (data : Dword) :
    (s.logHdl code aux data).td0 = s.td0 := rfl
@[simp] theorem State.logHdl_td1 (s : State) (code aux : Nat) (data : Dword) :
    (s.logHdl code aux data).td1 = s.td1 := rfl
@[simp] theorem State.logHdl_ports (s : State) (code aux : Nat) (data : Dword) :
    (s.logHdl code aux data).ports = s.ports := rfl
@[simp] theorem State.logHdl_sds (s : State) (code aux : Nat) (data : Dword) :
    (s.logHdl code aux data).sds = s.sds := rfl
@[simp] theorem State.logHdl_heddle (s : State) (code aux : Nat) (data : Dword) :
    (s.logHdl code aux data).heddle = s.heddle := rfl
@[simp] theorem State.logHdl_overseer (s : State) (code aux : Nat) (data : Dword) :
    (s.logHdl code aux data).overseer = s.overseer := rfl
@[simp] theorem State.logHdl_temple (s : State) (code aux : Nat) (data : Dword) :
    (s.logHdl code aux data).temple = s.temple := rfl
@[simp] theorem State.logHdl_power (s : State) (code aux : Nat) (data : Dword) :
    (s.logHdl code aux data).power = s.power := rfl
@[simp] theorem State.logHdl_pins (s : State) (code aux : Nat) (data : Dword) :
    (s.logHdl code aux data).pins = s.pins := rfl
@[simp] theorem State.logHdl_jtag (s : State) (code aux : Nat) (data : Dword) :
    (s.logHdl code aux data).jtag = s.jtag := rfl
@[simp] theorem State.logHdl_tallies (s : State) (code aux : Nat) (data : Dword) :
    (s.logHdl code aux data).tallies = s.tallies := rfl
@[simp] theorem State.logHdl_statusDue (s : State) (code aux : Nat) (data : Dword) :
    (s.logHdl code aux data).statusDue = s.statusDue := rfl
@[simp] theorem State.logHdl_out (s : State) (code aux : Nat) (data : Dword) :
    (s.logHdl code aux data).out = s.out := rfl
@[simp] theorem State.logHdl_free (s : State) (code aux : Nat) (data : Dword) :
    (s.logHdl code aux data).free = s.free := rfl

@[simp] theorem State.logOvs_getReg (s : State) (code aux : Nat) (data : Dword) (b : Nat) :
    (s.logOvs code aux data).getReg b = s.getReg b := rfl
@[simp] theorem State.logOvs_core (s : State) (code aux : Nat) (data : Dword) (h : CoreId) :
    (s.logOvs code aux data).core h = s.core h := rfl
@[simp] theorem State.logOvs_td (s : State) (code aux : Nat) (data : Dword) (b : Td) :
    (s.logOvs code aux data).td b = s.td b := rfl
@[simp] theorem State.logOvs_spool (s : State) (code aux : Nat) (data : Dword) (b : Td) (j : SpoolId) :
    (s.logOvs code aux data).spool b j = s.spool b j := rfl
@[simp] theorem State.logOvs_fn (s : State) (code aux : Nat) (data : Dword) (b : Td) (j : Fn) :
    (s.logOvs code aux data).fn b j = s.fn b j := rfl
@[simp] theorem State.logOvs_port (s : State) (code aux : Nat) (data : Dword) (q : PortId) :
    (s.logOvs code aux data).port q = s.port q := rfl
@[simp] theorem State.logOvs_sd (s : State) (code aux : Nat) (data : Dword) (q : Sd) :
    (s.logOvs code aux data).sd q = s.sd q := rfl
@[simp] theorem State.logOvs_tally (s : State) (code aux : Nat) (data : Dword) (q : Die) (m : TallyNo) :
    (s.logOvs code aux data).tally q m = s.tally q m := rfl
@[simp] theorem State.logOvs_rawByte (s : State) (code aux : Nat) (data : Dword) (b : Nat) :
    (s.logOvs code aux data).rawByte b = s.rawByte b := rfl
@[simp] theorem State.logOvs_pending (s : State) (code aux : Nat) (data : Dword) :
    (s.logOvs code aux data).pending = s.pending := rfl
@[simp] theorem State.logOvs_regs (s : State) (code aux : Nat) (data : Dword) :
    (s.logOvs code aux data).regs = s.regs := rfl
@[simp] theorem State.logOvs_mem (s : State) (code aux : Nat) (data : Dword) :
    (s.logOvs code aux data).mem = s.mem := rfl
@[simp] theorem State.logOvs_badPar (s : State) (code aux : Nat) (data : Dword) :
    (s.logOvs code aux data).badPar = s.badPar := rfl
@[simp] theorem State.logOvs_undefs (s : State) (code aux : Nat) (data : Dword) :
    (s.logOvs code aux data).undefs = s.undefs := rfl
@[simp] theorem State.logOvs_low (s : State) (code aux : Nat) (data : Dword) :
    (s.logOvs code aux data).low = s.low := rfl
@[simp] theorem State.logOvs_latches (s : State) (code aux : Nat) (data : Dword) :
    (s.logOvs code aux data).latches = s.latches := rfl
@[simp] theorem State.logOvs_cores (s : State) (code aux : Nat) (data : Dword) :
    (s.logOvs code aux data).cores = s.cores := rfl
@[simp] theorem State.logOvs_td0 (s : State) (code aux : Nat) (data : Dword) :
    (s.logOvs code aux data).td0 = s.td0 := rfl
@[simp] theorem State.logOvs_td1 (s : State) (code aux : Nat) (data : Dword) :
    (s.logOvs code aux data).td1 = s.td1 := rfl
@[simp] theorem State.logOvs_ports (s : State) (code aux : Nat) (data : Dword) :
    (s.logOvs code aux data).ports = s.ports := rfl
@[simp] theorem State.logOvs_sds (s : State) (code aux : Nat) (data : Dword) :
    (s.logOvs code aux data).sds = s.sds := rfl
@[simp] theorem State.logOvs_heddle (s : State) (code aux : Nat) (data : Dword) :
    (s.logOvs code aux data).heddle = s.heddle := rfl
@[simp] theorem State.logOvs_overseer (s : State) (code aux : Nat) (data : Dword) :
    (s.logOvs code aux data).overseer = s.overseer := rfl
@[simp] theorem State.logOvs_temple (s : State) (code aux : Nat) (data : Dword) :
    (s.logOvs code aux data).temple = s.temple := rfl
@[simp] theorem State.logOvs_power (s : State) (code aux : Nat) (data : Dword) :
    (s.logOvs code aux data).power = s.power := rfl
@[simp] theorem State.logOvs_pins (s : State) (code aux : Nat) (data : Dword) :
    (s.logOvs code aux data).pins = s.pins := rfl
@[simp] theorem State.logOvs_jtag (s : State) (code aux : Nat) (data : Dword) :
    (s.logOvs code aux data).jtag = s.jtag := rfl
@[simp] theorem State.logOvs_tallies (s : State) (code aux : Nat) (data : Dword) :
    (s.logOvs code aux data).tallies = s.tallies := rfl
@[simp] theorem State.logOvs_statusDue (s : State) (code aux : Nat) (data : Dword) :
    (s.logOvs code aux data).statusDue = s.statusDue := rfl
@[simp] theorem State.logOvs_out (s : State) (code aux : Nat) (data : Dword) :
    (s.logOvs code aux data).out = s.out := rfl
@[simp] theorem State.logOvs_free (s : State) (code aux : Nat) (data : Dword) :
    (s.logOvs code aux data).free = s.free := rfl

@[simp] theorem State.logTd_getReg (s : State) (d : Td) (code aux : Nat) (data : Dword) (b : Nat) :
    (s.logTd d code aux data).getReg b = s.getReg b := rfl
@[simp] theorem State.logTd_core (s : State) (d : Td) (code aux : Nat) (data : Dword) (h : CoreId) :
    (s.logTd d code aux data).core h = s.core h := rfl
@[simp] theorem State.logTd_td (s : State) (d : Td) (code aux : Nat) (data : Dword) (b : Td) :
    (s.logTd d code aux data).td b = s.td b := rfl
@[simp] theorem State.logTd_spool (s : State) (d : Td) (code aux : Nat) (data : Dword) (b : Td) (j : SpoolId) :
    (s.logTd d code aux data).spool b j = s.spool b j := rfl
@[simp] theorem State.logTd_fn (s : State) (d : Td) (code aux : Nat) (data : Dword) (b : Td) (j : Fn) :
    (s.logTd d code aux data).fn b j = s.fn b j := rfl
@[simp] theorem State.logTd_port (s : State) (d : Td) (code aux : Nat) (data : Dword) (q : PortId) :
    (s.logTd d code aux data).port q = s.port q := rfl
@[simp] theorem State.logTd_sd (s : State) (d : Td) (code aux : Nat) (data : Dword) (q : Sd) :
    (s.logTd d code aux data).sd q = s.sd q := rfl
@[simp] theorem State.logTd_tally (s : State) (d : Td) (code aux : Nat) (data : Dword) (q : Die) (m : TallyNo) :
    (s.logTd d code aux data).tally q m = s.tally q m := rfl
@[simp] theorem State.logTd_rawByte (s : State) (d : Td) (code aux : Nat) (data : Dword) (b : Nat) :
    (s.logTd d code aux data).rawByte b = s.rawByte b := rfl
@[simp] theorem State.logTd_pending (s : State) (d : Td) (code aux : Nat) (data : Dword) :
    (s.logTd d code aux data).pending = s.pending := rfl
@[simp] theorem State.logTd_regs (s : State) (d : Td) (code aux : Nat) (data : Dword) :
    (s.logTd d code aux data).regs = s.regs := rfl
@[simp] theorem State.logTd_mem (s : State) (d : Td) (code aux : Nat) (data : Dword) :
    (s.logTd d code aux data).mem = s.mem := rfl
@[simp] theorem State.logTd_badPar (s : State) (d : Td) (code aux : Nat) (data : Dword) :
    (s.logTd d code aux data).badPar = s.badPar := rfl
@[simp] theorem State.logTd_undefs (s : State) (d : Td) (code aux : Nat) (data : Dword) :
    (s.logTd d code aux data).undefs = s.undefs := rfl
@[simp] theorem State.logTd_low (s : State) (d : Td) (code aux : Nat) (data : Dword) :
    (s.logTd d code aux data).low = s.low := rfl
@[simp] theorem State.logTd_latches (s : State) (d : Td) (code aux : Nat) (data : Dword) :
    (s.logTd d code aux data).latches = s.latches := rfl
@[simp] theorem State.logTd_cores (s : State) (d : Td) (code aux : Nat) (data : Dword) :
    (s.logTd d code aux data).cores = s.cores := rfl
@[simp] theorem State.logTd_td0 (s : State) (d : Td) (code aux : Nat) (data : Dword) :
    (s.logTd d code aux data).td0 = s.td0 := rfl
@[simp] theorem State.logTd_td1 (s : State) (d : Td) (code aux : Nat) (data : Dword) :
    (s.logTd d code aux data).td1 = s.td1 := rfl
@[simp] theorem State.logTd_ports (s : State) (d : Td) (code aux : Nat) (data : Dword) :
    (s.logTd d code aux data).ports = s.ports := rfl
@[simp] theorem State.logTd_sds (s : State) (d : Td) (code aux : Nat) (data : Dword) :
    (s.logTd d code aux data).sds = s.sds := rfl
@[simp] theorem State.logTd_heddle (s : State) (d : Td) (code aux : Nat) (data : Dword) :
    (s.logTd d code aux data).heddle = s.heddle := rfl
@[simp] theorem State.logTd_overseer (s : State) (d : Td) (code aux : Nat) (data : Dword) :
    (s.logTd d code aux data).overseer = s.overseer := rfl
@[simp] theorem State.logTd_temple (s : State) (d : Td) (code aux : Nat) (data : Dword) :
    (s.logTd d code aux data).temple = s.temple := rfl
@[simp] theorem State.logTd_power (s : State) (d : Td) (code aux : Nat) (data : Dword) :
    (s.logTd d code aux data).power = s.power := rfl
@[simp] theorem State.logTd_pins (s : State) (d : Td) (code aux : Nat) (data : Dword) :
    (s.logTd d code aux data).pins = s.pins := rfl
@[simp] theorem State.logTd_jtag (s : State) (d : Td) (code aux : Nat) (data : Dword) :
    (s.logTd d code aux data).jtag = s.jtag := rfl
@[simp] theorem State.logTd_tallies (s : State) (d : Td) (code aux : Nat) (data : Dword) :
    (s.logTd d code aux data).tallies = s.tallies := rfl
@[simp] theorem State.logTd_statusDue (s : State) (d : Td) (code aux : Nat) (data : Dword) :
    (s.logTd d code aux data).statusDue = s.statusDue := rfl
@[simp] theorem State.logTd_out (s : State) (d : Td) (code aux : Nat) (data : Dword) :
    (s.logTd d code aux data).out = s.out := rfl
@[simp] theorem State.logTd_free (s : State) (d : Td) (code aux : Nat) (data : Dword) :
    (s.logTd d code aux data).free = s.free := rfl

@[simp] theorem State.logSd_getReg (s : State) (n : Sd) (code aux : Nat) (data : Dword) (b : Nat) :
    (s.logSd n code aux data).getReg b = s.getReg b := rfl
@[simp] theorem State.logSd_core (s : State) (n : Sd) (code aux : Nat) (data : Dword) (h : CoreId) :
    (s.logSd n code aux data).core h = s.core h := rfl
@[simp] theorem State.logSd_td (s : State) (n : Sd) (code aux : Nat) (data : Dword) (b : Td) :
    (s.logSd n code aux data).td b = s.td b := rfl
@[simp] theorem State.logSd_spool (s : State) (n : Sd) (code aux : Nat) (data : Dword) (b : Td) (j : SpoolId) :
    (s.logSd n code aux data).spool b j = s.spool b j := rfl
@[simp] theorem State.logSd_fn (s : State) (n : Sd) (code aux : Nat) (data : Dword) (b : Td) (j : Fn) :
    (s.logSd n code aux data).fn b j = s.fn b j := rfl
@[simp] theorem State.logSd_port (s : State) (n : Sd) (code aux : Nat) (data : Dword) (q : PortId) :
    (s.logSd n code aux data).port q = s.port q := rfl
@[simp] theorem State.logSd_sd (s : State) (n : Sd) (code aux : Nat) (data : Dword) (q : Sd) :
    (s.logSd n code aux data).sd q = s.sd q := rfl
@[simp] theorem State.logSd_tally (s : State) (n : Sd) (code aux : Nat) (data : Dword) (q : Die) (m : TallyNo) :
    (s.logSd n code aux data).tally q m = s.tally q m := rfl
@[simp] theorem State.logSd_rawByte (s : State) (n : Sd) (code aux : Nat) (data : Dword) (b : Nat) :
    (s.logSd n code aux data).rawByte b = s.rawByte b := rfl
@[simp] theorem State.logSd_pending (s : State) (n : Sd) (code aux : Nat) (data : Dword) :
    (s.logSd n code aux data).pending = s.pending := rfl
@[simp] theorem State.logSd_regs (s : State) (n : Sd) (code aux : Nat) (data : Dword) :
    (s.logSd n code aux data).regs = s.regs := rfl
@[simp] theorem State.logSd_mem (s : State) (n : Sd) (code aux : Nat) (data : Dword) :
    (s.logSd n code aux data).mem = s.mem := rfl
@[simp] theorem State.logSd_badPar (s : State) (n : Sd) (code aux : Nat) (data : Dword) :
    (s.logSd n code aux data).badPar = s.badPar := rfl
@[simp] theorem State.logSd_undefs (s : State) (n : Sd) (code aux : Nat) (data : Dword) :
    (s.logSd n code aux data).undefs = s.undefs := rfl
@[simp] theorem State.logSd_low (s : State) (n : Sd) (code aux : Nat) (data : Dword) :
    (s.logSd n code aux data).low = s.low := rfl
@[simp] theorem State.logSd_latches (s : State) (n : Sd) (code aux : Nat) (data : Dword) :
    (s.logSd n code aux data).latches = s.latches := rfl
@[simp] theorem State.logSd_cores (s : State) (n : Sd) (code aux : Nat) (data : Dword) :
    (s.logSd n code aux data).cores = s.cores := rfl
@[simp] theorem State.logSd_td0 (s : State) (n : Sd) (code aux : Nat) (data : Dword) :
    (s.logSd n code aux data).td0 = s.td0 := rfl
@[simp] theorem State.logSd_td1 (s : State) (n : Sd) (code aux : Nat) (data : Dword) :
    (s.logSd n code aux data).td1 = s.td1 := rfl
@[simp] theorem State.logSd_ports (s : State) (n : Sd) (code aux : Nat) (data : Dword) :
    (s.logSd n code aux data).ports = s.ports := rfl
@[simp] theorem State.logSd_sds (s : State) (n : Sd) (code aux : Nat) (data : Dword) :
    (s.logSd n code aux data).sds = s.sds := rfl
@[simp] theorem State.logSd_heddle (s : State) (n : Sd) (code aux : Nat) (data : Dword) :
    (s.logSd n code aux data).heddle = s.heddle := rfl
@[simp] theorem State.logSd_overseer (s : State) (n : Sd) (code aux : Nat) (data : Dword) :
    (s.logSd n code aux data).overseer = s.overseer := rfl
@[simp] theorem State.logSd_temple (s : State) (n : Sd) (code aux : Nat) (data : Dword) :
    (s.logSd n code aux data).temple = s.temple := rfl
@[simp] theorem State.logSd_power (s : State) (n : Sd) (code aux : Nat) (data : Dword) :
    (s.logSd n code aux data).power = s.power := rfl
@[simp] theorem State.logSd_pins (s : State) (n : Sd) (code aux : Nat) (data : Dword) :
    (s.logSd n code aux data).pins = s.pins := rfl
@[simp] theorem State.logSd_jtag (s : State) (n : Sd) (code aux : Nat) (data : Dword) :
    (s.logSd n code aux data).jtag = s.jtag := rfl
@[simp] theorem State.logSd_tallies (s : State) (n : Sd) (code aux : Nat) (data : Dword) :
    (s.logSd n code aux data).tallies = s.tallies := rfl
@[simp] theorem State.logSd_statusDue (s : State) (n : Sd) (code aux : Nat) (data : Dword) :
    (s.logSd n code aux data).statusDue = s.statusDue := rfl
@[simp] theorem State.logSd_out (s : State) (n : Sd) (code aux : Nat) (data : Dword) :
    (s.logSd n code aux data).out = s.out := rfl
@[simp] theorem State.logSd_free (s : State) (n : Sd) (code aux : Nat) (data : Dword) :
    (s.logSd n code aux data).free = s.free := rfl

@[simp] theorem State.logTpl_getReg (s : State) (code aux : Nat) (data : Dword) (b : Nat) :
    (s.logTpl code aux data).getReg b = s.getReg b := rfl
@[simp] theorem State.logTpl_core (s : State) (code aux : Nat) (data : Dword) (h : CoreId) :
    (s.logTpl code aux data).core h = s.core h := rfl
@[simp] theorem State.logTpl_td (s : State) (code aux : Nat) (data : Dword) (b : Td) :
    (s.logTpl code aux data).td b = s.td b := rfl
@[simp] theorem State.logTpl_spool (s : State) (code aux : Nat) (data : Dword) (b : Td) (j : SpoolId) :
    (s.logTpl code aux data).spool b j = s.spool b j := rfl
@[simp] theorem State.logTpl_fn (s : State) (code aux : Nat) (data : Dword) (b : Td) (j : Fn) :
    (s.logTpl code aux data).fn b j = s.fn b j := rfl
@[simp] theorem State.logTpl_port (s : State) (code aux : Nat) (data : Dword) (q : PortId) :
    (s.logTpl code aux data).port q = s.port q := rfl
@[simp] theorem State.logTpl_sd (s : State) (code aux : Nat) (data : Dword) (q : Sd) :
    (s.logTpl code aux data).sd q = s.sd q := rfl
@[simp] theorem State.logTpl_tally (s : State) (code aux : Nat) (data : Dword) (q : Die) (m : TallyNo) :
    (s.logTpl code aux data).tally q m = s.tally q m := rfl
@[simp] theorem State.logTpl_rawByte (s : State) (code aux : Nat) (data : Dword) (b : Nat) :
    (s.logTpl code aux data).rawByte b = s.rawByte b := rfl
@[simp] theorem State.logTpl_pending (s : State) (code aux : Nat) (data : Dword) :
    (s.logTpl code aux data).pending = s.pending := rfl
@[simp] theorem State.logTpl_regs (s : State) (code aux : Nat) (data : Dword) :
    (s.logTpl code aux data).regs = s.regs := rfl
@[simp] theorem State.logTpl_mem (s : State) (code aux : Nat) (data : Dword) :
    (s.logTpl code aux data).mem = s.mem := rfl
@[simp] theorem State.logTpl_badPar (s : State) (code aux : Nat) (data : Dword) :
    (s.logTpl code aux data).badPar = s.badPar := rfl
@[simp] theorem State.logTpl_undefs (s : State) (code aux : Nat) (data : Dword) :
    (s.logTpl code aux data).undefs = s.undefs := rfl
@[simp] theorem State.logTpl_low (s : State) (code aux : Nat) (data : Dword) :
    (s.logTpl code aux data).low = s.low := rfl
@[simp] theorem State.logTpl_latches (s : State) (code aux : Nat) (data : Dword) :
    (s.logTpl code aux data).latches = s.latches := rfl
@[simp] theorem State.logTpl_cores (s : State) (code aux : Nat) (data : Dword) :
    (s.logTpl code aux data).cores = s.cores := rfl
@[simp] theorem State.logTpl_td0 (s : State) (code aux : Nat) (data : Dword) :
    (s.logTpl code aux data).td0 = s.td0 := rfl
@[simp] theorem State.logTpl_td1 (s : State) (code aux : Nat) (data : Dword) :
    (s.logTpl code aux data).td1 = s.td1 := rfl
@[simp] theorem State.logTpl_ports (s : State) (code aux : Nat) (data : Dword) :
    (s.logTpl code aux data).ports = s.ports := rfl
@[simp] theorem State.logTpl_sds (s : State) (code aux : Nat) (data : Dword) :
    (s.logTpl code aux data).sds = s.sds := rfl
@[simp] theorem State.logTpl_heddle (s : State) (code aux : Nat) (data : Dword) :
    (s.logTpl code aux data).heddle = s.heddle := rfl
@[simp] theorem State.logTpl_overseer (s : State) (code aux : Nat) (data : Dword) :
    (s.logTpl code aux data).overseer = s.overseer := rfl
@[simp] theorem State.logTpl_temple (s : State) (code aux : Nat) (data : Dword) :
    (s.logTpl code aux data).temple = s.temple := rfl
@[simp] theorem State.logTpl_power (s : State) (code aux : Nat) (data : Dword) :
    (s.logTpl code aux data).power = s.power := rfl
@[simp] theorem State.logTpl_pins (s : State) (code aux : Nat) (data : Dword) :
    (s.logTpl code aux data).pins = s.pins := rfl
@[simp] theorem State.logTpl_jtag (s : State) (code aux : Nat) (data : Dword) :
    (s.logTpl code aux data).jtag = s.jtag := rfl
@[simp] theorem State.logTpl_tallies (s : State) (code aux : Nat) (data : Dword) :
    (s.logTpl code aux data).tallies = s.tallies := rfl
@[simp] theorem State.logTpl_statusDue (s : State) (code aux : Nat) (data : Dword) :
    (s.logTpl code aux data).statusDue = s.statusDue := rfl
@[simp] theorem State.logTpl_out (s : State) (code aux : Nat) (data : Dword) :
    (s.logTpl code aux data).out = s.out := rfl
@[simp] theorem State.logTpl_free (s : State) (code aux : Nat) (data : Dword) :
    (s.logTpl code aux data).free = s.free := rfl

@[simp] theorem State.logDie_getReg (s : State) (d : Die) (code aux : Nat) (data : Dword) (b : Nat) :
    (s.logDie d code aux data).getReg b = s.getReg b := rfl
@[simp] theorem State.logDie_core (s : State) (d : Die) (code aux : Nat) (data : Dword) (h : CoreId) :
    (s.logDie d code aux data).core h = s.core h := rfl
@[simp] theorem State.logDie_td (s : State) (d : Die) (code aux : Nat) (data : Dword) (b : Td) :
    (s.logDie d code aux data).td b = s.td b := rfl
@[simp] theorem State.logDie_spool (s : State) (d : Die) (code aux : Nat) (data : Dword) (b : Td) (j : SpoolId) :
    (s.logDie d code aux data).spool b j = s.spool b j := rfl
@[simp] theorem State.logDie_fn (s : State) (d : Die) (code aux : Nat) (data : Dword) (b : Td) (j : Fn) :
    (s.logDie d code aux data).fn b j = s.fn b j := rfl
@[simp] theorem State.logDie_port (s : State) (d : Die) (code aux : Nat) (data : Dword) (q : PortId) :
    (s.logDie d code aux data).port q = s.port q := rfl
@[simp] theorem State.logDie_sd (s : State) (d : Die) (code aux : Nat) (data : Dword) (q : Sd) :
    (s.logDie d code aux data).sd q = s.sd q := rfl
@[simp] theorem State.logDie_tally (s : State) (d : Die) (code aux : Nat) (data : Dword) (q : Die) (m : TallyNo) :
    (s.logDie d code aux data).tally q m = s.tally q m := rfl
@[simp] theorem State.logDie_rawByte (s : State) (d : Die) (code aux : Nat) (data : Dword) (b : Nat) :
    (s.logDie d code aux data).rawByte b = s.rawByte b := rfl
@[simp] theorem State.logDie_pending (s : State) (d : Die) (code aux : Nat) (data : Dword) :
    (s.logDie d code aux data).pending = s.pending := rfl
@[simp] theorem State.logDie_regs (s : State) (d : Die) (code aux : Nat) (data : Dword) :
    (s.logDie d code aux data).regs = s.regs := rfl
@[simp] theorem State.logDie_mem (s : State) (d : Die) (code aux : Nat) (data : Dword) :
    (s.logDie d code aux data).mem = s.mem := rfl
@[simp] theorem State.logDie_badPar (s : State) (d : Die) (code aux : Nat) (data : Dword) :
    (s.logDie d code aux data).badPar = s.badPar := rfl
@[simp] theorem State.logDie_undefs (s : State) (d : Die) (code aux : Nat) (data : Dword) :
    (s.logDie d code aux data).undefs = s.undefs := rfl
@[simp] theorem State.logDie_low (s : State) (d : Die) (code aux : Nat) (data : Dword) :
    (s.logDie d code aux data).low = s.low := rfl
@[simp] theorem State.logDie_latches (s : State) (d : Die) (code aux : Nat) (data : Dword) :
    (s.logDie d code aux data).latches = s.latches := rfl
@[simp] theorem State.logDie_cores (s : State) (d : Die) (code aux : Nat) (data : Dword) :
    (s.logDie d code aux data).cores = s.cores := rfl
@[simp] theorem State.logDie_td0 (s : State) (d : Die) (code aux : Nat) (data : Dword) :
    (s.logDie d code aux data).td0 = s.td0 := rfl
@[simp] theorem State.logDie_td1 (s : State) (d : Die) (code aux : Nat) (data : Dword) :
    (s.logDie d code aux data).td1 = s.td1 := rfl
@[simp] theorem State.logDie_ports (s : State) (d : Die) (code aux : Nat) (data : Dword) :
    (s.logDie d code aux data).ports = s.ports := rfl
@[simp] theorem State.logDie_sds (s : State) (d : Die) (code aux : Nat) (data : Dword) :
    (s.logDie d code aux data).sds = s.sds := rfl
@[simp] theorem State.logDie_heddle (s : State) (d : Die) (code aux : Nat) (data : Dword) :
    (s.logDie d code aux data).heddle = s.heddle := rfl
@[simp] theorem State.logDie_overseer (s : State) (d : Die) (code aux : Nat) (data : Dword) :
    (s.logDie d code aux data).overseer = s.overseer := rfl
@[simp] theorem State.logDie_temple (s : State) (d : Die) (code aux : Nat) (data : Dword) :
    (s.logDie d code aux data).temple = s.temple := rfl
@[simp] theorem State.logDie_power (s : State) (d : Die) (code aux : Nat) (data : Dword) :
    (s.logDie d code aux data).power = s.power := rfl
@[simp] theorem State.logDie_pins (s : State) (d : Die) (code aux : Nat) (data : Dword) :
    (s.logDie d code aux data).pins = s.pins := rfl
@[simp] theorem State.logDie_jtag (s : State) (d : Die) (code aux : Nat) (data : Dword) :
    (s.logDie d code aux data).jtag = s.jtag := rfl
@[simp] theorem State.logDie_tallies (s : State) (d : Die) (code aux : Nat) (data : Dword) :
    (s.logDie d code aux data).tallies = s.tallies := rfl
@[simp] theorem State.logDie_statusDue (s : State) (d : Die) (code aux : Nat) (data : Dword) :
    (s.logDie d code aux data).statusDue = s.statusDue := rfl
@[simp] theorem State.logDie_out (s : State) (d : Die) (code aux : Nat) (data : Dword) :
    (s.logDie d code aux data).out = s.out := rfl
@[simp] theorem State.logDie_free (s : State) (d : Die) (code aux : Nat) (data : Dword) :
    (s.logDie d code aux data).free = s.free := rfl

/-! ## Bytes -/

/-- Members of a rising list after one is added. -/
theorem mem_addKey (l : List Nat) (k x : Nat) : x ∈ addKey l k ↔ x = k ∨ x ∈ l := by
  induction l with
  | nil => simp [addKey]
  | cons a t ih =>
    simp only [addKey]
    split
    · simp
    · split
      · next h => simp [h]
      · simp [ih, or_left_comm]

/-- What a byte's definedness reads: two states that agree in it agree on the generation of a byte. -/
theorem State.undefGen_congr {s t : State} {a : Nat} (hw : (a ∈ t.undefs.written) ↔ (a ∈ s.undefs.written))
    (hk : t.undefs.kept = s.undefs.kept) (hb : t.undefs.base = s.undefs.base) (hs : t.undefs.still = s.undefs.still)
    (hg : t.heddle.gen = s.heddle.gen) (hc : ∀ g, t.core g = s.core g) (hr : ∀ g o, t.creg g o = s.creg g o) :
    t.undefGen a = s.undefGen a := by
  simp only [State.undefGen, State.carryBit, hk, hb, hs, hg, hc, hr]
  split
  · rfl
  · simp [hw]

/-- What a byte reads after a byte was written. -/
theorem State.setByte_byte (s : State) (a b : Nat) (v : Byte) : (s.setByte a v).byte b = if b = a then v else s.byte b := by
  by_cases hk : (undefKey a).isSome
  · have e : s.setByte a v =
        { s.putByte a v with undefs := { s.undefs with written := addKey s.undefs.written a } } := by
      simp only [State.setByte, hk, if_true]; rfl
    by_cases h : b = a
    · subst h
      obtain ⟨⟨g, key⟩, hk⟩ := Option.isSome_iff_exists.mp hk
      have u : (s.setByte b v).undefGen b = none := by
        rw [e]; simp [State.undefGen, hk, mem_addKey]
      simp only [State.byte, u, if_true]
      rw [e]; simp [State.rawByte, State.putByte]
    · have u : (s.setByte a v).undefGen b = s.undefGen b := by
        rw [e]
        refine State.undefGen_congr ?_ rfl rfl rfl rfl (fun _ => rfl) (fun _ _ => rfl)
        simp [mem_addKey, h]
      simp only [State.byte, u, if_neg h]
      rw [e]; simp [State.rawByte, State.putByte, sget_sset, h]
  · have e : s.setByte a v = s.putByte a v := by simp [State.setByte, hk]
    have u : ∀ x, (s.putByte a v).undefGen x = s.undefGen x := fun x => rfl
    simp only [State.byte, e, u]
    by_cases h : b = a
    · subst h
      have n : s.undefGen b = none := by
        simp only [State.undefGen]; split
        · rfl
        · next hh => simp [hh] at hk
      simp [n, State.rawByte, State.putByte]
    · simp [State.rawByte, State.putByte, sget_sset, h]

/-- What a byte reads after a run of bytes was written. -/
theorem State.setBytes_byte (s : State) (a b : Nat) (l : List Byte) :
    (s.setBytes a l).byte b = if a ≤ b then (l[b - a]?).getD (s.byte b) else s.byte b := by
  have key : ∀ (l : List Byte) (k : Nat) (s : State),
      ((l.zipIdx k).foldl (fun s e => s.setByte (a + e.2) e.1) s).byte b =
        if a + k ≤ b then (l[b - (a + k)]?).getD (s.byte b) else s.byte b := by
    intro l
    induction l with
    | nil => intro k s; simp
    | cons x t ih =>
      intro k s
      simp only [List.zipIdx_cons, List.foldl_cons, ih, State.setByte_byte]
      by_cases h : b = a + k
      · subst h; simp
      · by_cases h1 : a + k ≤ b
        · have h2 : a + (k + 1) ≤ b := by omega
          have h3 : b - (a + k) = (b - (a + (k + 1))) + 1 := by omega
          simp only [h1, h2, if_true, h3, List.getElem?_cons_succ, if_neg h]
        · have h2 : ¬ a + (k + 1) ≤ b := by omega
          simp only [h1, h2, if_false, if_neg h]
  have h := key l 0 s
  simp only [Nat.add_zero] at h
  exact h

/-- Parity changes no byte. -/
@[simp] theorem State.setPar_byte (s : State) (a : Nat) (bad : Bool) (b : Nat) : (s.setPar a bad).byte b = s.byte b := rfl

/-- The number of a run of little-endian bytes. -/
theorem leNat_leBytes (n v : Nat) : leNat (leBytes n v) = v % 256 ^ n := by
  induction n generalizing v with
  | zero => simp [leBytes, leNat, Nat.mod_one]
  | succ n ih =>
    simp only [leBytes, leNat, ih, BitVec.toNat_ofNat]
    rw [show (256 : Nat) ^ (n + 1) = 256 * 256 ^ n by rw [Nat.pow_succ, Nat.mul_comm], Nat.mod_mul]
/-- How many bytes there are. -/
@[simp] theorem leBytes_length (n v : Nat) : (leBytes n v).length = n := by
  induction n generalizing v with
  | zero => rfl
  | succ n ih => simp [leBytes, ih]

/-- The bytes of a run just written. -/
theorem State.setBytes_bytes_self (s : State) (a : Nat) (l : List Byte) : (s.setBytes a l).bytes a l.length = l := by
  refine List.ext_getElem? fun i => ?_
  simp only [State.bytes, State.setBytes_byte]
  by_cases h : i < l.length
  · simp [h]
  · simp [h]
/-- Bytes outside a run just written. -/
theorem State.setBytes_bytes_ne (s : State) (a b n : Nat) (l : List Byte) (h : b + n ≤ a ∨ a + l.length ≤ b) :
    (s.setBytes a l).bytes b n = s.bytes b n := by
  refine List.map_congr_left fun i hi => ?_
  have hi := List.mem_range.mp hi
  rw [State.setBytes_byte]
  split
  · rw [List.getElem?_eq_none (by omega)]; rfl
  · rfl

end Sys2Proof.Machine
end

