-- ==== Sys2Proof/Laws/Clock.lean ====
section
/-! SUPPORT. What the events of one clk leave as they were in the pick generation: the count of clk, the clk of the pick and of its
fell window, and the phase. One lemma per operation that a clk (Machine/Tick.lean) is made of. -/

namespace Sys2Proof.Machine

/-- The clk and the phase of pick generation stay (see the header). -/
structure Clocked (s t : State) : Prop where
  now : t.heddle.now = s.heddle.now
  clk : t.heddle.clk = s.heddle.clk
  winClk : t.heddle.winClk = s.heddle.winClk
  phase : t.heddle.phase = s.heddle.phase

/-- Nothing done keeps the clk. -/
theorem Clocked.refl (s : State) : Clocked s s := ⟨rfl, rfl, rfl, rfl⟩

/-- A change of other fields, for a state written as a record. -/
theorem Clocked.record {s t : State} (h : Clocked s t) {pending regs mem badPar undefs low latches cores td0 td1 ports sds}
    {heddle overseer temple power pins jtag tallies logs statusDue out free}
    (hn : heddle.now = t.heddle.now) (hc : heddle.clk = t.heddle.clk) (hw : heddle.winClk = t.heddle.winClk)
    (hp : heddle.phase = t.heddle.phase) : Clocked s
      (State.mk pending regs mem badPar undefs low latches cores td0 td1 ports sds heddle overseer temple power pins jtag
        tallies logs statusDue out free) :=
  ⟨hn.trans h.now, hc.trans h.clk, hw.trans h.winClk, hp.trans h.phase⟩

/-- A fold of steps each of which keeps the clk. -/
theorem Clocked.foldl {α : Type} {s t : State} (h : Clocked s t) (f : State → α → State) (l : List α)
    (hf : ∀ u x, Clocked s u → Clocked s (f u x)) : Clocked s (l.foldl f t) := by
  induction l generalizing t with
  | nil => exact h
  | cons x l ih => exact ih (hf _ _ h)

/-- A fold that carries a state and more. -/
theorem Clocked.foldl_fst {α β : Type} {s : State} {t : State × β} (h : Clocked s t.1) (f : State × β → α → State × β)
    (l : List α) (hf : ∀ u x, Clocked s u.1 → Clocked s (f u x).1) : Clocked s (l.foldl f t).1 := by
  induction l generalizing t with
  | nil => exact h
  | cons x l ih => exact ih (hf _ _ h)

/-- The state of a pair whose parts are named. -/
theorem Clocked.of_fst {β : Type} {s t : State} {b : β} {p : State × β} (e : p = (t, b)) (h : Clocked s p.1) : Clocked s t := by
  subst e; exact h

/-- Either branch. -/
theorem Clocked.ite {s t u : State} {p : Prop} [Decidable p] (h : Clocked s t) (k : Clocked s u) :
    Clocked s (if p then t else u) := by split <;> assumption

/-- Either branch, of a pair. -/
theorem Clocked.ite_fst {β : Type} {s : State} {t u : State × β} {p : Prop} [Decidable p] (h : Clocked s t.1)
    (k : Clocked s u.1) : Clocked s (if p then t else u).1 := by split <;> assumption

/-- Either branch, of a pair whose second branch is written out. -/
theorem Clocked.ite_pair {β : Type} {s u : State} {t : State × β} {b : β} {p : Prop} [Decidable p] (h : Clocked s t.1)
    (k : Clocked s u) : Clocked s (if p then t else (u, b)).1 := by split <;> assumption

/-- State.setReg keeps the clk. -/
theorem State.setReg_clocked {s0 s : State} (a : Nat) (v : Dword) (hk : Clocked s0 s) : Clocked s0 (s.setReg a v) :=
  ⟨hk.now, hk.clk, hk.winClk, hk.phase⟩

/-- State.modReg keeps the clk. -/
theorem State.modReg_clocked {s0 s : State} (a : Nat) (f : Dword → Dword) (hk : Clocked s0 s) :
    Clocked s0 (State.modReg s a f) := by
  unfold State.modReg
  try dsimp only
  repeat'
    first
    | with_reducible assumption | intro _ | with_reducible apply Clocked.ite | with_reducible apply Clocked.ite_fst
    | with_reducible apply State.setReg_clocked

/-- State.count keeps the clk. -/
theorem State.count_clocked {s0 s : State} (a n : Nat) (hk : Clocked s0 s) : Clocked s0 (State.count s a n) := by
  unfold State.count
  try dsimp only
  repeat'
    first
    | with_reducible assumption | intro _ | with_reducible apply Clocked.ite | with_reducible apply Clocked.ite_fst
    | with_reducible apply State.modReg_clocked

/-- State.countWrap keeps the clk. -/
theorem State.countWrap_clocked {s0 s : State} (a n : Nat) (hk : Clocked s0 s) : Clocked s0 (State.countWrap s a n) := by
  unfold State.countWrap
  try dsimp only
  repeat'
    first
    | with_reducible assumption | intro _ | with_reducible apply Clocked.ite | with_reducible apply Clocked.ite_fst
    | with_reducible apply State.modReg_clocked

/-- State.setCore keeps the clk. -/
theorem State.setCore_clocked {s0 s : State} (g : CoreId) (c : Core) (hk : Clocked s0 s) : Clocked s0 (State.setCore s g c) := by
  unfold State.setCore
  try dsimp only
  repeat'
    first
    | with_reducible assumption | intro _ | with_reducible apply Clocked.ite | with_reducible apply Clocked.ite_fst
    | with_reducible refine Clocked.foldl ?_ _ _ ?_ | with_reducible refine Clocked.foldl_fst ?_ _ _ ?_
    | with_reducible refine Clocked.of_fst (by with_reducible assumption) ?_ | split
    | with_reducible refine Clocked.record ?_ rfl rfl rfl rfl

/-- State.modCore keeps the clk. -/
theorem State.modCore_clocked {s0 s : State} (g : CoreId) (f : Core → Core) (hk : Clocked s0 s) :
    Clocked s0 (State.modCore s g f) := by
  unfold State.modCore
  try dsimp only
  repeat'
    first
    | with_reducible assumption | intro _ | with_reducible apply Clocked.ite | with_reducible apply Clocked.ite_fst
    | with_reducible apply State.setCore_clocked

/-- State.setCreg keeps the clk. -/
theorem State.setCreg_clocked {s0 s : State} (g : CoreId) (o : Nat) (v : Dword) (hk : Clocked s0 s) :
    Clocked s0 (State.setCreg s g o v) := by
  unfold State.setCreg
  try dsimp only
  repeat'
    first
    | with_reducible assumption | intro _ | with_reducible apply Clocked.ite | with_reducible apply Clocked.ite_fst
    | with_reducible apply State.setReg_clocked

/-- State.ccount keeps the clk. -/
theorem State.ccount_clocked {s0 s : State} (g : CoreId) (o n : Nat) (hk : Clocked s0 s) : Clocked s0 (State.ccount s g o n) := by
  unfold State.ccount
  try dsimp only
  repeat'
    first
    | with_reducible assumption | intro _ | with_reducible apply Clocked.ite | with_reducible apply Clocked.ite_fst
    | with_reducible apply State.count_clocked

/-- State.setTd keeps the clk. -/
theorem State.setTd_clocked {s0 s : State} (td : Td) (t : Treadle) (hk : Clocked s0 s) : Clocked s0 (State.setTd s td t) := by
  unfold State.setTd
  try dsimp only
  repeat'
    first
    | with_reducible assumption | intro _ | with_reducible apply Clocked.ite | with_reducible apply Clocked.ite_fst
    | with_reducible refine Clocked.foldl ?_ _ _ ?_ | with_reducible refine Clocked.foldl_fst ?_ _ _ ?_
    | with_reducible refine Clocked.of_fst (by with_reducible assumption) ?_ | split
    | with_reducible refine Clocked.record ?_ rfl rfl rfl rfl

/-- State.setSpool keeps the clk. -/
theorem State.setSpool_clocked {s0 s : State} (td : Td) (sp : SpoolId) (x : Spool) (hk : Clocked s0 s) :
    Clocked s0 (State.setSpool s td sp x) := by
  unfold State.setSpool
  try dsimp only
  repeat'
    first
    | with_reducible assumption | intro _ | with_reducible apply Clocked.ite | with_reducible apply Clocked.ite_fst
    | with_reducible apply State.setTd_clocked

/-- State.setPort keeps the clk. -/
theorem State.setPort_clocked {s0 s : State} (p : PortId) (x : Port) (hk : Clocked s0 s) : Clocked s0 (State.setPort s p x) := by
  unfold State.setPort
  try dsimp only
  repeat'
    first
    | with_reducible assumption | intro _ | with_reducible apply Clocked.ite | with_reducible apply Clocked.ite_fst
    | with_reducible refine Clocked.foldl ?_ _ _ ?_ | with_reducible refine Clocked.foldl_fst ?_ _ _ ?_
    | with_reducible refine Clocked.of_fst (by with_reducible assumption) ?_ | split
    | with_reducible refine Clocked.record ?_ rfl rfl rfl rfl

/-- State.setSd keeps the clk. -/
theorem State.setSd_clocked {s0 s : State} (n : Sd) (x : Selvedge) (hk : Clocked s0 s) : Clocked s0 (State.setSd s n x) := by
  unfold State.setSd
  try dsimp only
  repeat'
    first
    | with_reducible assumption | intro _ | with_reducible apply Clocked.ite | with_reducible apply Clocked.ite_fst
    | with_reducible refine Clocked.foldl ?_ _ _ ?_ | with_reducible refine Clocked.foldl_fst ?_ _ _ ?_
    | with_reducible refine Clocked.of_fst (by with_reducible assumption) ?_ | split
    | with_reducible refine Clocked.record ?_ rfl rfl rfl rfl

/-- State.setLog keeps the clk. -/
theorem State.setLog_clocked {s0 s : State} (d : LogDie) (x : DieLog) (hk : Clocked s0 s) : Clocked s0 (State.setLog s d x) := by
  unfold State.setLog
  try dsimp only
  repeat'
    first
    | with_reducible assumption | intro _ | with_reducible apply Clocked.ite | with_reducible apply Clocked.ite_fst
    | with_reducible refine Clocked.foldl ?_ _ _ ?_ | with_reducible refine Clocked.foldl_fst ?_ _ _ ?_
    | with_reducible refine Clocked.of_fst (by with_reducible assumption) ?_ | split
    | with_reducible refine Clocked.record ?_ rfl rfl rfl rfl

/-- State.setTally keeps the clk. -/
theorem State.setTally_clocked {s0 s : State} (d : Die) (n : TallyNo) (x : TallyPass) (hk : Clocked s0 s) :
    Clocked s0 (State.setTally s d n x) := by
  unfold State.setTally
  try dsimp only
  repeat'
    first
    | with_reducible assumption | intro _ | with_reducible apply Clocked.ite | with_reducible apply Clocked.ite_fst
    | with_reducible refine Clocked.foldl ?_ _ _ ?_ | with_reducible refine Clocked.foldl_fst ?_ _ _ ?_
    | with_reducible refine Clocked.of_fst (by with_reducible assumption) ?_ | split
    | with_reducible refine Clocked.record ?_ rfl rfl rfl rfl

/-- State.emit keeps the clk. -/
theorem State.emit_clocked {s0 s : State} (o : Output) (hk : Clocked s0 s) : Clocked s0 (s.emit o) :=
  ⟨hk.now, hk.clk, hk.winClk, hk.phase⟩

/-- State.logEvent keeps the clk. -/
theorem State.logEvent_clocked {s0 s : State} (d : LogDie) (src : Nat) (code : Nat) (aux : Nat) (data : Dword) (hk : Clocked s0 s) :
    Clocked s0 (State.logEvent s d src code aux data) := by
  unfold State.logEvent
  try dsimp only
  repeat'
    first
    | with_reducible assumption | intro _ | with_reducible apply Clocked.ite | with_reducible apply Clocked.ite_fst
    | with_reducible apply State.setLog_clocked

/-- State.logCore keeps the clk. -/
theorem State.logCore_clocked {s0 s : State} (g : CoreId) (code : Nat) (data : Dword) (hk : Clocked s0 s) :
    Clocked s0 (State.logCore s g code data) := by
  unfold State.logCore
  try dsimp only
  repeat'
    first
    | with_reducible assumption | intro _ | with_reducible apply Clocked.ite | with_reducible apply Clocked.ite_fst
    | with_reducible apply State.logEvent_clocked

/-- State.logTd keeps the clk. -/
theorem State.logTd_clocked {s0 s : State} (td : Td) (code aux : Nat) (data : Dword) (hk : Clocked s0 s) :
    Clocked s0 (State.logTd s td code aux data) := by
  unfold State.logTd
  try dsimp only
  repeat'
    first
    | with_reducible assumption | intro _ | with_reducible apply Clocked.ite | with_reducible apply Clocked.ite_fst
    | with_reducible apply State.logEvent_clocked

/-- State.logSd keeps the clk. -/
theorem State.logSd_clocked {s0 s : State} (n : Sd) (code aux : Nat) (data : Dword) (hk : Clocked s0 s) :
    Clocked s0 (State.logSd s n code aux data) := by
  unfold State.logSd
  try dsimp only
  repeat'
    first
    | with_reducible assumption | intro _ | with_reducible apply Clocked.ite | with_reducible apply Clocked.ite_fst
    | with_reducible apply State.logEvent_clocked

/-- State.putByte keeps the clk. -/
theorem State.putByte_clocked {s0 s : State} (a : Nat) (b : Byte) (hk : Clocked s0 s) : Clocked s0 (s.putByte a b) :=
  ⟨hk.now, hk.clk, hk.winClk, hk.phase⟩

/-- State.setByte keeps the clk. -/
theorem State.setByte_clocked {s0 s : State} (a : Nat) (b : Byte) (hk : Clocked s0 s) : Clocked s0 (State.setByte s a b) := by
  unfold State.setByte
  try dsimp only
  repeat'
    first
    | with_reducible assumption | intro _ | with_reducible apply Clocked.ite | with_reducible apply Clocked.ite_fst
    | with_reducible apply State.putByte_clocked | with_reducible refine Clocked.foldl ?_ _ _ ?_
    | with_reducible refine Clocked.foldl_fst ?_ _ _ ?_
    | with_reducible refine Clocked.of_fst (by with_reducible assumption) ?_ | split
    | with_reducible refine Clocked.record ?_ rfl rfl rfl rfl

/-- State.setBytes keeps the clk. -/
theorem State.setBytes_clocked {s0 s : State} (a : Nat) (l : List Byte) (hk : Clocked s0 s) :
    Clocked s0 (State.setBytes s a l) := by
  unfold State.setBytes
  try dsimp only
  repeat'
    first
    | with_reducible assumption | intro _ | with_reducible apply Clocked.ite | with_reducible apply Clocked.ite_fst
    | with_reducible apply State.setByte_clocked | with_reducible refine Clocked.foldl ?_ _ _ ?_

/-- State.setPar keeps the clk. -/
theorem State.setPar_clocked {s0 s : State} (a : Nat) (bad : Bool) (hk : Clocked s0 s) : Clocked s0 (State.setPar s a bad) := by
  unfold State.setPar
  try dsimp only
  repeat'
    first
    | with_reducible assumption | intro _ | with_reducible apply Clocked.ite | with_reducible apply Clocked.ite_fst
    | with_reducible refine Clocked.foldl ?_ _ _ ?_ | with_reducible refine Clocked.foldl_fst ?_ _ _ ?_
    | with_reducible refine Clocked.of_fst (by with_reducible assumption) ?_ | split
    | with_reducible refine Clocked.record ?_ rfl rfl rfl rfl

/-- State.bankWrite keeps the clk. -/
theorem State.bankWrite_clocked {s0 s : State} (g : CoreId) (line : Nat) (mask : Dword) (data : BitVec 512) (bad : BitVec 16) (hk : Clocked s0 s) :
    Clocked s0 (State.bankWrite s g line mask data bad) := by
  unfold State.bankWrite
  try dsimp only
  repeat'
    first
    | with_reducible assumption | intro _ | with_reducible apply Clocked.ite | with_reducible apply Clocked.ite_fst
    | with_reducible apply State.setByte_clocked | with_reducible apply State.setPar_clocked
    | with_reducible apply State.modCore_clocked | with_reducible refine Clocked.foldl ?_ _ _ ?_

/-- State.parCounted keeps the clk. -/
theorem State.parCounted_clocked {s0 s : State} (g : CoreId) (off port : Nat) (hk : Clocked s0 s) :
    Clocked s0 (State.parCounted s g off port) := by
  unfold State.parCounted
  try dsimp only
  repeat'
    first
    | with_reducible assumption | intro _ | with_reducible apply Clocked.ite | with_reducible apply Clocked.ite_fst
    | with_reducible apply State.ccount_clocked | with_reducible apply State.logCore_clocked

/-- State.countWords keeps the clk. -/
theorem State.countWords_clocked {s0 s : State} (g : CoreId) (line port : Nat) (l : List Nat) (hk : Clocked s0 s) :
    Clocked s0 (State.countWords s g line port l) := by
  unfold State.countWords
  try dsimp only
  repeat'
    first
    | with_reducible assumption | intro _ | with_reducible apply Clocked.ite | with_reducible apply Clocked.ite_fst
    | with_reducible apply State.parCounted_clocked | with_reducible refine Clocked.foldl ?_ _ _ ?_

/-- State.mergeRead keeps the clk. -/
theorem State.mergeRead_clocked {s0 s : State} (g : CoreId) (e : SbEntry) (hk : Clocked s0 s) :
    Clocked s0 (State.mergeRead s g e).1 := by
  unfold State.mergeRead
  try dsimp only
  repeat'
    first
    | with_reducible assumption | intro _ | with_reducible apply Clocked.ite | with_reducible apply Clocked.ite_fst
    | with_reducible apply State.countWords_clocked

/-- State.writeEntry keeps the clk. -/
theorem State.writeEntry_clocked {s0 s : State} (g : CoreId) (e : SbEntry) (keep : BitVec 16) (hk : Clocked s0 s) :
    Clocked s0 (State.writeEntry s g e keep) := by
  unfold State.writeEntry
  try dsimp only
  repeat'
    first
    | with_reducible assumption | intro _ | with_reducible apply Clocked.ite | with_reducible apply Clocked.ite_fst
    | with_reducible apply State.bankWrite_clocked

/-- State.trackHigh keeps the clk. -/
theorem State.trackHigh_clocked {s0 s : State} (g : CoreId) (hk : Clocked s0 s) : Clocked s0 (State.trackHigh s g) := by
  unfold State.trackHigh
  try dsimp only
  repeat'
    first
    | with_reducible assumption | intro _ | with_reducible apply Clocked.ite | with_reducible apply Clocked.ite_fst
    | with_reducible apply State.setCreg_clocked

/-- State.takeEntry keeps the clk. -/
theorem State.takeEntry_clocked {s0 s : State} (g : CoreId) (op : Dword) (card step : Nat) (pick : Byte) (pro confirmed : Bool) (hk : Clocked s0 s) :
    Clocked s0 (State.takeEntry s g op card step pick pro confirmed) := by
  unfold State.takeEntry
  try dsimp only
  repeat'
    first
    | with_reducible assumption | intro _ | with_reducible apply Clocked.ite | with_reducible apply Clocked.ite_fst
    | with_reducible apply State.setCore_clocked | with_reducible apply State.trackHigh_clocked
    | with_reducible refine Clocked.foldl ?_ _ _ ?_ | with_reducible refine Clocked.foldl_fst ?_ _ _ ?_
    | with_reducible refine Clocked.of_fst (by with_reducible assumption) ?_ | split

/-- State.freeTrk keeps the clk. -/
theorem State.freeTrk_clocked {s0 s : State} (g : CoreId) (e : Nat) (hk : Clocked s0 s) : Clocked s0 (State.freeTrk s g e) := by
  unfold State.freeTrk
  try dsimp only
  repeat'
    first
    | with_reducible assumption | intro _ | with_reducible apply Clocked.ite | with_reducible apply Clocked.ite_fst
    | with_reducible apply State.modCore_clocked

/-- State.setCmd keeps the clk. -/
theorem State.setCmd_clocked {s0 s : State} (g : CoreId) (step slot : Nat) (ph : CmdPhase) (hk : Clocked s0 s) :
    Clocked s0 (State.setCmd s g step slot ph) := by
  unfold State.setCmd
  try dsimp only
  repeat'
    first
    | with_reducible assumption | intro _ | with_reducible apply Clocked.ite | with_reducible apply Clocked.ite_fst
    | with_reducible apply State.modCore_clocked

/-- State.retireTransfer keeps the clk. -/
theorem State.retireTransfer_clocked {s0 s : State} (g : CoreId) (e : Nat) (hk : Clocked s0 s) :
    Clocked s0 (State.retireTransfer s g e) := by
  unfold State.retireTransfer
  try dsimp only
  repeat'
    first
    | with_reducible assumption | intro _ | with_reducible apply Clocked.ite | with_reducible apply Clocked.ite_fst
    | with_reducible apply State.freeTrk_clocked | with_reducible apply State.setCmd_clocked
    | with_reducible refine Clocked.foldl ?_ _ _ ?_ | with_reducible refine Clocked.foldl_fst ?_ _ _ ?_
    | with_reducible refine Clocked.of_fst (by with_reducible assumption) ?_ | split

/-- State.cause keeps the clk. -/
theorem State.cause_clocked {s0 s : State} (code : Nat) (voter : Nat) (hk : Clocked s0 s) :
    Clocked s0 (State.cause s code voter) := by
  unfold State.cause
  try dsimp only
  repeat'
    first
    | with_reducible assumption | intro _ | with_reducible apply Clocked.ite | with_reducible apply Clocked.ite_fst
    | with_reducible refine Clocked.foldl ?_ _ _ ?_ | with_reducible refine Clocked.foldl_fst ?_ _ _ ?_
    | with_reducible refine Clocked.of_fst (by with_reducible assumption) ?_ | split
    | with_reducible refine Clocked.record ?_ rfl rfl rfl rfl

/-- State.rerunStep keeps the clk. -/
theorem State.rerunStep_clocked {s0 s : State} (g : CoreId) (si : StepInst) (v : Dword) (hk : Clocked s0 s) :
    Clocked s0 (State.rerunStep s g si v) := by
  unfold State.rerunStep
  try dsimp only
  repeat'
    first
    | with_reducible assumption | intro _ | with_reducible apply Clocked.ite | with_reducible apply Clocked.ite_fst
    | with_reducible apply State.freeTrk_clocked | with_reducible apply State.modCore_clocked
    | with_reducible apply State.setCreg_clocked | with_reducible apply State.ccount_clocked
    | with_reducible apply State.logCore_clocked | with_reducible refine Clocked.foldl ?_ _ _ ?_

/-- State.sourceError keeps the clk. -/
theorem State.sourceError_clocked {s0 s : State} (g : CoreId) (e : Dword) (hk : Clocked s0 s) :
    Clocked s0 (State.sourceError s g e) := by
  unfold State.sourceError
  try dsimp only
  repeat'
    first
    | with_reducible assumption | intro _ | with_reducible apply Clocked.ite | with_reducible apply Clocked.ite_fst
    | with_reducible apply State.ccount_clocked | with_reducible apply State.setCreg_clocked
    | with_reducible apply State.logCore_clocked | with_reducible apply State.modCore_clocked
    | with_reducible apply State.cause_clocked

/-- State.commandParity keeps the clk. -/
theorem State.commandParity_clocked {s0 s : State} (g : CoreId) (step : Nat) (v : Dword) (hk : Clocked s0 s) :
    Clocked s0 (State.commandParity s g step v) := by
  unfold State.commandParity
  try dsimp only
  repeat'
    first
    | with_reducible assumption | intro _ | with_reducible apply Clocked.ite | with_reducible apply Clocked.ite_fst
    | with_reducible apply State.sourceError_clocked | with_reducible apply State.rerunStep_clocked
    | with_reducible refine Clocked.foldl ?_ _ _ ?_ | with_reducible refine Clocked.foldl_fst ?_ _ _ ?_
    | with_reducible refine Clocked.of_fst (by with_reducible assumption) ?_ | split

/-- State.startLoad keeps the clk. -/
theorem State.startLoad_clocked {s0 s : State} (g : CoreId) (i : Inst) (hk : Clocked s0 s) :
    Clocked s0 (State.startLoad s g i) := by
  unfold State.startLoad
  try dsimp only
  repeat'
    first
    | with_reducible assumption | intro _ | with_reducible apply Clocked.ite | with_reducible apply Clocked.ite_fst
    | with_reducible apply State.takeEntry_clocked | with_reducible refine Clocked.foldl ?_ _ _ ?_
    | with_reducible refine Clocked.foldl_fst ?_ _ _ ?_
    | with_reducible refine Clocked.of_fst (by with_reducible assumption) ?_ | split

/-- State.prologueClk keeps the clk. -/
theorem State.prologueClk_clocked {s0 s : State} (g : CoreId) (hk : Clocked s0 s) : Clocked s0 (State.prologueClk s g) := by
  unfold State.prologueClk
  try dsimp only
  repeat'
    first
    | with_reducible assumption | intro _ | with_reducible apply Clocked.ite | with_reducible apply Clocked.ite_fst
    | with_reducible apply State.startLoad_clocked | with_reducible apply State.modCore_clocked
    | with_reducible refine Clocked.foldl ?_ _ _ ?_ | with_reducible refine Clocked.foldl_fst ?_ _ _ ?_
    | with_reducible refine Clocked.of_fst (by with_reducible assumption) ?_ | split

/-- State.perform keeps the clk. -/
theorem State.perform_clocked {s0 s : State} (g : CoreId) (a : Arb) (hk : Clocked s0 s) : Clocked s0 (State.perform s g a) := by
  unfold State.perform
  try dsimp only
  repeat'
    first
    | with_reducible assumption | intro _ | with_reducible apply Clocked.ite | with_reducible apply Clocked.ite_fst
    | with_reducible apply State.modCore_clocked | with_reducible apply State.mergeRead_clocked
    | with_reducible apply State.writeEntry_clocked | with_reducible apply State.bankWrite_clocked
    | with_reducible refine Clocked.foldl ?_ _ _ ?_

/-- State.beginSteps keeps the clk. -/
theorem State.beginSteps_clocked {s0 s : State} (g : CoreId) (hk : Clocked s0 s) : Clocked s0 (State.beginSteps s g).1 := by
  unfold State.beginSteps
  try dsimp only
  repeat'
    first
    | with_reducible assumption | intro _ | with_reducible apply Clocked.ite | with_reducible apply Clocked.ite_fst
    | with_reducible apply State.modCore_clocked

/-- State.addRun keeps the clk. -/
theorem State.addRun_clocked {s0 s : State} (g : CoreId) (r : Run) (hk : Clocked s0 s) : Clocked s0 (State.addRun s g r) := by
  unfold State.addRun
  try dsimp only
  repeat'
    first
    | with_reducible assumption | intro _ | with_reducible apply Clocked.ite | with_reducible apply Clocked.ite_fst
    | with_reducible apply State.modCore_clocked

/-- State.sigCounted keeps the clk. -/
theorem State.sigCounted_clocked {s0 s : State} (sent : Bool) (pick : Byte) (hk : Clocked s0 s) :
    Clocked s0 (State.sigCounted s sent pick) := by
  unfold State.sigCounted
  try dsimp only
  repeat'
    first
    | with_reducible assumption | intro _ | with_reducible apply Clocked.ite | with_reducible apply Clocked.ite_fst
    | with_reducible refine Clocked.foldl ?_ _ _ ?_ | with_reducible refine Clocked.foldl_fst ?_ _ _ ?_
    | with_reducible refine Clocked.of_fst (by with_reducible assumption) ?_ | split
    | with_reducible refine Clocked.record ?_ rfl rfl rfl rfl

/-- State.cross keeps the clk. -/
theorem State.cross_clocked {s0 s : State} (n : Sd) (g : CoreId) (m : SdMsg) (hk : Clocked s0 s) :
    Clocked s0 (State.cross s n g m) := by
  unfold State.cross
  try dsimp only
  repeat'
    first
    | with_reducible assumption | intro _ | with_reducible apply Clocked.ite | with_reducible apply Clocked.ite_fst
    | with_reducible apply State.setSd_clocked

/-- State.applySig keeps the clk. -/
theorem State.applySig_clocked {s0 s : State} (g : CoreId) (x : KnotSig) (hk : Clocked s0 s) :
    Clocked s0 (State.applySig s g x) := by
  unfold State.applySig
  try dsimp only
  repeat'
    first
    | with_reducible assumption | intro _ | with_reducible apply Clocked.ite | with_reducible apply Clocked.ite_fst
    | with_reducible apply State.countWrap_clocked | with_reducible apply State.modCore_clocked
    | with_reducible apply State.setCmd_clocked | with_reducible apply State.retireTransfer_clocked
    | with_reducible apply State.cross_clocked | with_reducible apply State.sigCounted_clocked
    | with_reducible refine Clocked.foldl ?_ _ _ ?_ | with_reducible refine Clocked.foldl_fst ?_ _ _ ?_
    | with_reducible refine Clocked.of_fst (by with_reducible assumption) ?_ | split

/-- State.knotClk keeps the clk. -/
theorem State.knotClk_clocked {s0 s : State} (g : CoreId) (hk : Clocked s0 s) : Clocked s0 (State.knotClk s g) := by
  unfold State.knotClk
  try dsimp only
  repeat'
    first
    | with_reducible assumption | intro _ | with_reducible apply Clocked.ite | with_reducible apply Clocked.ite_fst
    | with_reducible apply State.modCore_clocked | with_reducible apply State.applySig_clocked
    | with_reducible refine Clocked.foldl ?_ _ _ ?_

/-- State.holdClk keeps the clk. -/
theorem State.holdClk_clocked {s0 s : State} (g : CoreId) (hk : Clocked s0 s) : Clocked s0 (State.holdClk s g) := by
  unfold State.holdClk
  try dsimp only
  repeat'
    first
    | with_reducible assumption | intro _ | with_reducible apply Clocked.ite | with_reducible apply Clocked.ite_fst
    | with_reducible apply State.ccount_clocked | with_reducible apply State.setCreg_clocked
    | with_reducible refine Clocked.foldl ?_ _ _ ?_ | with_reducible refine Clocked.foldl_fst ?_ _ _ ?_
    | with_reducible refine Clocked.of_fst (by with_reducible assumption) ?_ | split

/-- State.parNoted keeps the clk. -/
theorem State.parNoted_clocked {s0 s : State} (g : CoreId) (v : Dword) (hk : Clocked s0 s) :
    Clocked s0 (State.parNoted s g v) := by
  unfold State.parNoted
  try dsimp only
  repeat'
    first
    | with_reducible assumption | intro _ | with_reducible apply Clocked.ite | with_reducible apply Clocked.ite_fst
    | with_reducible apply State.ccount_clocked | with_reducible apply State.logCore_clocked

/-- State.putTake keeps the clk. -/
theorem State.putTake_clocked {s0 s : State} (g : CoreId) (r j v : Nat) (hk : Clocked s0 s) :
    Clocked s0 (State.putTake s g r j v) := by
  unfold State.putTake
  try dsimp only
  repeat'
    first
    | with_reducible assumption | intro _ | with_reducible apply Clocked.ite | with_reducible apply Clocked.ite_fst
    | with_reducible apply State.setBytes_clocked | with_reducible apply State.setPar_clocked

/-- State.drainClk keeps the clk. -/
theorem State.drainClk_clocked {s0 s : State} (g : CoreId) (hk : Clocked s0 s) : Clocked s0 (State.drainClk s g).1 := by
  unfold State.drainClk
  try dsimp only
  repeat'
    first
    | with_reducible assumption | intro _ | with_reducible apply Clocked.ite | with_reducible apply Clocked.ite_fst
    | with_reducible apply State.putTake_clocked | with_reducible apply State.modCore_clocked
    | with_reducible refine Clocked.foldl ?_ _ _ ?_ | with_reducible refine Clocked.foldl_fst ?_ _ _ ?_
    | with_reducible refine Clocked.of_fst (by with_reducible assumption) ?_ | split

/-- State.passStore keeps the clk. -/
theorem State.passStore_clocked {s0 s : State} (g : CoreId) (p : PassTime) (clk : Nat) (hk : Clocked s0 s) :
    Clocked s0 (State.passStore s g p clk) := by
  unfold State.passStore
  try dsimp only
  repeat'
    first
    | with_reducible assumption | intro _ | with_reducible apply Clocked.ite | with_reducible apply Clocked.ite_fst
    | with_reducible apply State.putTake_clocked | with_reducible refine Clocked.foldl ?_ _ _ ?_

/-- State.weaveClk keeps the clk. -/
theorem State.weaveClk_clocked {s0 s : State} (g : CoreId) (hk : Clocked s0 s) : Clocked s0 (State.weaveClk s g).1 := by
  unfold State.weaveClk
  try dsimp only
  repeat'
    first
    | with_reducible assumption | intro _ | with_reducible apply Clocked.ite | with_reducible apply Clocked.ite_fst
    | with_reducible apply State.ccount_clocked | with_reducible apply State.passStore_clocked
    | with_reducible apply State.setCmd_clocked | with_reducible apply State.drainClk_clocked
    | with_reducible apply State.modCore_clocked | with_reducible refine Clocked.foldl ?_ _ _ ?_

/-- State.tallyAsk keeps the clk. -/
theorem State.tallyAsk_clocked {s0 s : State} (d : Die) (n : TallyNo) (hk : Clocked s0 s) : Clocked s0 (State.tallyAsk s d n) := by
  unfold State.tallyAsk
  try dsimp only
  repeat'
    first
    | with_reducible assumption | intro _ | with_reducible apply Clocked.ite | with_reducible apply Clocked.ite_fst
    | with_reducible apply State.modCore_clocked | with_reducible refine Clocked.foldl ?_ _ _ ?_
    | with_reducible refine Clocked.foldl_fst ?_ _ _ ?_
    | with_reducible refine Clocked.of_fst (by with_reducible assumption) ?_ | split

/-- State.tallyLine keeps the clk. -/
theorem State.tallyLine_clocked {s0 s : State} (g : CoreId) (d : Die) (n : TallyNo) (data : List Byte) (bad : List Nat) (hk : Clocked s0 s) :
    Clocked s0 (State.tallyLine s g d n data bad) := by
  unfold State.tallyLine
  try dsimp only
  repeat'
    first
    | with_reducible assumption | intro _ | with_reducible apply Clocked.ite | with_reducible apply Clocked.ite_fst
    | with_reducible apply State.parCounted_clocked | with_reducible apply State.setTally_clocked
    | with_reducible apply State.tallyAsk_clocked | with_reducible refine Clocked.foldl ?_ _ _ ?_

/-- State.sendBytes keeps the clk. -/
theorem State.sendBytes_clocked {s0 s : State} (p : PortId) (vc : Fin 2) (l : List Byte) (hk : Clocked s0 s) :
    Clocked s0 (State.sendBytes s p vc l) := by
  unfold State.sendBytes
  try dsimp only
  repeat'
    first
    | with_reducible assumption | intro _ | with_reducible apply Clocked.ite | with_reducible apply Clocked.ite_fst
    | with_reducible apply State.setPort_clocked

/-- State.sdCause keeps the clk. -/
theorem State.sdCause_clocked {s0 s : State} (n : Sd) (code : Nat) (hk : Clocked s0 s) : Clocked s0 (State.sdCause s n code) := by
  unfold State.sdCause
  try dsimp only
  repeat'
    first
    | with_reducible assumption | intro _ | with_reducible apply Clocked.ite | with_reducible apply Clocked.ite_fst
    | with_reducible apply State.setSd_clocked | with_reducible apply State.cause_clocked

/-- State.noRoute keeps the clk. -/
theorem State.noRoute_clocked {s0 s : State} (n : Sd) (pkg : Nat) (hk : Clocked s0 s) : Clocked s0 (State.noRoute s n pkg) := by
  unfold State.noRoute
  try dsimp only
  repeat'
    first
    | with_reducible assumption | intro _ | with_reducible apply Clocked.ite | with_reducible apply Clocked.ite_fst
    | with_reducible apply State.count_clocked | with_reducible apply State.sdCause_clocked
    | with_reducible apply State.setSd_clocked | with_reducible apply State.logSd_clocked

/-- State.sendPacket keeps the clk. -/
theorem State.sendPacket_clocked {s0 s : State} (n : Sd) (vc : Fin 2) (h : Header) (data : List Byte) (hk : Clocked s0 s) :
    Clocked s0 (State.sendPacket s n vc h data) := by
  unfold State.sendPacket
  try dsimp only
  repeat'
    first
    | with_reducible assumption | intro _ | with_reducible apply Clocked.ite | with_reducible apply Clocked.ite_fst
    | with_reducible apply State.noRoute_clocked | with_reducible apply State.sendBytes_clocked
    | with_reducible refine Clocked.foldl ?_ _ _ ?_ | with_reducible refine Clocked.foldl_fst ?_ _ _ ?_
    | with_reducible refine Clocked.of_fst (by with_reducible assumption) ?_ | split

/-- State.request keeps the clk. -/
theorem State.request_clocked {s0 s : State} (g : CoreId) (h : Header) (data : List Byte) (a : AckTo) (hk : Clocked s0 s) :
    Clocked s0 (State.request s g h data a) := by
  unfold State.request
  try dsimp only
  repeat'
    first
    | with_reducible assumption | intro _ | with_reducible apply Clocked.ite | with_reducible apply Clocked.ite_fst
    | with_reducible apply State.cross_clocked | with_reducible refine Clocked.foldl ?_ _ _ ?_
    | with_reducible refine Clocked.foldl_fst ?_ _ _ ?_
    | with_reducible refine Clocked.of_fst (by with_reducible assumption) ?_ | split

/-- State.launch keeps the clk. -/
theorem State.launch_clocked {s0 s : State} (n : Sd) (h : Header) (data : List Byte) (a : AckTo) (hk : Clocked s0 s) :
    Clocked s0 (State.launch s n h data a) := by
  unfold State.launch
  try dsimp only
  repeat'
    first
    | with_reducible assumption | intro _ | with_reducible apply Clocked.ite | with_reducible apply Clocked.ite_fst
    | with_reducible apply State.noRoute_clocked | with_reducible apply State.sendBytes_clocked
    | with_reducible apply State.setSd_clocked | with_reducible refine Clocked.foldl ?_ _ _ ?_
    | with_reducible refine Clocked.foldl_fst ?_ _ _ ?_
    | with_reducible refine Clocked.of_fst (by with_reducible assumption) ?_ | split

/-- State.captureDiscard keeps the clk. -/
theorem State.captureDiscard_clocked {s0 s : State} (g : CoreId) (hk : Clocked s0 s) : Clocked s0 (State.captureDiscard s g) := by
  unfold State.captureDiscard
  try dsimp only
  repeat'
    first
    | with_reducible assumption | intro _ | with_reducible apply Clocked.ite | with_reducible apply Clocked.ite_fst
    | with_reducible apply State.setCreg_clocked

/-- State.modTr keeps the clk. -/
theorem State.modTr_clocked {s0 s : State} (g : CoreId) (e : Nat) (f : Transfer → Transfer) (hk : Clocked s0 s) :
    Clocked s0 (State.modTr s g e f) := by
  unfold State.modTr
  try dsimp only
  repeat'
    first
    | with_reducible assumption | intro _ | with_reducible apply Clocked.ite | with_reducible apply Clocked.ite_fst
    | with_reducible apply State.modCore_clocked

/-- State.runLeg keeps the clk. -/
theorem State.runLeg_clocked {s0 s : State} (g : CoreId) (e : Nat) (t : Transfer) (part : Nat) (hk : Clocked s0 s) :
    Clocked s0 (State.runLeg s g e t part) := by
  unfold State.runLeg
  try dsimp only
  repeat'
    first
    | with_reducible assumption | intro _ | with_reducible apply Clocked.ite | with_reducible apply Clocked.ite_fst
    | with_reducible apply State.request_clocked | with_reducible apply State.modTr_clocked
    | with_reducible apply State.addRun_clocked | with_reducible apply State.count_clocked
    | with_reducible refine Clocked.foldl ?_ _ _ ?_

/-- State.finish keeps the clk. -/
theorem State.finish_clocked {s0 s : State} (g : CoreId) (e : Nat) (t : Transfer) (hk : Clocked s0 s) :
    Clocked s0 (State.finish s g e t) := by
  unfold State.finish
  try dsimp only
  repeat'
    first
    | with_reducible assumption | intro _ | with_reducible apply Clocked.ite | with_reducible apply Clocked.ite_fst
    | with_reducible apply State.modTr_clocked | with_reducible apply State.retireTransfer_clocked
    | with_reducible apply State.request_clocked | with_reducible apply State.modCore_clocked
    | with_reducible apply State.sigCounted_clocked | with_reducible refine Clocked.foldl ?_ _ _ ?_
    | with_reducible refine Clocked.foldl_fst ?_ _ _ ?_
    | with_reducible refine Clocked.of_fst (by with_reducible assumption) ?_ | split

/-- State.advance keeps the clk. -/
theorem State.advance_clocked {s0 s : State} (g : CoreId) (e : Nat) (hk : Clocked s0 s) : Clocked s0 (State.advance s g e) := by
  unfold State.advance
  try dsimp only
  repeat'
    first
    | with_reducible assumption | intro _ | with_reducible apply Clocked.ite | with_reducible apply Clocked.ite_fst
    | with_reducible apply State.modTr_clocked | with_reducible apply State.runLeg_clocked
    | with_reducible apply State.finish_clocked | with_reducible refine Clocked.foldl ?_ _ _ ?_
    | with_reducible refine Clocked.foldl_fst ?_ _ _ ?_
    | with_reducible refine Clocked.of_fst (by with_reducible assumption) ?_ | split

/-- State.abandon keeps the clk. -/
theorem State.abandon_clocked {s0 s : State} (g : CoreId) (e cause : Nat) (hk : Clocked s0 s) :
    Clocked s0 (State.abandon s g e cause) := by
  unfold State.abandon
  try dsimp only
  repeat'
    first
    | with_reducible assumption | intro _ | with_reducible apply Clocked.ite | with_reducible apply Clocked.ite_fst
    | with_reducible apply State.modCore_clocked | with_reducible apply State.freeTrk_clocked
    | with_reducible apply State.ccount_clocked | with_reducible apply State.setCreg_clocked
    | with_reducible apply State.logCore_clocked | with_reducible refine Clocked.foldl ?_ _ _ ?_
    | with_reducible refine Clocked.foldl_fst ?_ _ _ ?_
    | with_reducible refine Clocked.of_fst (by with_reducible assumption) ?_ | split

/-- State.recause keeps the clk. -/
theorem State.recause_clocked {s0 s : State} (a : AckTo) (cause : Nat) (hk : Clocked s0 s) :
    Clocked s0 (State.recause s a cause) := by
  unfold State.recause
  try dsimp only
  repeat'
    first
    | with_reducible assumption | intro _ | with_reducible apply Clocked.ite | with_reducible apply Clocked.ite_fst
    | with_reducible apply State.setCreg_clocked | with_reducible apply State.setLog_clocked
    | with_reducible refine Clocked.foldl ?_ _ _ ?_ | with_reducible refine Clocked.foldl_fst ?_ _ _ ?_
    | with_reducible refine Clocked.of_fst (by with_reducible assumption) ?_ | split

/-- State.linkFailed keeps the clk. -/
theorem State.linkFailed_clocked {s0 s : State} (a : AckTo) (cause : Nat) (hk : Clocked s0 s) :
    Clocked s0 (State.linkFailed s a cause) := by
  unfold State.linkFailed
  try dsimp only
  repeat'
    first
    | with_reducible assumption | intro _ | with_reducible apply Clocked.ite | with_reducible apply Clocked.ite_fst
    | with_reducible apply State.abandon_clocked | with_reducible apply State.recause_clocked

/-- State.sendAck keeps the clk. -/
theorem State.sendAck_clocked {s0 s : State} (g : CoreId) (a : AckTo) (hk : Clocked s0 s) : Clocked s0 (State.sendAck s g a) := by
  unfold State.sendAck
  try dsimp only
  repeat'
    first
    | with_reducible assumption | intro _ | with_reducible apply Clocked.ite | with_reducible apply Clocked.ite_fst
    | with_reducible apply State.modCore_clocked

/-- State.modSpool keeps the clk. -/
theorem State.modSpool_clocked {s0 s : State} (td : Td) (sp : SpoolId) (f : Spool → Spool) (hk : Clocked s0 s) :
    Clocked s0 (State.modSpool s td sp f) := by
  unfold State.modSpool
  try dsimp only
  repeat'
    first
    | with_reducible assumption | intro _ | with_reducible apply Clocked.ite | with_reducible apply Clocked.ite_fst
    | with_reducible apply State.setSpool_clocked

/-- State.modBolt keeps the clk. -/
theorem State.modBolt_clocked {s0 s : State} (td : Td) (sp : SpoolId) (num : Word) (f : Bolt → Bolt) (hk : Clocked s0 s) :
    Clocked s0 (State.modBolt s td sp num f) := by
  unfold State.modBolt
  try dsimp only
  repeat'
    first
    | with_reducible assumption | intro _ | with_reducible apply Clocked.ite | with_reducible apply Clocked.ite_fst
    | with_reducible apply State.modSpool_clocked

/-- State.finishBolt keeps the clk. -/
theorem State.finishBolt_clocked {s0 s : State} (td : Td) (sp : SpoolId) (b : Bolt) (st : Nat) (hk : Clocked s0 s) :
    Clocked s0 (State.finishBolt s td sp b st) := by
  unfold State.finishBolt
  try dsimp only
  repeat'
    first
    | with_reducible assumption | intro _ | with_reducible apply Clocked.ite | with_reducible apply Clocked.ite_fst
    | with_reducible apply State.modBolt_clocked | with_reducible apply State.modSpool_clocked

/-- State.endOut keeps the clk. -/
theorem State.endOut_clocked {s0 s : State} (td : Td) (sp : SpoolId) (b : Bolt) (st : Nat) (hk : Clocked s0 s) :
    Clocked s0 (State.endOut s td sp b st) := by
  unfold State.endOut
  try dsimp only
  repeat'
    first
    | with_reducible assumption | intro _ | with_reducible apply Clocked.ite | with_reducible apply Clocked.ite_fst
    | with_reducible apply State.modCore_clocked | with_reducible apply State.finishBolt_clocked

/-- State.copied keeps the clk. -/
theorem State.copied_clocked {s0 s : State} (td : Td) (sp : SpoolId) (b : Bolt) (data : List Byte) (bad : List Nat) (hk : Clocked s0 s) :
    Clocked s0 (State.copied s td sp b data bad) := by
  unfold State.copied
  try dsimp only
  repeat'
    first
    | with_reducible assumption | intro _ | with_reducible apply Clocked.ite | with_reducible apply Clocked.ite_fst
    | with_reducible apply State.ccount_clocked | with_reducible apply State.logTd_clocked
    | with_reducible apply State.endOut_clocked | with_reducible apply State.emit_clocked
    | with_reducible apply State.modBolt_clocked | with_reducible refine Clocked.foldl ?_ _ _ ?_

/-- State.stopRuns keeps the clk. -/
theorem State.stopRuns_clocked {s0 s : State} (g : CoreId) (hk : Clocked s0 s) : Clocked s0 (State.stopRuns s g) := by
  unfold State.stopRuns
  try dsimp only
  repeat'
    first
    | with_reducible assumption | intro _ | with_reducible apply Clocked.ite | with_reducible apply Clocked.ite_fst
    | with_reducible apply State.captureDiscard_clocked | with_reducible apply State.modCore_clocked
    | with_reducible refine Clocked.foldl ?_ _ _ ?_

/-- State.sendBeats keeps the clk. -/
theorem State.sendBeats_clocked {s0 s : State} (g : CoreId) (r : Run) (hk : Clocked s0 s) :
    Clocked s0 (State.sendBeats s g r).1 := by
  unfold State.sendBeats
  try dsimp only
  repeat'
    first
    | with_reducible assumption | intro _ | with_reducible apply Clocked.ite | with_reducible apply Clocked.ite_fst
    | with_reducible apply State.modCore_clocked | with_reducible refine Clocked.foldl ?_ _ _ ?_
    | with_reducible refine Clocked.foldl_fst ?_ _ _ ?_
    | with_reducible refine Clocked.of_fst (by with_reducible assumption) ?_ | split

/-- State.passOn keeps the clk. -/
theorem State.passOn_clocked {s0 s : State} (g : CoreId) (r : Run) (y : RunStep) (hk : Clocked s0 s) :
    Clocked s0 (State.passOn s g r y).1 := by
  unfold State.passOn
  try dsimp only
  repeat'
    first
    | with_reducible assumption | intro _ | with_reducible apply Clocked.ite | with_reducible apply Clocked.ite_fst
    | with_reducible apply State.modCore_clocked | with_reducible apply State.sendBeats_clocked
    | with_reducible refine Clocked.foldl ?_ _ _ ?_ | with_reducible refine Clocked.foldl_fst ?_ _ _ ?_
    | with_reducible refine Clocked.of_fst (by with_reducible assumption) ?_ | split

/-- State.stepMarks keeps the clk. -/
theorem State.stepMarks_clocked {s0 s : State} (g : CoreId) (y : RunStep) (hk : Clocked s0 s) :
    Clocked s0 (State.stepMarks s g y) := by
  unfold State.stepMarks
  try dsimp only
  repeat'
    first
    | with_reducible assumption | intro _ | with_reducible apply Clocked.ite | with_reducible apply Clocked.ite_fst
    | with_reducible apply State.ccount_clocked | with_reducible apply State.setCreg_clocked
    | with_reducible refine Clocked.foldl ?_ _ _ ?_

/-- State.noteLoad keeps the clk. -/
theorem State.noteLoad_clocked {s0 s : State} (g : CoreId) (r : Run) (y : RunStep) (hk : Clocked s0 s) :
    Clocked s0 (State.noteLoad s g r y) := by
  unfold State.noteLoad
  try dsimp only
  repeat'
    first
    | with_reducible assumption | intro _ | with_reducible apply Clocked.ite | with_reducible apply Clocked.ite_fst
    | with_reducible apply State.modCore_clocked

/-- State.runEnds keeps the clk. -/
theorem State.runEnds_clocked {s0 s : State} (g : CoreId) (r : Run) (hk : Clocked s0 s) : Clocked s0 (State.runEnds s g r) := by
  unfold State.runEnds
  try dsimp only
  repeat'
    first
    | with_reducible assumption | intro _ | with_reducible apply Clocked.ite | with_reducible apply Clocked.ite_fst
    | with_reducible apply State.setCmd_clocked | with_reducible apply State.setCreg_clocked
    | with_reducible apply State.sendAck_clocked | with_reducible apply State.cross_clocked
    | with_reducible refine Clocked.foldl ?_ _ _ ?_ | with_reducible refine Clocked.foldl_fst ?_ _ _ ?_
    | with_reducible refine Clocked.of_fst (by with_reducible assumption) ?_ | split

/-- State.runClk keeps the clk. -/
theorem State.runClk_clocked {s0 a old : State} (g : CoreId) (p : State × List Run) (e : Run × Nat) (hk : Clocked s0 p.1) :
    Clocked s0 (a.runClk old g p e).1 := by
  unfold State.runClk
  dsimp only
  refine Clocked.foldl_fst ?_ _ _ fun u y hu => State.passOn_clocked _ _ _ hu
  exact Clocked.foldl hk _ _ fun u y hu => State.noteLoad_clocked _ _ _ (State.stepMarks_clocked _ _ hu)

/-- State.runsClk keeps the clk. -/
theorem State.runsClk_clocked {s0 s : State} (old : State) (g : CoreId) (hk : Clocked s0 s) : Clocked s0 (s.runsClk old g) := by
  unfold State.runsClk
  dsimp only
  refine Clocked.foldl (State.modCore_clocked _ _ ?_) _ _ fun u r hu => State.runEnds_clocked _ _ hu
  exact Clocked.foldl_fst hk _ _ fun u e hu => State.runClk_clocked _ _ _ hu

/-- State.cmdErr keeps the clk. -/
theorem State.cmdErr_clocked {s0 s : State} (g : CoreId) (step slot : Nat) (v : Dword) (hk : Clocked s0 s) :
    Clocked s0 (State.cmdErr s g step slot v) := by
  unfold State.cmdErr
  try dsimp only
  repeat'
    first
    | with_reducible assumption | intro _ | with_reducible apply Clocked.ite | with_reducible apply Clocked.ite_fst
    | with_reducible apply State.commandParity_clocked | with_reducible apply State.parNoted_clocked

/-- State.readErr keeps the clk. -/
theorem State.readErr_clocked {s0 s : State} (g : CoreId) (x : ReadErr) (hk : Clocked s0 s) :
    Clocked s0 (State.readErr s g x) := by
  unfold State.readErr
  try dsimp only
  repeat'
    first
    | with_reducible assumption | intro _ | with_reducible apply Clocked.ite | with_reducible apply Clocked.ite_fst
    | with_reducible apply State.cmdErr_clocked | with_reducible apply State.parCounted_clocked
    | with_reducible apply State.modCore_clocked | with_reducible refine Clocked.foldl ?_ _ _ ?_
    | with_reducible refine Clocked.foldl_fst ?_ _ _ ?_
    | with_reducible refine Clocked.of_fst (by with_reducible assumption) ?_ | split

/-- State.bufErrs keeps the clk. -/
theorem State.bufErrs_clocked {s0 s : State} (g : CoreId) (hk : Clocked s0 s) : Clocked s0 (State.bufErrs s g) := by
  unfold State.bufErrs
  try dsimp only
  repeat'
    first
    | with_reducible assumption | intro _ | with_reducible apply Clocked.ite | with_reducible apply Clocked.ite_fst
    | with_reducible apply State.modCore_clocked | with_reducible apply State.cmdErr_clocked
    | with_reducible refine Clocked.foldl ?_ _ _ ?_ | with_reducible refine Clocked.foldl_fst ?_ _ _ ?_
    | with_reducible refine Clocked.of_fst (by with_reducible assumption) ?_ | split

/-- State.drainLineOf keeps the clk. -/
theorem State.drainLineOf_clocked {s0 s : State} (g : CoreId) (x : FellLine) (hk : Clocked s0 s) :
    Clocked s0 (State.drainLineOf s g x) := by
  unfold State.drainLineOf
  try dsimp only
  repeat'
    first
    | with_reducible assumption | intro _ | with_reducible apply Clocked.ite | with_reducible apply Clocked.ite_fst
    | with_reducible apply State.countWords_clocked | with_reducible apply State.bankWrite_clocked

/-- State.drainClkOf keeps the clk. -/
theorem State.drainClkOf_clocked {s0 s : State} (g : CoreId) (hk : Clocked s0 s) : Clocked s0 (State.drainClkOf s g) := by
  unfold State.drainClkOf
  try dsimp only
  repeat'
    first
    | with_reducible assumption | intro _ | with_reducible apply Clocked.ite | with_reducible apply Clocked.ite_fst
    | with_reducible apply State.drainLineOf_clocked | with_reducible apply State.modCore_clocked
    | with_reducible refine Clocked.foldl ?_ _ _ ?_

/-- State.bankCounts keeps the clk. -/
theorem State.bankCounts_clocked {s0 s : State} (g : CoreId) (a : Arb) (lost : Bool) (hk : Clocked s0 s) :
    Clocked s0 (State.bankCounts s g a lost) := by
  unfold State.bankCounts
  try dsimp only
  repeat'
    first
    | with_reducible assumption | intro _ | with_reducible apply Clocked.ite | with_reducible apply Clocked.ite_fst
    | with_reducible apply State.ccount_clocked

/-- State.accessClk keeps the clk. -/
theorem State.accessClk_clocked {s0 s : State} (g : CoreId) (hk : Clocked s0 s) : Clocked s0 (State.accessClk s g).1 := by
  unfold State.accessClk
  try dsimp only
  repeat'
    first
    | with_reducible assumption | intro _ | with_reducible apply Clocked.ite | with_reducible apply Clocked.ite_fst
    | with_reducible apply State.beginSteps_clocked | with_reducible apply State.perform_clocked
    | with_reducible apply State.drainClkOf_clocked | with_reducible apply State.bankCounts_clocked
    | with_reducible apply State.runsClk_clocked

/-- State.relaysClk keeps the clk. -/
theorem State.relaysClk_clocked {s0 s : State} (g : CoreId) (hk : Clocked s0 s) : Clocked s0 (State.relaysClk s g) := by
  unfold State.relaysClk
  try dsimp only
  repeat'
    first
    | with_reducible assumption | intro _ | with_reducible apply Clocked.ite | with_reducible apply Clocked.ite_fst
    | with_reducible apply State.advance_clocked | with_reducible refine Clocked.foldl ?_ _ _ ?_

/-- State.coreClk keeps the clk. -/
theorem State.coreClk_clocked {s0 s : State} (g : CoreId) (hk : Clocked s0 s) : Clocked s0 (State.coreClk s g) := by
  unfold State.coreClk
  try dsimp only
  repeat'
    first
    | with_reducible assumption | intro _ | with_reducible apply Clocked.ite | with_reducible apply Clocked.ite_fst
    | with_reducible apply State.stopRuns_clocked | with_reducible apply State.accessClk_clocked
    | with_reducible apply State.weaveClk_clocked | with_reducible apply State.readErr_clocked
    | with_reducible apply State.cmdErr_clocked | with_reducible apply State.bufErrs_clocked
    | with_reducible apply State.relaysClk_clocked | with_reducible apply State.modCore_clocked
    | with_reducible refine Clocked.foldl ?_ _ _ ?_

/-- State.countRead keeps the clk. -/
theorem State.countRead_clocked {s0 s : State} (td : Td) (l : List (CoreId × Dword)) (hk : Clocked s0 s) :
    Clocked s0 (State.countRead s td l) := by
  unfold State.countRead
  try dsimp only
  repeat'
    first
    | with_reducible assumption | intro _ | with_reducible apply Clocked.ite | with_reducible apply Clocked.ite_fst
    | with_reducible apply State.ccount_clocked | with_reducible apply State.logTd_clocked
    | with_reducible refine Clocked.foldl ?_ _ _ ?_

/-- State.lineRead keeps the clk. -/
theorem State.lineRead_clocked {s0 s : State} (g : CoreId) (td : Td) (fn : Fn) (off : Word) (n : Nat) (got : List Byte) (bad : Bool) (data : List Byte) (errs : List (CoreId × Dword)) (hk : Clocked s0 s) :
    Clocked s0 (State.lineRead s g td fn off n got bad data errs) := by
  unfold State.lineRead
  try dsimp only
  repeat'
    first
    | with_reducible assumption | intro _ | with_reducible apply Clocked.ite | with_reducible apply Clocked.ite_fst
    | with_reducible apply State.countRead_clocked | with_reducible apply State.emit_clocked
    | with_reducible apply State.modCore_clocked

/-- State.overseerLine keeps the clk. -/
theorem State.overseerLine_clocked {s0 s : State} (g : CoreId) (off : Nat) (rewrite : Bool) (hk : Clocked s0 s) :
    Clocked s0 (State.overseerLine s g off rewrite) := by
  unfold State.overseerLine
  try dsimp only
  repeat'
    first
    | with_reducible assumption | intro _ | with_reducible apply Clocked.ite | with_reducible apply Clocked.ite_fst
    | with_reducible apply State.modCore_clocked | with_reducible apply State.bankWrite_clocked
    | with_reducible apply State.ccount_clocked | with_reducible apply State.logCore_clocked

/-- State.portAccess keeps the clk. -/
theorem State.portAccess_clocked {s0 s : State} (g : CoreId) (x : SvcBeat) (off n : Nat) (hk : Clocked s0 s) :
    Clocked s0 (State.portAccess s g x off n) := by
  unfold State.portAccess
  try dsimp only
  repeat'
    first
    | with_reducible assumption | intro _ | with_reducible apply Clocked.ite | with_reducible apply Clocked.ite_fst
    | with_reducible apply State.modCore_clocked | with_reducible apply State.overseerLine_clocked
    | with_reducible apply State.copied_clocked | with_reducible apply State.lineRead_clocked
    | with_reducible apply State.tallyLine_clocked | with_reducible refine Clocked.foldl ?_ _ _ ?_
    | with_reducible refine Clocked.foldl_fst ?_ _ _ ?_
    | with_reducible refine Clocked.of_fst (by with_reducible assumption) ?_ | split

/-- State.svcClk keeps the clk. -/
theorem State.svcClk_clocked {s0 s : State} (g : CoreId) (hk : Clocked s0 s) : Clocked s0 (State.svcClk s g) := by
  unfold State.svcClk
  try dsimp only
  repeat'
    first
    | with_reducible assumption | intro _ | with_reducible apply Clocked.ite | with_reducible apply Clocked.ite_fst
    | with_reducible apply State.modCore_clocked | with_reducible apply State.portAccess_clocked
    | with_reducible apply State.stopRuns_clocked | with_reducible apply State.beginSteps_clocked
    | with_reducible refine Clocked.foldl ?_ _ _ ?_ | with_reducible refine Clocked.foldl_fst ?_ _ _ ?_
    | with_reducible refine Clocked.of_fst (by with_reducible assumption) ?_ | split

/-- State.answerPacket keeps the clk. -/
theorem State.answerPacket_clocked {s0 s : State} (n : Sd) (h : Header) (type nl : Nat) (data : List Byte) (hk : Clocked s0 s) :
    Clocked s0 (State.answerPacket s n h type nl data) := by
  unfold State.answerPacket
  try dsimp only
  repeat'
    first
    | with_reducible assumption | intro _ | with_reducible apply Clocked.ite | with_reducible apply Clocked.ite_fst
    | with_reducible apply State.sendPacket_clocked

/-- State.staleAt keeps the clk. -/
theorem State.staleAt_clocked {s0 s : State} (g : CoreId) (hk : Clocked s0 s) : Clocked s0 (State.staleAt s g) := by
  unfold State.staleAt
  try dsimp only
  repeat'
    first
    | with_reducible assumption | intro _ | with_reducible apply Clocked.ite | with_reducible apply Clocked.ite_fst
    | with_reducible apply State.ccount_clocked

/-- State.lineWritten keeps the clk. -/
theorem State.lineWritten_clocked {s0 s : State} (n : Sd) (header : List Byte) (hk : Clocked s0 s) :
    Clocked s0 (State.lineWritten s n header) := by
  unfold State.lineWritten
  try dsimp only
  repeat'
    first
    | with_reducible assumption | intro _ | with_reducible apply Clocked.ite | with_reducible apply Clocked.ite_fst
    | with_reducible apply State.setSd_clocked | with_reducible apply State.answerPacket_clocked
    | with_reducible refine Clocked.foldl ?_ _ _ ?_ | with_reducible refine Clocked.foldl_fst ?_ _ _ ?_
    | with_reducible refine Clocked.of_fst (by with_reducible assumption) ?_ | split

/-- State.arrived keeps the clk. -/
theorem State.arrived_clocked {s0 s : State} (n : Sd) (m : SdMsg) (hk : Clocked s0 s) : Clocked s0 (State.arrived s n m) := by
  unfold State.arrived
  try dsimp only
  repeat'
    first
    | with_reducible assumption | intro _ | with_reducible apply Clocked.ite | with_reducible apply Clocked.ite_fst
    | with_reducible apply State.request_clocked | with_reducible apply State.launch_clocked
    | with_reducible apply State.sendPacket_clocked | with_reducible apply State.lineWritten_clocked
    | with_reducible apply State.retireTransfer_clocked
    | with_reducible apply State.staleAt_clocked | with_reducible apply State.linkFailed_clocked
    | with_reducible refine Clocked.foldl ?_ _ _ ?_ | with_reducible refine Clocked.foldl_fst ?_ _ _ ?_
    | with_reducible refine Clocked.of_fst (by with_reducible assumption) ?_ | split

/-- State.crossClk keeps the clk. -/
theorem State.crossClk_clocked {s0 s : State} (n : Sd) (hk : Clocked s0 s) : Clocked s0 (State.crossClk s n) := by
  unfold State.crossClk
  try dsimp only
  repeat'
    first
    | with_reducible assumption | intro _ | with_reducible apply Clocked.ite | with_reducible apply Clocked.ite_fst
    | with_reducible apply State.arrived_clocked | with_reducible apply State.setSd_clocked
    | with_reducible refine Clocked.foldl ?_ _ _ ?_

/-- State.meshHold keeps the clk. -/
theorem State.meshHold_clocked {s0 s : State} (hk : Clocked s0 s) : Clocked s0 (State.meshHold s) := by
  unfold State.meshHold
  try dsimp only
  repeat'
    first
    | with_reducible assumption | intro _ | with_reducible apply Clocked.ite | with_reducible apply Clocked.ite_fst
    | with_reducible apply State.count_clocked | with_reducible refine Clocked.foldl ?_ _ _ ?_

/-- State.endOfClk keeps the clk. -/
theorem State.endOfClk_clocked {s0 s : State} (cores : List CoreId) (hk : Clocked s0 s) : Clocked s0 (State.endOfClk s cores) := by
  unfold State.endOfClk
  try dsimp only
  repeat'
    first
    | with_reducible assumption | intro _ | with_reducible apply Clocked.ite | with_reducible apply Clocked.ite_fst
    | with_reducible apply State.svcClk_clocked | with_reducible apply State.coreClk_clocked
    | with_reducible refine Clocked.foldl ?_ _ _ ?_

/-- State.startCore keeps the clk. -/
theorem State.startCore_clocked {s0 s : State} (g : CoreId) (hk : Clocked s0 s) : Clocked s0 (State.startCore s g) := by
  unfold State.startCore
  try dsimp only
  repeat'
    first
    | with_reducible assumption | intro _ | with_reducible apply Clocked.ite | with_reducible apply Clocked.ite_fst
    | with_reducible apply State.knotClk_clocked | with_reducible apply State.prologueClk_clocked
    | with_reducible apply State.holdClk_clocked

/-- State.startOfClk keeps the clk. -/
theorem State.startOfClk_clocked {s0 s : State} (cores : List CoreId) (hk : Clocked s0 s) :
    Clocked s0 (State.startOfClk s cores) := by
  unfold State.startOfClk
  try dsimp only
  repeat'
    first
    | with_reducible assumption | intro _ | with_reducible apply Clocked.ite | with_reducible apply Clocked.ite_fst
    | with_reducible apply State.startCore_clocked | with_reducible apply State.crossClk_clocked
    | with_reducible refine Clocked.foldl ?_ _ _ ?_

end Sys2Proof.Machine
end

