-- ==== Sys2Proof/Laws/Keeps.lean ====
section
/-! SUPPORT. What no command touches, as one relation between the state before and after: the queue of waiting commands
stays, what has left the package stays out, the fuses stay, and the register file and the memory keep their canonical form.
Every operation of the model keeps it; the files KeepsOps, KeepsEngines, KeepsPicks, KeepsLinks and KeepsPower hold one lemma per operation. -/

namespace Sys2Proof.Machine

/-- What every meaning leaves as it was (see the header). -/
structure Keeps (s t : State) : Prop where
  pending : t.pending = s.pending
  out : s.out <+: t.out
  fuses : t.temple.fuses = s.temple.fuses
  regs : regsWf s → regsWf t
  mem : memWf s → memWf t

/-- Nothing done keeps all. -/
theorem Keeps.refl (s : State) : Keeps s s := ⟨rfl, List.prefix_refl _, rfl, id, id⟩

/-- One after the other. -/
theorem Keeps.trans {s t u : State} (h : Keeps s t) (k : Keeps t u) : Keeps s u :=
  ⟨k.pending.trans h.pending, h.out.trans k.out, k.fuses.trans h.fuses, k.regs ∘ h.regs, k.mem ∘ h.mem⟩

/-- A change of other fields. -/
theorem Keeps.of {s t u : State} (h : Keeps s t) (hp : u.pending = t.pending) (ho : u.out = t.out)
    (hf : u.temple.fuses = t.temple.fuses) (hr : u.regs = t.regs) (hm : u.mem = t.mem) : Keeps s u := by
  refine ⟨hp.trans h.pending, ?_, hf.trans h.fuses, ?_, ?_⟩
  · rw [ho]; exact h.out
  · intro k; have := h.regs k; simpa [regsWf, hr] using this
  · intro k; have := h.mem k; simpa [memWf, hm] using this

/-- A change of other fields, for a state written as a record. -/
theorem Keeps.record {s t : State} (h : Keeps s t) {pending regs mem badPar undefs low latches cores td0 td1 ports sds}
    {heddle overseer temple power pins jtag tallies logs statusDue out free}
    (hp : pending = t.pending) (ho : out = t.out) (hf : temple.fuses = t.temple.fuses) (hr : regs = t.regs)
    (hm : mem = t.mem) : Keeps s 
      (State.mk pending regs mem badPar undefs low latches cores td0 td1 ports sds heddle overseer temple power pins jtag
        tallies logs statusDue out free) :=
  Keeps.of h hp ho hf hr hm

/-- Registers that return to their reset values. -/
theorem Keeps.dropRegs {s t : State} (h : Keeps s t) (p : Nat → Bool) : Keeps s { t with regs := sdrop p t.regs } :=
  ⟨h.pending, h.out, h.fuses, fun k => swf_sdrop p (h.regs k), h.mem⟩

/-- Registers and bytes that return to their reset values. -/
theorem Keeps.drop {s t u : State} (h : Keeps s t) (p q : Nat → Bool) (hp : u.pending = t.pending) (ho : u.out = t.out)
    (hf : u.temple.fuses = t.temple.fuses) (hr : u.regs = sdrop p t.regs) (hm : u.mem = sdrop q t.mem) : Keeps s u := by
  refine ⟨hp.trans h.pending, ?_, hf.trans h.fuses, fun k => ?_, fun k => ?_⟩
  · rw [ho]; exact h.out
  · show swf regReset u.regs = true
    rw [hr]; exact swf_sdrop p (h.regs k)
  · show swf memReset u.mem = true
    rw [hm]; exact swf_sdrop q (h.mem k)

/-- A fold of steps each of which keeps all. -/
theorem Keeps.foldl {α : Type} {s t : State} (h : Keeps s t) (f : State → α → State) (l : List α)
    (hf : ∀ u x, Keeps s u → Keeps s (f u x)) : Keeps s (l.foldl f t) := by
  induction l generalizing t with
  | nil => exact h
  | cons x l ih => exact ih (hf _ _ h)

/-- A fold that carries a state and more. -/
theorem Keeps.foldl_fst {α β : Type} {s : State} {t : State × β} (h : Keeps s t.1) (f : State × β → α → State × β)
    (l : List α) (hf : ∀ u x, Keeps s u.1 → Keeps s (f u x).1) : Keeps s (l.foldl f t).1 := by
  induction l generalizing t with
  | nil => exact h
  | cons x l ih => exact ih (hf _ _ h)

/-- The state of a pair whose parts are named. -/
theorem Keeps.of_fst {β : Type} {s t : State} {b : β} {p : State × β} (e : p = (t, b)) (h : Keeps s p.1) : Keeps s t := by
  subst e; exact h

/-- An optional answer that is there is the one written out. -/
theorem of_ite_none {α : Type} {p : Prop} [Decidable p] {x y : α} (e : (if p then none else some x) = some y) : x = y := by
  by_cases h : p
  · rw [if_pos h] at e; cases e
  · rw [if_neg h] at e; exact Option.some.inj e

/-- Either branch. -/
theorem Keeps.ite {s t u : State} {p : Prop} [Decidable p] (h : Keeps s t) (k : Keeps s u) :
    Keeps s (if p then t else u) := by split <;> assumption

/-- Either branch, of a pair. -/
theorem Keeps.ite_fst {β : Type} {s : State} {t u : State × β} {p : Prop} [Decidable p] (h : Keeps s t.1)
    (k : Keeps s u.1) : Keeps s (if p then t else u).1 := by split <;> assumption

/-- Either branch, of a pair whose second branch is written out. -/
theorem Keeps.ite_pair {β : Type} {s u : State} {t : State × β} {b : β} {p : Prop} [Decidable p] (h : Keeps s t.1)
    (k : Keeps s u) : Keeps s (if p then t else (u, b)).1 := by split <;> assumption

end Sys2Proof.Machine
end

