-- ==== Sys2Proof/Laws/KeepsOps.lean ====
section
/-! SUPPORT. That each operation of the model keeps what Laws/Keeps.lean lists: Ops, Track, Front, Bank, Sync, Sequencer. -/

namespace Sys2Proof.Machine

/-! ## Ops -/

/-- State.setReg keeps all. -/
theorem State.setReg_keeps {s0 s : State} (a : Nat) (v : Dword) (hk : Keeps s0 s) : Keeps s0 (s.setReg a v) :=
  ⟨hk.pending, hk.out, hk.fuses, fun k => swf_sset a v (hk.regs k), hk.mem⟩

/-- State.modReg keeps all. -/
theorem State.modReg_keeps {s0 s : State} (a : Nat) (f : Dword → Dword) (hk : Keeps s0 s) :
    Keeps s0 (State.modReg s a f) := by
  unfold State.modReg
  try dsimp only
  repeat'
    first
    | with_reducible assumption | intro _ | with_reducible apply Keeps.ite | with_reducible apply Keeps.ite_fst
    | with_reducible apply State.setReg_keeps

/-- State.count keeps all. -/
theorem State.count_keeps {s0 s : State} (a n : Nat) (hk : Keeps s0 s) : Keeps s0 (State.count s a n) := by
  unfold State.count
  try dsimp only
  repeat'
    first
    | with_reducible assumption | intro _ | with_reducible apply Keeps.ite | with_reducible apply Keeps.ite_fst
    | with_reducible apply State.modReg_keeps

/-- State.countWrap keeps all. -/
theorem State.countWrap_keeps {s0 s : State} (a n : Nat) (hk : Keeps s0 s) : Keeps s0 (State.countWrap s a n) := by
  unfold State.countWrap
  try dsimp only
  repeat'
    first
    | with_reducible assumption | intro _ | with_reducible apply Keeps.ite | with_reducible apply Keeps.ite_fst
    | with_reducible apply State.modReg_keeps

/-- State.setCore keeps all. -/
theorem State.setCore_keeps {s0 s : State} (g : CoreId) (c : Core) (hk : Keeps s0 s) : Keeps s0 (State.setCore s g c) := by
  unfold State.setCore
  try dsimp only
  repeat'
    first
    | with_reducible assumption | intro _ | with_reducible apply Keeps.ite | with_reducible apply Keeps.ite_fst
    | with_reducible refine Keeps.foldl ?_ _ _ ?_ | with_reducible refine Keeps.foldl_fst ?_ _ _ ?_
    | with_reducible refine Keeps.of_fst (by with_reducible assumption) ?_ | split
    | with_reducible refine Keeps.record ?_ rfl rfl rfl rfl rfl

/-- State.modCore keeps all. -/
theorem State.modCore_keeps {s0 s : State} (g : CoreId) (f : Core → Core) (hk : Keeps s0 s) :
    Keeps s0 (State.modCore s g f) := by
  unfold State.modCore
  try dsimp only
  repeat'
    first
    | with_reducible assumption | intro _ | with_reducible apply Keeps.ite | with_reducible apply Keeps.ite_fst
    | with_reducible apply State.setCore_keeps

/-- State.setCreg keeps all. -/
theorem State.setCreg_keeps {s0 s : State} (g : CoreId) (o : Nat) (v : Dword) (hk : Keeps s0 s) :
    Keeps s0 (State.setCreg s g o v) := by
  unfold State.setCreg
  try dsimp only
  repeat'
    first
    | with_reducible assumption | intro _ | with_reducible apply Keeps.ite | with_reducible apply Keeps.ite_fst
    | with_reducible apply State.setReg_keeps

/-- State.ccount keeps all. -/
theorem State.ccount_keeps {s0 s : State} (g : CoreId) (o n : Nat) (hk : Keeps s0 s) : Keeps s0 (State.ccount s g o n) := by
  unfold State.ccount
  try dsimp only
  repeat'
    first
    | with_reducible assumption | intro _ | with_reducible apply Keeps.ite | with_reducible apply Keeps.ite_fst
    | with_reducible apply State.count_keeps

/-- State.setTd keeps all. -/
theorem State.setTd_keeps {s0 s : State} (td : Td) (t : Treadle) (hk : Keeps s0 s) : Keeps s0 (State.setTd s td t) := by
  unfold State.setTd
  try dsimp only
  repeat'
    first
    | with_reducible assumption | intro _ | with_reducible apply Keeps.ite | with_reducible apply Keeps.ite_fst
    | with_reducible refine Keeps.foldl ?_ _ _ ?_ | with_reducible refine Keeps.foldl_fst ?_ _ _ ?_
    | with_reducible refine Keeps.of_fst (by with_reducible assumption) ?_ | split
    | with_reducible refine Keeps.record ?_ rfl rfl rfl rfl rfl

/-- State.setSpool keeps all. -/
theorem State.setSpool_keeps {s0 s : State} (td : Td) (sp : SpoolId) (x : Spool) (hk : Keeps s0 s) :
    Keeps s0 (State.setSpool s td sp x) := by
  unfold State.setSpool
  try dsimp only
  repeat'
    first
    | with_reducible assumption | intro _ | with_reducible apply Keeps.ite | with_reducible apply Keeps.ite_fst
    | with_reducible apply State.setTd_keeps

/-- State.setFn keeps all. -/
theorem State.setFn_keeps {s0 s : State} (td : Td) (f : Fn) (x : PcieFn) (hk : Keeps s0 s) :
    Keeps s0 (State.setFn s td f x) := by
  unfold State.setFn
  try dsimp only
  repeat'
    first
    | with_reducible assumption | intro _ | with_reducible apply Keeps.ite | with_reducible apply Keeps.ite_fst
    | with_reducible apply State.setTd_keeps

/-- State.setPort keeps all. -/
theorem State.setPort_keeps {s0 s : State} (p : PortId) (x : Port) (hk : Keeps s0 s) : Keeps s0 (State.setPort s p x) := by
  unfold State.setPort
  try dsimp only
  repeat'
    first
    | with_reducible assumption | intro _ | with_reducible apply Keeps.ite | with_reducible apply Keeps.ite_fst
    | with_reducible refine Keeps.foldl ?_ _ _ ?_ | with_reducible refine Keeps.foldl_fst ?_ _ _ ?_
    | with_reducible refine Keeps.of_fst (by with_reducible assumption) ?_ | split
    | with_reducible refine Keeps.record ?_ rfl rfl rfl rfl rfl

/-- State.setSd keeps all. -/
theorem State.setSd_keeps {s0 s : State} (n : Sd) (x : Selvedge) (hk : Keeps s0 s) : Keeps s0 (State.setSd s n x) := by
  unfold State.setSd
  try dsimp only
  repeat'
    first
    | with_reducible assumption | intro _ | with_reducible apply Keeps.ite | with_reducible apply Keeps.ite_fst
    | with_reducible refine Keeps.foldl ?_ _ _ ?_ | with_reducible refine Keeps.foldl_fst ?_ _ _ ?_
    | with_reducible refine Keeps.of_fst (by with_reducible assumption) ?_ | split
    | with_reducible refine Keeps.record ?_ rfl rfl rfl rfl rfl

/-- State.setLog keeps all. -/
theorem State.setLog_keeps {s0 s : State} (d : LogDie) (x : DieLog) (hk : Keeps s0 s) : Keeps s0 (State.setLog s d x) := by
  unfold State.setLog
  try dsimp only
  repeat'
    first
    | with_reducible assumption | intro _ | with_reducible apply Keeps.ite | with_reducible apply Keeps.ite_fst
    | with_reducible refine Keeps.foldl ?_ _ _ ?_ | with_reducible refine Keeps.foldl_fst ?_ _ _ ?_
    | with_reducible refine Keeps.of_fst (by with_reducible assumption) ?_ | split
    | with_reducible refine Keeps.record ?_ rfl rfl rfl rfl rfl

/-- State.setTally keeps all. -/
theorem State.setTally_keeps {s0 s : State} (d : Die) (n : TallyNo) (x : TallyPass) (hk : Keeps s0 s) :
    Keeps s0 (State.setTally s d n x) := by
  unfold State.setTally
  try dsimp only
  repeat'
    first
    | with_reducible assumption | intro _ | with_reducible apply Keeps.ite | with_reducible apply Keeps.ite_fst
    | with_reducible refine Keeps.foldl ?_ _ _ ?_ | with_reducible refine Keeps.foldl_fst ?_ _ _ ?_
    | with_reducible refine Keeps.of_fst (by with_reducible assumption) ?_ | split
    | with_reducible refine Keeps.record ?_ rfl rfl rfl rfl rfl

/-- State.emit keeps all. -/
theorem State.emit_keeps {s0 s : State} (o : Output) (hk : Keeps s0 s) : Keeps s0 (s.emit o) :=
  ⟨hk.pending, hk.out.trans (List.prefix_append _ _), hk.fuses, hk.regs, hk.mem⟩

/-- State.nextFree keeps all. -/
theorem State.nextFree_keeps {s0 s : State} (hk : Keeps s0 s) : Keeps s0 (State.nextFree s) := by
  unfold State.nextFree
  try dsimp only
  repeat'
    first
    | with_reducible assumption | intro _ | with_reducible apply Keeps.ite | with_reducible apply Keeps.ite_fst
    | with_reducible refine Keeps.foldl ?_ _ _ ?_ | with_reducible refine Keeps.foldl_fst ?_ _ _ ?_
    | with_reducible refine Keeps.of_fst (by with_reducible assumption) ?_ | split
    | with_reducible refine Keeps.record ?_ rfl rfl rfl rfl rfl

/-- State.logEvent keeps all. -/
theorem State.logEvent_keeps {s0 s : State} (d : LogDie) (src : Nat) (code : Nat) (aux : Nat) (data : Dword) (hk : Keeps s0 s) :
    Keeps s0 (State.logEvent s d src code aux data) := by
  unfold State.logEvent
  try dsimp only
  repeat'
    first
    | with_reducible assumption | intro _ | with_reducible apply Keeps.ite | with_reducible apply Keeps.ite_fst
    | with_reducible apply State.setLog_keeps

/-- State.logCore keeps all. -/
theorem State.logCore_keeps {s0 s : State} (g : CoreId) (code : Nat) (data : Dword) (hk : Keeps s0 s) :
    Keeps s0 (State.logCore s g code data) := by
  unfold State.logCore
  try dsimp only
  repeat'
    first
    | with_reducible assumption | intro _ | with_reducible apply Keeps.ite | with_reducible apply Keeps.ite_fst
    | with_reducible apply State.logEvent_keeps

/-- State.logHdl keeps all. -/
theorem State.logHdl_keeps {s0 s : State} (code aux : Nat) (data : Dword) (hk : Keeps s0 s) :
    Keeps s0 (State.logHdl s code aux data) := by
  unfold State.logHdl
  try dsimp only
  repeat'
    first
    | with_reducible assumption | intro _ | with_reducible apply Keeps.ite | with_reducible apply Keeps.ite_fst
    | with_reducible apply State.logEvent_keeps

/-- State.logOvs keeps all. -/
theorem State.logOvs_keeps {s0 s : State} (code aux : Nat) (data : Dword) (hk : Keeps s0 s) :
    Keeps s0 (State.logOvs s code aux data) := by
  unfold State.logOvs
  try dsimp only
  repeat'
    first
    | with_reducible assumption | intro _ | with_reducible apply Keeps.ite | with_reducible apply Keeps.ite_fst
    | with_reducible apply State.logEvent_keeps

/-- State.logTd keeps all. -/
theorem State.logTd_keeps {s0 s : State} (td : Td) (code aux : Nat) (data : Dword) (hk : Keeps s0 s) :
    Keeps s0 (State.logTd s td code aux data) := by
  unfold State.logTd
  try dsimp only
  repeat'
    first
    | with_reducible assumption | intro _ | with_reducible apply Keeps.ite | with_reducible apply Keeps.ite_fst
    | with_reducible apply State.logEvent_keeps

/-- State.logSd keeps all. -/
theorem State.logSd_keeps {s0 s : State} (n : Sd) (code aux : Nat) (data : Dword) (hk : Keeps s0 s) :
    Keeps s0 (State.logSd s n code aux data) := by
  unfold State.logSd
  try dsimp only
  repeat'
    first
    | with_reducible assumption | intro _ | with_reducible apply Keeps.ite | with_reducible apply Keeps.ite_fst
    | with_reducible apply State.logEvent_keeps

/-- State.logTpl keeps all. -/
theorem State.logTpl_keeps {s0 s : State} (code aux : Nat) (data : Dword) (hk : Keeps s0 s) :
    Keeps s0 (State.logTpl s code aux data) := by
  unfold State.logTpl
  try dsimp only
  repeat'
    first
    | with_reducible assumption | intro _ | with_reducible apply Keeps.ite | with_reducible apply Keeps.ite_fst
    | with_reducible apply State.logEvent_keeps

/-- State.logDie keeps all. -/
theorem State.logDie_keeps {s0 s : State} (d : Die) (code aux : Nat) (data : Dword) (hk : Keeps s0 s) :
    Keeps s0 (State.logDie s d code aux data) := by
  unfold State.logDie
  try dsimp only
  repeat'
    first
    | with_reducible assumption | intro _ | with_reducible apply Keeps.ite | with_reducible apply Keeps.ite_fst
    | with_reducible apply State.logEvent_keeps

/-- State.putByte keeps all. -/
theorem State.putByte_keeps {s0 s : State} (a : Nat) (b : Byte) (hk : Keeps s0 s) : Keeps s0 (s.putByte a b) :=
  ⟨hk.pending, hk.out, hk.fuses, hk.regs, fun k => swf_sset a b (hk.mem k)⟩

/-- State.setByte keeps all. -/
theorem State.setByte_keeps {s0 s : State} (a : Nat) (b : Byte) (hk : Keeps s0 s) : Keeps s0 (State.setByte s a b) := by
  unfold State.setByte
  try dsimp only
  repeat'
    first
    | with_reducible assumption | intro _ | with_reducible apply Keeps.ite | with_reducible apply Keeps.ite_fst
    | with_reducible apply State.putByte_keeps | with_reducible refine Keeps.foldl ?_ _ _ ?_
    | with_reducible refine Keeps.foldl_fst ?_ _ _ ?_
    | with_reducible refine Keeps.of_fst (by with_reducible assumption) ?_ | split
    | with_reducible refine Keeps.record ?_ rfl rfl rfl rfl rfl

/-- State.setBytes keeps all. -/
theorem State.setBytes_keeps {s0 s : State} (a : Nat) (l : List Byte) (hk : Keeps s0 s) :
    Keeps s0 (State.setBytes s a l) := by
  unfold State.setBytes
  try dsimp only
  repeat'
    first
    | with_reducible assumption | intro _ | with_reducible apply Keeps.ite | with_reducible apply Keeps.ite_fst
    | with_reducible apply State.setByte_keeps | with_reducible refine Keeps.foldl ?_ _ _ ?_

/-- State.setPar keeps all. -/
theorem State.setPar_keeps {s0 s : State} (a : Nat) (bad : Bool) (hk : Keeps s0 s) : Keeps s0 (State.setPar s a bad) := by
  unfold State.setPar
  try dsimp only
  repeat'
    first
    | with_reducible assumption | intro _ | with_reducible apply Keeps.ite | with_reducible apply Keeps.ite_fst
    | with_reducible refine Keeps.foldl ?_ _ _ ?_ | with_reducible refine Keeps.foldl_fst ?_ _ _ ?_
    | with_reducible refine Keeps.of_fst (by with_reducible assumption) ?_ | split
    | with_reducible refine Keeps.record ?_ rfl rfl rfl rfl rfl

/-- State.hostBytes keeps all. -/
theorem State.hostBytes_keeps {s0 s : State} (a : Nat) (l : List Byte) (hk : Keeps s0 s) :
    Keeps s0 (State.hostBytes s a l) := by
  unfold State.hostBytes
  try dsimp only
  repeat'
    first
    | with_reducible assumption | intro _ | with_reducible apply Keeps.ite | with_reducible apply Keeps.ite_fst
    | with_reducible apply State.setBytes_keeps | with_reducible apply State.setPar_keeps
    | with_reducible refine Keeps.foldl ?_ _ _ ?_

/-- State.bankWrite keeps all. -/
theorem State.bankWrite_keeps {s0 s : State} (g : CoreId) (line : Nat) (mask : Dword) (data : BitVec 512) (bad : BitVec 16) (hk : Keeps s0 s) :
    Keeps s0 (State.bankWrite s g line mask data bad) := by
  unfold State.bankWrite
  try dsimp only
  repeat'
    first
    | with_reducible assumption | intro _ | with_reducible apply Keeps.ite | with_reducible apply Keeps.ite_fst
    | with_reducible apply State.setByte_keeps | with_reducible apply State.setPar_keeps
    | with_reducible apply State.modCore_keeps | with_reducible refine Keeps.foldl ?_ _ _ ?_

/-- State.parCounted keeps all. -/
theorem State.parCounted_keeps {s0 s : State} (g : CoreId) (off port : Nat) (hk : Keeps s0 s) :
    Keeps s0 (State.parCounted s g off port) := by
  unfold State.parCounted
  try dsimp only
  repeat'
    first
    | with_reducible assumption | intro _ | with_reducible apply Keeps.ite | with_reducible apply Keeps.ite_fst
    | with_reducible apply State.ccount_keeps | with_reducible apply State.logCore_keeps

/-- State.countWords keeps all. -/
theorem State.countWords_keeps {s0 s : State} (g : CoreId) (line port : Nat) (l : List Nat) (hk : Keeps s0 s) :
    Keeps s0 (State.countWords s g line port l) := by
  unfold State.countWords
  try dsimp only
  repeat'
    first
    | with_reducible assumption | intro _ | with_reducible apply Keeps.ite | with_reducible apply Keeps.ite_fst
    | with_reducible apply State.parCounted_keeps | with_reducible refine Keeps.foldl ?_ _ _ ?_

/-- State.mergeRead keeps all. -/
theorem State.mergeRead_keeps {s0 s : State} (g : CoreId) (e : SbEntry) (hk : Keeps s0 s) :
    Keeps s0 (State.mergeRead s g e).1 := by
  unfold State.mergeRead
  try dsimp only
  repeat'
    first
    | with_reducible assumption | intro _ | with_reducible apply Keeps.ite | with_reducible apply Keeps.ite_fst
    | with_reducible apply State.countWords_keeps

/-- State.writeEntry keeps all. -/
theorem State.writeEntry_keeps {s0 s : State} (g : CoreId) (e : SbEntry) (keep : BitVec 16) (hk : Keeps s0 s) :
    Keeps s0 (State.writeEntry s g e keep) := by
  unfold State.writeEntry
  try dsimp only
  repeat'
    first
    | with_reducible assumption | intro _ | with_reducible apply Keeps.ite | with_reducible apply Keeps.ite_fst
    | with_reducible apply State.bankWrite_keeps

/-- State.drainEntry keeps all. -/
theorem State.drainEntry_keeps {s0 s : State} (g : CoreId) (e : SbEntry) (hk : Keeps s0 s) :
    Keeps s0 (State.drainEntry s g e) := by
  unfold State.drainEntry
  try dsimp only
  repeat'
    first
    | with_reducible assumption | intro _ | with_reducible apply Keeps.ite | with_reducible apply Keeps.ite_fst
    | with_reducible apply State.mergeRead_keeps | with_reducible apply State.writeEntry_keeps
    | with_reducible apply State.modCore_keeps | with_reducible refine Keeps.foldl ?_ _ _ ?_
    | with_reducible refine Keeps.foldl_fst ?_ _ _ ?_
    | with_reducible refine Keeps.of_fst (by with_reducible assumption) ?_ | split

/-- State.drainLine keeps all. -/
theorem State.drainLine_keeps {s0 s : State} (g : CoreId) (line : Nat) (hk : Keeps s0 s) :
    Keeps s0 (State.drainLine s g line) := by
  unfold State.drainLine
  try dsimp only
  repeat'
    first
    | with_reducible assumption | intro _ | with_reducible apply Keeps.ite | with_reducible apply Keeps.ite_fst
    | with_reducible apply State.drainEntry_keeps | with_reducible refine Keeps.foldl ?_ _ _ ?_

/-- State.haltCore keeps all. -/
theorem State.haltCore_keeps {s0 s : State} (g : CoreId) (code slot addr soff : Nat) (hk : Keeps s0 s) :
    Keeps s0 (State.haltCore s g code slot addr soff) := by
  unfold State.haltCore
  try dsimp only
  repeat'
    first
    | with_reducible assumption | intro _ | with_reducible apply Keeps.ite | with_reducible apply Keeps.ite_fst
    | with_reducible apply State.setCreg_keeps | with_reducible apply State.logCore_keeps

/-! ## Track -/

/-- State.trackHigh keeps all. -/
theorem State.trackHigh_keeps {s0 s : State} (g : CoreId) (hk : Keeps s0 s) : Keeps s0 (State.trackHigh s g) := by
  unfold State.trackHigh
  try dsimp only
  repeat'
    first
    | with_reducible assumption | intro _ | with_reducible apply Keeps.ite | with_reducible apply Keeps.ite_fst
    | with_reducible apply State.setCreg_keeps

/-- State.takeEntry keeps all. -/
theorem State.takeEntry_keeps {s0 s : State} (g : CoreId) (op : Dword) (card step : Nat) (pick : Byte) (pro confirmed : Bool) (hk : Keeps s0 s) :
    Keeps s0 (State.takeEntry s g op card step pick pro confirmed) := by
  unfold State.takeEntry
  try dsimp only
  repeat'
    first
    | with_reducible assumption | intro _ | with_reducible apply Keeps.ite | with_reducible apply Keeps.ite_fst
    | with_reducible apply State.setCore_keeps | with_reducible apply State.trackHigh_keeps
    | with_reducible refine Keeps.foldl ?_ _ _ ?_ | with_reducible refine Keeps.foldl_fst ?_ _ _ ?_
    | with_reducible refine Keeps.of_fst (by with_reducible assumption) ?_ | split

/-- State.freeTrk keeps all. -/
theorem State.freeTrk_keeps {s0 s : State} (g : CoreId) (e : Nat) (hk : Keeps s0 s) : Keeps s0 (State.freeTrk s g e) := by
  unfold State.freeTrk
  try dsimp only
  repeat'
    first
    | with_reducible assumption | intro _ | with_reducible apply Keeps.ite | with_reducible apply Keeps.ite_fst
    | with_reducible apply State.modCore_keeps

/-- State.setCmd keeps all. -/
theorem State.setCmd_keeps {s0 s : State} (g : CoreId) (step slot : Nat) (ph : CmdPhase) (hk : Keeps s0 s) :
    Keeps s0 (State.setCmd s g step slot ph) := by
  unfold State.setCmd
  try dsimp only
  repeat'
    first
    | with_reducible assumption | intro _ | with_reducible apply Keeps.ite | with_reducible apply Keeps.ite_fst
    | with_reducible apply State.modCore_keeps

/-- State.retireTransfer keeps all. -/
theorem State.retireTransfer_keeps {s0 s : State} (g : CoreId) (e : Nat) (hk : Keeps s0 s) :
    Keeps s0 (State.retireTransfer s g e) := by
  unfold State.retireTransfer
  try dsimp only
  repeat'
    first
    | with_reducible assumption | intro _ | with_reducible apply Keeps.ite | with_reducible apply Keeps.ite_fst
    | with_reducible apply State.freeTrk_keeps | with_reducible apply State.setCmd_keeps
    | with_reducible refine Keeps.foldl ?_ _ _ ?_ | with_reducible refine Keeps.foldl_fst ?_ _ _ ?_
    | with_reducible refine Keeps.of_fst (by with_reducible assumption) ?_ | split

/-- State.cause keeps all. -/
theorem State.cause_keeps {s0 s : State} (code : Nat) (voter : Nat) (hk : Keeps s0 s) :
    Keeps s0 (State.cause s code voter) := by
  unfold State.cause
  try dsimp only
  repeat'
    first
    | with_reducible assumption | intro _ | with_reducible apply Keeps.ite | with_reducible apply Keeps.ite_fst
    | with_reducible refine Keeps.foldl ?_ _ _ ?_ | with_reducible refine Keeps.foldl_fst ?_ _ _ ?_
    | with_reducible refine Keeps.of_fst (by with_reducible assumption) ?_ | split
    | with_reducible refine Keeps.record ?_ rfl rfl rfl rfl rfl

/-! ## Front -/

/-- State.rerunStep keeps all. -/
theorem State.rerunStep_keeps {s0 s : State} (g : CoreId) (si : StepInst) (v : Dword) (hk : Keeps s0 s) :
    Keeps s0 (State.rerunStep s g si v) := by
  unfold State.rerunStep
  try dsimp only
  repeat'
    first
    | with_reducible assumption | intro _ | with_reducible apply Keeps.ite | with_reducible apply Keeps.ite_fst
    | with_reducible apply State.freeTrk_keeps | with_reducible apply State.modCore_keeps
    | with_reducible apply State.setCreg_keeps | with_reducible apply State.ccount_keeps
    | with_reducible apply State.logCore_keeps | with_reducible refine Keeps.foldl ?_ _ _ ?_

/-- State.sourceError keeps all. -/
theorem State.sourceError_keeps {s0 s : State} (g : CoreId) (e : Dword) (hk : Keeps s0 s) :
    Keeps s0 (State.sourceError s g e) := by
  unfold State.sourceError
  try dsimp only
  repeat'
    first
    | with_reducible assumption | intro _ | with_reducible apply Keeps.ite | with_reducible apply Keeps.ite_fst
    | with_reducible apply State.ccount_keeps | with_reducible apply State.setCreg_keeps
    | with_reducible apply State.logCore_keeps | with_reducible apply State.modCore_keeps
    | with_reducible apply State.cause_keeps

/-- State.commandParity keeps all. -/
theorem State.commandParity_keeps {s0 s : State} (g : CoreId) (step : Nat) (v : Dword) (hk : Keeps s0 s) :
    Keeps s0 (State.commandParity s g step v) := by
  unfold State.commandParity
  try dsimp only
  repeat'
    first
    | with_reducible assumption | intro _ | with_reducible apply Keeps.ite | with_reducible apply Keeps.ite_fst
    | with_reducible apply State.sourceError_keeps | with_reducible apply State.rerunStep_keeps
    | with_reducible refine Keeps.foldl ?_ _ _ ?_ | with_reducible refine Keeps.foldl_fst ?_ _ _ ?_
    | with_reducible refine Keeps.of_fst (by with_reducible assumption) ?_ | split

/-- State.beamParity keeps all. -/
theorem State.beamParity_keeps {s0 s : State} (g : CoreId) (step off port : Nat) (hk : Keeps s0 s) :
    Keeps s0 (State.beamParity s g step off port) := by
  unfold State.beamParity
  try dsimp only
  repeat'
    first
    | with_reducible assumption | intro _ | with_reducible apply Keeps.ite | with_reducible apply Keeps.ite_fst
    | with_reducible apply State.commandParity_keeps

/-- State.halt keeps all. -/
theorem State.halt_keeps {s0 s : State} (g : CoreId) (code slot addr soff : Nat) (hk : Keeps s0 s) :
    Keeps s0 (State.halt s g code slot addr soff) := by
  unfold State.halt
  try dsimp only
  repeat'
    first
    | with_reducible assumption | intro _ | with_reducible apply Keeps.ite | with_reducible apply Keeps.ite_fst
    | with_reducible apply State.haltCore_keeps | with_reducible apply State.modCore_keeps
    | with_reducible apply State.cause_keeps

/-- State.startLoad keeps all. -/
theorem State.startLoad_keeps {s0 s : State} (g : CoreId) (i : Inst) (hk : Keeps s0 s) :
    Keeps s0 (State.startLoad s g i) := by
  unfold State.startLoad
  try dsimp only
  repeat'
    first
    | with_reducible assumption | intro _ | with_reducible apply Keeps.ite | with_reducible apply Keeps.ite_fst
    | with_reducible apply State.takeEntry_keeps | with_reducible refine Keeps.foldl ?_ _ _ ?_
    | with_reducible refine Keeps.foldl_fst ?_ _ _ ?_
    | with_reducible refine Keeps.of_fst (by with_reducible assumption) ?_ | split

/-- State.prologueClk keeps all. -/
theorem State.prologueClk_keeps {s0 s : State} (g : CoreId) (hk : Keeps s0 s) : Keeps s0 (State.prologueClk s g) := by
  unfold State.prologueClk
  try dsimp only
  repeat'
    first
    | with_reducible assumption | intro _ | with_reducible apply Keeps.ite | with_reducible apply Keeps.ite_fst
    | with_reducible apply State.startLoad_keeps | with_reducible apply State.modCore_keeps
    | with_reducible refine Keeps.foldl ?_ _ _ ?_ | with_reducible refine Keeps.foldl_fst ?_ _ _ ?_
    | with_reducible refine Keeps.of_fst (by with_reducible assumption) ?_ | split

/-- State.cardFetch keeps all. -/
theorem State.cardFetch_keeps {s0 s : State} (g : CoreId) (hk : Keeps s0 s) : Keeps s0 (State.cardFetch s g) := by
  unfold State.cardFetch
  try dsimp only
  repeat'
    first
    | with_reducible assumption | intro _ | with_reducible apply Keeps.ite | with_reducible apply Keeps.ite_fst
    | with_reducible apply State.halt_keeps | with_reducible apply State.ccount_keeps
    | with_reducible apply State.modCore_keeps

/-- State.descSource keeps all. -/
theorem State.descSource_keeps {s0 s : State} (g : CoreId) (off : Nat) (hk : Keeps s0 s) :
    Keeps s0 (State.descSource s g off) := by
  unfold State.descSource
  try dsimp only
  repeat'
    first
    | with_reducible assumption | intro _ | with_reducible apply Keeps.ite | with_reducible apply Keeps.ite_fst
    | with_reducible apply State.sourceError_keeps | with_reducible apply State.modCore_keeps

/-- State.cardDecode keeps all. -/
theorem State.cardDecode_keeps {s0 s : State} (g : CoreId) (hk : Keeps s0 s) : Keeps s0 (State.cardDecode s g) := by
  unfold State.cardDecode
  try dsimp only
  repeat'
    first
    | with_reducible assumption | intro _ | with_reducible apply Keeps.ite | with_reducible apply Keeps.ite_fst
    | with_reducible apply State.halt_keeps | with_reducible apply State.descSource_keeps
    | with_reducible apply State.modCore_keeps | with_reducible refine Keeps.foldl ?_ _ _ ?_
    | with_reducible refine Keeps.foldl_fst ?_ _ _ ?_
    | with_reducible refine Keeps.of_fst (by with_reducible assumption) ?_ | split

/-- State.loopOpen keeps all. -/
theorem State.loopOpen_keeps {s0 s : State} (g : CoreId) (hk : Keeps s0 s) : Keeps s0 (State.loopOpen s g) := by
  unfold State.loopOpen
  try dsimp only
  repeat'
    first
    | with_reducible assumption | intro _ | with_reducible apply Keeps.ite | with_reducible apply Keeps.ite_fst
    | with_reducible apply State.modCore_keeps | with_reducible refine Keeps.foldl ?_ _ _ ?_
    | with_reducible refine Keeps.foldl_fst ?_ _ _ ?_
    | with_reducible refine Keeps.of_fst (by with_reducible assumption) ?_ | split

/-! ## Bank -/

/-- State.perform keeps all. -/
theorem State.perform_keeps {s0 s : State} (g : CoreId) (a : Arb) (hk : Keeps s0 s) : Keeps s0 (State.perform s g a) := by
  unfold State.perform
  try dsimp only
  repeat'
    first
    | with_reducible assumption | intro _ | with_reducible apply Keeps.ite | with_reducible apply Keeps.ite_fst
    | with_reducible apply State.modCore_keeps | with_reducible apply State.mergeRead_keeps
    | with_reducible apply State.writeEntry_keeps | with_reducible apply State.bankWrite_keeps
    | with_reducible refine Keeps.foldl ?_ _ _ ?_

/-- State.beginSteps keeps all. -/
theorem State.beginSteps_keeps {s0 s : State} (g : CoreId) (hk : Keeps s0 s) : Keeps s0 (State.beginSteps s g).1 := by
  unfold State.beginSteps
  try dsimp only
  repeat'
    first
    | with_reducible assumption | intro _ | with_reducible apply Keeps.ite | with_reducible apply Keeps.ite_fst
    | with_reducible apply State.modCore_keeps

/-- State.accept keeps all. -/
theorem State.accept_keeps {s0 s : State} (g : CoreId) (x : Cmd) (hold : Bool) (steps : List RunStep) (hk : Keeps s0 s) :
    Keeps s0 (State.accept s g x hold steps) := by
  unfold State.accept
  try dsimp only
  repeat'
    first
    | with_reducible assumption | intro _ | with_reducible apply Keeps.ite | with_reducible apply Keeps.ite_fst
    | with_reducible apply State.setCmd_keeps | with_reducible apply State.modCore_keeps

/-- State.addRun keeps all. -/
theorem State.addRun_keeps {s0 s : State} (g : CoreId) (r : Run) (hk : Keeps s0 s) : Keeps s0 (State.addRun s g r) := by
  unfold State.addRun
  try dsimp only
  repeat'
    first
    | with_reducible assumption | intro _ | with_reducible apply Keeps.ite | with_reducible apply Keeps.ite_fst
    | with_reducible apply State.modCore_keeps

/-! ## Sync -/

/-- State.consume keeps all. -/
theorem State.consume_keeps {s0 s : State} (g : CoreId) (k v : Nat) (hk : Keeps s0 s) :
    Keeps s0 (State.consume s g k v) := by
  unfold State.consume
  try dsimp only
  repeat'
    first
    | with_reducible assumption | intro _ | with_reducible apply Keeps.ite | with_reducible apply Keeps.ite_fst
    | with_reducible apply State.countWrap_keeps

/-- State.sigCounted keeps all. -/
theorem State.sigCounted_keeps {s0 s : State} (sent : Bool) (pick : Byte) (hk : Keeps s0 s) :
    Keeps s0 (State.sigCounted s sent pick) := by
  unfold State.sigCounted
  try dsimp only
  repeat'
    first
    | with_reducible assumption | intro _ | with_reducible apply Keeps.ite | with_reducible apply Keeps.ite_fst
    | with_reducible refine Keeps.foldl ?_ _ _ ?_ | with_reducible refine Keeps.foldl_fst ?_ _ _ ?_
    | with_reducible refine Keeps.of_fst (by with_reducible assumption) ?_ | split
    | with_reducible refine Keeps.record ?_ rfl rfl rfl rfl rfl

/-- State.cross keeps all. -/
theorem State.cross_keeps {s0 s : State} (n : Sd) (g : CoreId) (m : SdMsg) (hk : Keeps s0 s) :
    Keeps s0 (State.cross s n g m) := by
  unfold State.cross
  try dsimp only
  repeat'
    first
    | with_reducible assumption | intro _ | with_reducible apply Keeps.ite | with_reducible apply Keeps.ite_fst
    | with_reducible apply State.setSd_keeps

/-- State.applySig keeps all. -/
theorem State.applySig_keeps {s0 s : State} (g : CoreId) (x : KnotSig) (hk : Keeps s0 s) :
    Keeps s0 (State.applySig s g x) := by
  unfold State.applySig
  try dsimp only
  repeat'
    first
    | with_reducible assumption | intro _ | with_reducible apply Keeps.ite | with_reducible apply Keeps.ite_fst
    | with_reducible apply State.countWrap_keeps | with_reducible apply State.modCore_keeps
    | with_reducible apply State.setCmd_keeps | with_reducible apply State.retireTransfer_keeps
    | with_reducible apply State.cross_keeps | with_reducible apply State.sigCounted_keeps
    | with_reducible refine Keeps.foldl ?_ _ _ ?_ | with_reducible refine Keeps.foldl_fst ?_ _ _ ?_
    | with_reducible refine Keeps.of_fst (by with_reducible assumption) ?_ | split

/-- State.presentSig keeps all. -/
theorem State.presentSig_keeps {s0 s : State} (g : CoreId) (x : KnotSig) (hk : Keeps s0 s) :
    Keeps s0 (State.presentSig s g x) := by
  unfold State.presentSig
  try dsimp only
  repeat'
    first
    | with_reducible assumption | intro _ | with_reducible apply Keeps.ite | with_reducible apply Keeps.ite_fst
    | with_reducible apply State.modCore_keeps | with_reducible apply State.ccount_keeps
    | with_reducible apply State.applySig_keeps

/-- State.signalArrive keeps all. -/
theorem State.signalArrive_keeps {s0 s : State} (g : CoreId) (hk : Keeps s0 s) : Keeps s0 (State.signalArrive s g) := by
  unfold State.signalArrive
  try dsimp only
  repeat'
    first
    | with_reducible assumption | intro _ | with_reducible apply Keeps.ite | with_reducible apply Keeps.ite_fst
    | with_reducible apply State.modCore_keeps | with_reducible apply State.presentSig_keeps
    | with_reducible refine Keeps.foldl ?_ _ _ ?_ | with_reducible refine Keeps.foldl_fst ?_ _ _ ?_
    | with_reducible refine Keeps.of_fst (by with_reducible assumption) ?_ | split

/-- State.knotClk keeps all. -/
theorem State.knotClk_keeps {s0 s : State} (g : CoreId) (hk : Keeps s0 s) : Keeps s0 (State.knotClk s g) := by
  unfold State.knotClk
  try dsimp only
  repeat'
    first
    | with_reducible assumption | intro _ | with_reducible apply Keeps.ite | with_reducible apply Keeps.ite_fst
    | with_reducible apply State.modCore_keeps | with_reducible apply State.applySig_keeps
    | with_reducible refine Keeps.foldl ?_ _ _ ?_

/-- State.performed keeps all. -/
theorem State.performed_keeps {s0 s : State} (g : CoreId) (hk : Keeps s0 s) : Keeps s0 (State.performed s g) := by
  unfold State.performed
  try dsimp only
  repeat'
    first
    | with_reducible assumption | intro _ | with_reducible apply Keeps.ite | with_reducible apply Keeps.ite_fst
    | with_reducible apply State.modCore_keeps

/-- State.knotAdd keeps all. -/
theorem State.knotAdd_keeps {s0 s : State} (g : CoreId) (hk : Keeps s0 s) : Keeps s0 (State.knotAdd s g) := by
  unfold State.knotAdd
  cases s.nextOp g 7 0xE0
  all_goals try dsimp only
  repeat'
    first
    | with_reducible assumption | intro _ | with_reducible apply Keeps.ite | with_reducible apply Keeps.ite_fst
    | with_reducible apply State.setCmd_keeps

/-- State.knotAddSend keeps all. -/
theorem State.knotAddSend_keeps {s0 s : State} (g : CoreId) (hk : Keeps s0 s) : Keeps s0 (State.knotAddSend s g) := by
  unfold State.knotAddSend
  cases s.nextSync g 0xE0
  all_goals try dsimp only
  repeat'
    first
    | with_reducible assumption | intro _ | with_reducible apply Keeps.ite | with_reducible apply Keeps.ite_fst
    | with_reducible apply State.setCmd_keeps | with_reducible apply State.performed_keeps
    | with_reducible apply State.modCore_keeps | with_reducible apply State.sigCounted_keeps

/-- State.knotWait keeps all. -/
theorem State.knotWait_keeps {s0 s : State} (g : CoreId) (hk : Keeps s0 s) : Keeps s0 (State.knotWait s g) := by
  unfold State.knotWait
  cases s.nextOp g 7 0xE1
  all_goals try dsimp only
  repeat'
    first
    | with_reducible assumption | intro _ | with_reducible apply Keeps.ite | with_reducible apply Keeps.ite_fst
    | with_reducible apply State.consume_keeps | with_reducible apply State.setCmd_keeps

/-- State.markLog keeps all. -/
theorem State.markLog_keeps {s0 s : State} (g : CoreId) (hk : Keeps s0 s) : Keeps s0 (State.markLog s g) := by
  unfold State.markLog
  cases s.nextOp g 7 0xE4
  all_goals try dsimp only
  repeat'
    first
    | with_reducible assumption | intro _ | with_reducible apply Keeps.ite | with_reducible apply Keeps.ite_fst
    | with_reducible apply State.logCore_keeps | with_reducible apply State.setCmd_keeps

/-- State.setCredits keeps all. -/
theorem State.setCredits_keeps {s0 s : State} (g : CoreId) (ch : Nat) (l : List (Nat × Nat)) (hk : Keeps s0 s) :
    Keeps s0 (State.setCredits s g ch l) := by
  unfold State.setCredits
  try dsimp only
  repeat'
    first
    | with_reducible assumption | intro _ | with_reducible apply Keeps.ite | with_reducible apply Keeps.ite_fst
    | with_reducible apply State.modCore_keeps

/-- State.setRecv keeps all. -/
theorem State.setRecv_keeps {s0 s : State} (g : CoreId) (ch : Nat) (r : RecvEnd) (hk : Keeps s0 s) :
    Keeps s0 (State.setRecv s g ch r) := by
  unfold State.setRecv
  try dsimp only
  repeat'
    first
    | with_reducible assumption | intro _ | with_reducible apply Keeps.ite | with_reducible apply Keeps.ite_fst
    | with_reducible apply State.modCore_keeps

/-- State.chanSend keeps all. -/
theorem State.chanSend_keeps {s0 s : State} (g : CoreId) (hk : Keeps s0 s) : Keeps s0 (State.chanSend s g) := by
  unfold State.chanSend
  cases s.nextOp g 7 0xE2
  all_goals try dsimp only
  repeat'
    first
    | with_reducible assumption | intro _ | with_reducible apply Keeps.ite | with_reducible apply Keeps.ite_fst
    | with_reducible apply State.setCredits_keeps | with_reducible apply State.setCmd_keeps
    | with_reducible apply State.modCore_keeps | with_reducible refine Keeps.foldl ?_ _ _ ?_
    | with_reducible refine Keeps.foldl_fst ?_ _ _ ?_
    | with_reducible refine Keeps.of_fst (by with_reducible assumption) ?_ | split

/-- State.chanSendPerform keeps all. -/
theorem State.chanSendPerform_keeps {s0 s : State} (g : CoreId) (hk : Keeps s0 s) :
    Keeps s0 (State.chanSendPerform s g) := by
  unfold State.chanSendPerform
  cases s.nextSync g 0xE2
  all_goals try dsimp only
  repeat'
    first
    | with_reducible assumption | intro _ | with_reducible apply Keeps.ite | with_reducible apply Keeps.ite_fst
    | with_reducible apply State.setCmd_keeps | with_reducible apply State.performed_keeps
    | with_reducible apply State.modCore_keeps | with_reducible apply State.addRun_keeps
    | with_reducible refine Keeps.foldl ?_ _ _ ?_ | with_reducible refine Keeps.foldl_fst ?_ _ _ ?_
    | with_reducible refine Keeps.of_fst (by with_reducible assumption) ?_ | split

/-- State.messageArrive keeps all. -/
theorem State.messageArrive_keeps {s0 s : State} (g : CoreId) (hk : Keeps s0 s) : Keeps s0 (State.messageArrive s g) := by
  unfold State.messageArrive
  try dsimp only
  repeat'
    first
    | with_reducible assumption | intro _ | with_reducible apply Keeps.ite | with_reducible apply Keeps.ite_fst
    | with_reducible apply State.modCore_keeps | with_reducible apply State.ccount_keeps
    | with_reducible apply State.setRecv_keeps | with_reducible refine Keeps.foldl ?_ _ _ ?_
    | with_reducible refine Keeps.foldl_fst ?_ _ _ ?_
    | with_reducible refine Keeps.of_fst (by with_reducible assumption) ?_ | split

/-- State.messageAckArrive keeps all. -/
theorem State.messageAckArrive_keeps {s0 s : State} (g : CoreId) (hk : Keeps s0 s) :
    Keeps s0 (State.messageAckArrive s g) := by
  unfold State.messageAckArrive
  try dsimp only
  repeat'
    first
    | with_reducible assumption | intro _ | with_reducible apply Keeps.ite | with_reducible apply Keeps.ite_fst
    | with_reducible apply State.modCore_keeps | with_reducible apply State.setCmd_keeps
    | with_reducible refine Keeps.foldl ?_ _ _ ?_ | with_reducible refine Keeps.foldl_fst ?_ _ _ ?_
    | with_reducible refine Keeps.of_fst (by with_reducible assumption) ?_ | split

/-- State.chanRecv keeps all. -/
theorem State.chanRecv_keeps {s0 s : State} (g : CoreId) (hk : Keeps s0 s) : Keeps s0 (State.chanRecv s g) := by
  unfold State.chanRecv
  cases s.nextOp g 7 0xE3
  all_goals try dsimp only
  repeat'
    first
    | with_reducible assumption | intro _ | with_reducible apply Keeps.ite | with_reducible apply Keeps.ite_fst
    | with_reducible apply State.setRecv_keeps | with_reducible apply State.setCmd_keeps
    | with_reducible apply State.modCore_keeps | with_reducible refine Keeps.foldl ?_ _ _ ?_
    | with_reducible refine Keeps.foldl_fst ?_ _ _ ?_
    | with_reducible refine Keeps.of_fst (by with_reducible assumption) ?_ | split

/-- State.chanRecvPerform keeps all. -/
theorem State.chanRecvPerform_keeps {s0 s : State} (g : CoreId) (hk : Keeps s0 s) :
    Keeps s0 (State.chanRecvPerform s g) := by
  unfold State.chanRecvPerform
  cases s.nextSync g 0xE3
  all_goals try dsimp only
  repeat'
    first
    | with_reducible assumption | intro _ | with_reducible apply Keeps.ite | with_reducible apply Keeps.ite_fst
    | with_reducible apply State.ccount_keeps | with_reducible apply State.setCmd_keeps
    | with_reducible apply State.performed_keeps | with_reducible apply State.modCore_keeps
    | with_reducible apply State.addRun_keeps | with_reducible refine Keeps.foldl ?_ _ _ ?_
    | with_reducible refine Keeps.foldl_fst ?_ _ _ ?_
    | with_reducible refine Keeps.of_fst (by with_reducible assumption) ?_ | split

/-- State.creditArrive keeps all. -/
theorem State.creditArrive_keeps {s0 s : State} (g : CoreId) (hk : Keeps s0 s) : Keeps s0 (State.creditArrive s g) := by
  unfold State.creditArrive
  try dsimp only
  repeat'
    first
    | with_reducible assumption | intro _ | with_reducible apply Keeps.ite | with_reducible apply Keeps.ite_fst
    | with_reducible apply State.modCore_keeps | with_reducible apply State.ccount_keeps
    | with_reducible apply State.setCredits_keeps | with_reducible refine Keeps.foldl ?_ _ _ ?_
    | with_reducible refine Keeps.foldl_fst ?_ _ _ ?_
    | with_reducible refine Keeps.of_fst (by with_reducible assumption) ?_ | split

/-! ## Sequencer -/

/-- State.issueCard keeps all. -/
theorem State.issueCard_keeps {s0 s : State} (g : CoreId) (hk : Keeps s0 s) : Keeps s0 (State.issueCard s g) := by
  unfold State.issueCard
  try dsimp only
  repeat'
    first
    | with_reducible assumption | intro _ | with_reducible apply Keeps.ite | with_reducible apply Keeps.ite_fst
    | with_reducible apply State.modCore_keeps | with_reducible apply State.setCreg_keeps
    | with_reducible refine Keeps.foldl ?_ _ _ ?_ | with_reducible refine Keeps.foldl_fst ?_ _ _ ?_
    | with_reducible refine Keeps.of_fst (by with_reducible assumption) ?_ | split

/-- State.holdClk keeps all. -/
theorem State.holdClk_keeps {s0 s : State} (g : CoreId) (hk : Keeps s0 s) : Keeps s0 (State.holdClk s g) := by
  unfold State.holdClk
  try dsimp only
  repeat'
    first
    | with_reducible assumption | intro _ | with_reducible apply Keeps.ite | with_reducible apply Keeps.ite_fst
    | with_reducible apply State.ccount_keeps | with_reducible apply State.setCreg_keeps
    | with_reducible refine Keeps.foldl ?_ _ _ ?_ | with_reducible refine Keeps.foldl_fst ?_ _ _ ?_
    | with_reducible refine Keeps.of_fst (by with_reducible assumption) ?_ | split

/-- State.cardRetire keeps all. -/
theorem State.cardRetire_keeps {s0 s : State} (g : CoreId) (hk : Keeps s0 s) : Keeps s0 (State.cardRetire s g) := by
  unfold State.cardRetire
  try dsimp only
  repeat'
    first
    | with_reducible assumption | intro _ | with_reducible apply Keeps.ite | with_reducible apply Keeps.ite_fst
    | with_reducible apply State.modCore_keeps | with_reducible refine Keeps.foldl ?_ _ _ ?_
    | with_reducible refine Keeps.foldl_fst ?_ _ _ ?_
    | with_reducible refine Keeps.of_fst (by with_reducible assumption) ?_ | split

/-- State.endPick keeps all. -/
theorem State.endPick_keeps {s0 s : State} (g : CoreId) (hk : Keeps s0 s) : Keeps s0 (State.endPick s g) := by
  unfold State.endPick
  try dsimp only
  repeat'
    first
    | with_reducible assumption | intro _ | with_reducible apply Keeps.ite | with_reducible apply Keeps.ite_fst
    | with_reducible apply State.modCore_keeps

/-- State.captureHit keeps all. -/
theorem State.captureHit_keeps {s0 s : State} (g : CoreId) (hk : Keeps s0 s) : Keeps s0 (State.captureHit s g) := by
  unfold State.captureHit
  try dsimp only
  repeat'
    first
    | with_reducible assumption | intro _ | with_reducible apply Keeps.ite | with_reducible apply Keeps.ite_fst
    | with_reducible apply State.setCreg_keeps | with_reducible apply State.modCore_keeps
    | with_reducible apply State.logCore_keeps

/-- State.setSpec keeps all. -/
theorem State.setSpec_keeps {s0 s : State} (g : CoreId) (b : Bool) (hk : Keeps s0 s) : Keeps s0 (State.setSpec s g b) := by
  unfold State.setSpec
  try dsimp only
  repeat'
    first
    | with_reducible assumption | intro _ | with_reducible apply Keeps.ite | with_reducible apply Keeps.ite_fst
    | with_reducible apply State.setCreg_keeps

/-- State.curVariant keeps all. -/
theorem State.curVariant_keeps {s0 s : State} (g : CoreId) (v : Nat) (hk : Keeps s0 s) :
    Keeps s0 (State.curVariant s g v) := by
  unfold State.curVariant
  try dsimp only
  repeat'
    first
    | with_reducible assumption | intro _ | with_reducible apply Keeps.ite | with_reducible apply Keeps.ite_fst
    | with_reducible apply State.setCreg_keeps

/-- State.shedSelect keeps all. -/
theorem State.shedSelect_keeps {s0 s : State} (g : CoreId) (hk : Keeps s0 s) : Keeps s0 (State.shedSelect s g) := by
  unfold State.shedSelect
  try dsimp only
  repeat'
    first
    | with_reducible assumption | intro _ | with_reducible apply Keeps.ite | with_reducible apply Keeps.ite_fst
    | with_reducible apply State.halt_keeps | with_reducible apply State.modCore_keeps
    | with_reducible apply State.parCounted_keeps | with_reducible refine Keeps.foldl ?_ _ _ ?_

/-- State.undoEnds keeps all. -/
theorem State.undoEnds_keeps {s0 s : State} (g : CoreId) (hk : Keeps s0 s) : Keeps s0 (State.undoEnds s g) := by
  unfold State.undoEnds
  try dsimp only
  repeat'
    first
    | with_reducible assumption | intro _ | with_reducible apply Keeps.ite | with_reducible apply Keeps.ite_fst
    | with_reducible apply State.setCreg_keeps | with_reducible apply State.modCore_keeps
    | with_reducible refine Keeps.foldl ?_ _ _ ?_ | with_reducible refine Keeps.foldl_fst ?_ _ _ ?_
    | with_reducible refine Keeps.of_fst (by with_reducible assumption) ?_ | split

/-- State.parNoted keeps all. -/
theorem State.parNoted_keeps {s0 s : State} (g : CoreId) (v : Dword) (hk : Keeps s0 s) :
    Keeps s0 (State.parNoted s g v) := by
  unfold State.parNoted
  try dsimp only
  repeat'
    first
    | with_reducible assumption | intro _ | with_reducible apply Keeps.ite | with_reducible apply Keeps.ite_fst
    | with_reducible apply State.ccount_keeps | with_reducible apply State.logCore_keeps

/-- State.dropSigs keeps all. -/
theorem State.dropSigs_keeps {s0 s : State} (h : CoreId) (gone : List AckTo) (hk : Keeps s0 s) :
    Keeps s0 (State.dropSigs s h gone) := by
  unfold State.dropSigs
  try dsimp only
  repeat'
    first
    | with_reducible assumption | intro _ | with_reducible apply Keeps.ite | with_reducible apply Keeps.ite_fst
    | with_reducible apply State.modCore_keeps | with_reducible apply State.sigCounted_keeps
    | with_reducible refine Keeps.foldl ?_ _ _ ?_

/-- State.endLoads keeps all. -/
theorem State.endLoads_keeps {s0 s : State} (g : CoreId) (gone : List (Nat × Transfer)) (hk : Keeps s0 s) :
    Keeps s0 (State.endLoads s g gone) := by
  unfold State.endLoads
  try dsimp only
  repeat'
    first
    | with_reducible assumption | intro _ | with_reducible apply Keeps.ite | with_reducible apply Keeps.ite_fst
    | with_reducible apply State.freeTrk_keeps | with_reducible apply State.dropSigs_keeps
    | with_reducible refine Keeps.foldl ?_ _ _ ?_

/-- State.undoStart keeps all. -/
theorem State.undoStart_keeps {s0 s : State} (g : CoreId) (front : FrontEnd) (v : Nat) (hk : Keeps s0 s) :
    Keeps s0 (State.undoStart s g front v) := by
  unfold State.undoStart
  try dsimp only
  repeat'
    first
    | with_reducible assumption | intro _ | with_reducible apply Keeps.ite | with_reducible apply Keeps.ite_fst
    | with_reducible apply State.parNoted_keeps | with_reducible apply State.endLoads_keeps
    | with_reducible apply State.modCore_keeps | with_reducible apply State.ccount_keeps
    | with_reducible apply State.setSpec_keeps | with_reducible apply State.undoEnds_keeps
    | with_reducible refine Keeps.foldl ?_ _ _ ?_

/-- State.selected keeps all. -/
theorem State.selected_keeps {s0 s : State} (g : CoreId) (v : Nat) (hk : Keeps s0 s) : Keeps s0 (State.selected s g v) := by
  unfold State.selected
  try dsimp only
  repeat'
    first
    | with_reducible assumption | intro _ | with_reducible apply Keeps.ite | with_reducible apply Keeps.ite_fst
    | with_reducible apply State.modCore_keeps | with_reducible apply State.curVariant_keeps
    | with_reducible apply State.setSpec_keeps | with_reducible apply State.undoStart_keeps

/-- State.selectorReadDone keeps all. -/
theorem State.selectorReadDone_keeps {s0 s : State} (g : CoreId) (hk : Keeps s0 s) :
    Keeps s0 (State.selectorReadDone s g) := by
  unfold State.selectorReadDone
  try dsimp only
  repeat'
    first
    | with_reducible assumption | intro _ | with_reducible apply Keeps.ite | with_reducible apply Keeps.ite_fst
    | with_reducible apply State.selected_keeps | with_reducible refine Keeps.foldl ?_ _ _ ?_
    | with_reducible refine Keeps.foldl_fst ?_ _ _ ?_
    | with_reducible refine Keeps.of_fst (by with_reducible assumption) ?_ | split

/-- State.undoCancelAck keeps all. -/
theorem State.undoCancelAck_keeps {s0 s : State} (g src : CoreId) (hk : Keeps s0 s) :
    Keeps s0 (State.undoCancelAck s g src) := by
  unfold State.undoCancelAck
  try dsimp only
  repeat'
    first
    | with_reducible assumption | intro _ | with_reducible apply Keeps.ite | with_reducible apply Keeps.ite_fst
    | with_reducible apply State.modCore_keeps | with_reducible apply State.undoEnds_keeps
    | with_reducible refine Keeps.foldl ?_ _ _ ?_ | with_reducible refine Keeps.foldl_fst ?_ _ _ ?_
    | with_reducible refine Keeps.of_fst (by with_reducible assumption) ?_ | split

/-- State.prologueStart keeps all. -/
theorem State.prologueStart_keeps {s0 s : State} (g : CoreId) (hk : Keeps s0 s) : Keeps s0 (State.prologueStart s g) := by
  unfold State.prologueStart
  try dsimp only
  repeat'
    first
    | with_reducible assumption | intro _ | with_reducible apply Keeps.ite | with_reducible apply Keeps.ite_fst
    | with_reducible apply State.modCore_keeps | with_reducible apply State.setCreg_keeps
    | with_reducible apply State.setSpec_keeps

end Sys2Proof.Machine
end

