-- ==== Sys2Proof/Laws/KeepsEngines.lean ====
section
/-! SUPPORT. That each operation of the model keeps what Laws/Keeps.lean lists: Weave, Batten, Reed, Heald, Carder, Elem, Packet, Shuttle, Datapath, Tally, Provenance, Beam, Spool, Service. -/

namespace Sys2Proof.Machine

/-! ## Elem -/

/-- State.flag keeps all. -/
theorem State.flag_keeps {s0 s : State} (g : CoreId) (bits : Nat) (hk : Keeps s0 s) : Keeps s0 (State.flag s g bits) := by
  unfold State.flag
  try dsimp only
  repeat'
    first
    | with_reducible assumption | intro _ | with_reducible apply Keeps.ite | with_reducible apply Keeps.ite_fst
    | with_reducible apply State.setCreg_keeps

/-- State.batten keeps all. -/
theorem State.batten_keeps {s0 s : State} (g : CoreId) (opcode : Nat) (hk : Keeps s0 s) :
    Keeps s0 (State.batten s g opcode) := by
  unfold State.batten
  cases s.nextOp g 2 opcode
  all_goals try dsimp only
  repeat'
    first
    | with_reducible assumption | intro _ | with_reducible apply Keeps.ite | with_reducible apply Keeps.ite_fst
    | with_reducible apply State.accept_keeps

/-! ## Weave -/

/-- State.putTake keeps all. -/
theorem State.putTake_keeps {s0 s : State} (g : CoreId) (r j v : Nat) (hk : Keeps s0 s) :
    Keeps s0 (State.putTake s g r j v) := by
  unfold State.putTake
  try dsimp only
  repeat'
    first
    | with_reducible assumption | intro _ | with_reducible apply Keeps.ite | with_reducible apply Keeps.ite_fst
    | with_reducible apply State.setBytes_keeps | with_reducible apply State.setPar_keeps

/-- State.putTakeRow keeps all. -/
theorem State.putTakeRow_keeps {s0 s : State} (g : CoreId) (r : Nat) (l : List Nat) (hk : Keeps s0 s) :
    Keeps s0 (State.putTakeRow s g r l) := by
  unfold State.putTakeRow
  try dsimp only
  repeat'
    first
    | with_reducible assumption | intro _ | with_reducible apply Keeps.ite | with_reducible apply Keeps.ite_fst
    | with_reducible apply State.putTake_keeps | with_reducible refine Keeps.foldl ?_ _ _ ?_

/-- State.wvPassWith keeps all. -/
theorem State.wvPassWith_keeps {s0 s : State} (g : CoreId) (x : Cmd) (hk : Keeps s0 s) :
    Keeps s0 (State.wvPassWith s g x) := by
  unfold State.wvPassWith
  try dsimp only
  repeat'
    first
    | with_reducible assumption | intro _ | with_reducible apply Keeps.ite | with_reducible apply Keeps.ite_fst
    | with_reducible apply State.modCore_keeps | with_reducible apply State.setCmd_keeps
    | with_reducible apply State.ccount_keeps

/-- State.wvPass keeps all. -/
theorem State.wvPass_keeps {s0 s : State} (g : CoreId) (hk : Keeps s0 s) : Keeps s0 (State.wvPass s g) := by
  unfold State.wvPass
  cases s.nextOp g 1 0x20
  all_goals try dsimp only
  repeat'
    first
    | with_reducible assumption | intro _ | with_reducible apply Keeps.ite | with_reducible apply Keeps.ite_fst
    | with_reducible apply State.wvPassWith_keeps

/-- State.wvDrain keeps all. -/
theorem State.wvDrain_keeps {s0 s : State} (g : CoreId) (hk : Keeps s0 s) : Keeps s0 (State.wvDrain s g) := by
  unfold State.wvDrain
  cases s.nextOp g 1 0x21
  all_goals try dsimp only
  repeat'
    first
    | with_reducible assumption | intro _ | with_reducible apply Keeps.ite | with_reducible apply Keeps.ite_fst
    | with_reducible apply State.setCmd_keeps | with_reducible apply State.modCore_keeps

/-- State.drainClk keeps all. -/
theorem State.drainClk_keeps {s0 s : State} (g : CoreId) (hk : Keeps s0 s) : Keeps s0 (State.drainClk s g).1 := by
  unfold State.drainClk
  try dsimp only
  repeat'
    first
    | with_reducible assumption | intro _ | with_reducible apply Keeps.ite | with_reducible apply Keeps.ite_fst
    | with_reducible apply State.putTake_keeps | with_reducible apply State.modCore_keeps
    | with_reducible refine Keeps.foldl ?_ _ _ ?_ | with_reducible refine Keeps.foldl_fst ?_ _ _ ?_
    | with_reducible refine Keeps.of_fst (by with_reducible assumption) ?_ | split

/-- State.passStore keeps all. -/
theorem State.passStore_keeps {s0 s : State} (g : CoreId) (p : PassTime) (clk : Nat) (hk : Keeps s0 s) :
    Keeps s0 (State.passStore s g p clk) := by
  unfold State.passStore
  try dsimp only
  repeat'
    first
    | with_reducible assumption | intro _ | with_reducible apply Keeps.ite | with_reducible apply Keeps.ite_fst
    | with_reducible apply State.putTake_keeps | with_reducible refine Keeps.foldl ?_ _ _ ?_

/-- State.weaveClk keeps all. -/
theorem State.weaveClk_keeps {s0 s : State} (g : CoreId) (hk : Keeps s0 s) : Keeps s0 (State.weaveClk s g).1 := by
  unfold State.weaveClk
  try dsimp only
  repeat'
    first
    | with_reducible assumption | intro _ | with_reducible apply Keeps.ite | with_reducible apply Keeps.ite_fst
    | with_reducible apply State.ccount_keeps | with_reducible apply State.passStore_keeps
    | with_reducible apply State.setCmd_keeps | with_reducible apply State.drainClk_keeps
    | with_reducible apply State.modCore_keeps | with_reducible refine Keeps.foldl ?_ _ _ ?_

/-- State.gateGroup keeps all. -/
theorem State.gateGroup_keeps {s0 s : State} (g : CoreId) (hk : Keeps s0 s) : Keeps s0 (State.gateGroup s g) := by
  unfold State.gateGroup
  try dsimp only
  repeat'
    first
    | with_reducible assumption | intro _ | with_reducible apply Keeps.ite | with_reducible apply Keeps.ite_fst
    | with_reducible apply State.modCore_keeps

/-- State.ungateGroup keeps all. -/
theorem State.ungateGroup_keeps {s0 s : State} (g : CoreId) (hk : Keeps s0 s) : Keeps s0 (State.ungateGroup s g) := by
  unfold State.ungateGroup
  try dsimp only
  repeat'
    first
    | with_reducible assumption | intro _ | with_reducible apply Keeps.ite | with_reducible apply Keeps.ite_fst
    | with_reducible apply State.modCore_keeps | with_reducible refine Keeps.foldl ?_ _ _ ?_
    | with_reducible refine Keeps.foldl_fst ?_ _ _ ?_
    | with_reducible refine Keeps.of_fst (by with_reducible assumption) ?_ | split

/-! ## Carder -/

/-- State.carder keeps all. -/
theorem State.carder_keeps {s0 s : State} (g : CoreId) (x : Cmd) (n : CdCounts) (steps : List RunStep) (hk : Keeps s0 s) :
    Keeps s0 (State.carder s g x n steps) := by
  unfold State.carder
  try dsimp only
  repeat'
    first
    | with_reducible assumption | intro _ | with_reducible apply Keeps.ite | with_reducible apply Keeps.ite_fst
    | with_reducible apply State.ccount_keeps | with_reducible apply State.accept_keeps
    | with_reducible refine Keeps.foldl ?_ _ _ ?_

/-- State.cdVoxel keeps all. -/
theorem State.cdVoxel_keeps {s0 s : State} (g : CoreId) (hk : Keeps s0 s) : Keeps s0 (State.cdVoxel s g) := by
  unfold State.cdVoxel
  cases s.nextOp g 5 0xA0
  all_goals try dsimp only
  repeat'
    first
    | with_reducible assumption | intro _ | with_reducible apply Keeps.ite | with_reducible apply Keeps.ite_fst
    | with_reducible apply State.modCore_keeps | with_reducible apply State.carder_keeps

/-- State.cdRules keeps all. -/
theorem State.cdRules_keeps {s0 s : State} (g : CoreId) (hk : Keeps s0 s) : Keeps s0 (State.cdRules s g) := by
  unfold State.cdRules
  cases s.nextOp g 5 0xA1
  all_goals try dsimp only
  repeat'
    first
    | with_reducible assumption | intro _ | with_reducible apply Keeps.ite | with_reducible apply Keeps.ite_fst
    | with_reducible apply State.modCore_keeps | with_reducible apply State.carder_keeps

/-- State.overlay keeps all. -/
theorem State.overlay_keeps {s0 s : State} (g : CoreId) (l : List (Nat × Byte)) (hk : Keeps s0 s) :
    Keeps s0 (State.overlay s g l) := by
  unfold State.overlay
  try dsimp only
  repeat'
    first
    | with_reducible assumption | intro _ | with_reducible apply Keeps.ite | with_reducible apply Keeps.ite_fst
    | with_reducible apply State.modCore_keeps

/-- State.cdGather keeps all. -/
theorem State.cdGather_keeps {s0 s : State} (g : CoreId) (hk : Keeps s0 s) : Keeps s0 (State.cdGather s g) := by
  unfold State.cdGather
  cases s.nextOp g 5 0xA2
  all_goals try dsimp only
  repeat'
    first
    | with_reducible assumption | intro _ | with_reducible apply Keeps.ite | with_reducible apply Keeps.ite_fst
    | with_reducible apply State.carder_keeps

/-- State.cdBev keeps all. -/
theorem State.cdBev_keeps {s0 s : State} (g : CoreId) (hk : Keeps s0 s) : Keeps s0 (State.cdBev s g) := by
  unfold State.cdBev
  cases s.nextOp g 5 0xA3
  all_goals try dsimp only
  repeat'
    first
    | with_reducible assumption | intro _ | with_reducible apply Keeps.ite | with_reducible apply Keeps.ite_fst
    | with_reducible apply State.count_keeps | with_reducible apply State.overlay_keeps
    | with_reducible apply State.carder_keeps

/-! ## Heald -/

/-- State.hlCopy keeps all. -/
theorem State.hlCopy_keeps {s0 s : State} (g : CoreId) (hk : Keeps s0 s) : Keeps s0 (State.hlCopy s g) := by
  unfold State.hlCopy
  cases s.nextOp g 4 0x80
  all_goals try dsimp only
  repeat'
    first
    | with_reducible assumption | intro _ | with_reducible apply Keeps.ite | with_reducible apply Keeps.ite_fst
    | with_reducible apply State.accept_keeps

/-- State.hlTranspose keeps all. -/
theorem State.hlTranspose_keeps {s0 s : State} (g : CoreId) (hk : Keeps s0 s) : Keeps s0 (State.hlTranspose s g) := by
  unfold State.hlTranspose
  cases s.nextOp g 4 0x81
  all_goals try dsimp only
  repeat'
    first
    | with_reducible assumption | intro _ | with_reducible apply Keeps.ite | with_reducible apply Keeps.ite_fst
    | with_reducible apply State.count_keeps | with_reducible apply State.accept_keeps

/-- State.hlGather keeps all. -/
theorem State.hlGather_keeps {s0 s : State} (g : CoreId) (hk : Keeps s0 s) : Keeps s0 (State.hlGather s g) := by
  unfold State.hlGather
  cases s.nextOp g 4 0x82
  all_goals try dsimp only
  repeat'
    first
    | with_reducible assumption | intro _ | with_reducible apply Keeps.ite | with_reducible apply Keeps.ite_fst
    | with_reducible apply State.accept_keeps

/-- State.hlScatter keeps all. -/
theorem State.hlScatter_keeps {s0 s : State} (g : CoreId) (hk : Keeps s0 s) : Keeps s0 (State.hlScatter s g) := by
  unfold State.hlScatter
  cases s.nextOp g 4 0x83
  all_goals try dsimp only
  repeat'
    first
    | with_reducible assumption | intro _ | with_reducible apply Keeps.ite | with_reducible apply Keeps.ite_fst
    | with_reducible apply State.accept_keeps

/-! ## Tally -/

/-- State.tallyCompare keeps all. -/
theorem State.tallyCompare_keeps {s0 s : State} (base : Nat) (ev : State → Nat → Dword → State) (hfev : ∀ y0 y1 y2, Keeps s0 y0 → Keeps s0 (ev y0 y1 y2)) (hk : Keeps s0 s) :
    Keeps s0 (State.tallyCompare s base ev) := by
  unfold State.tallyCompare
  try dsimp only
  repeat'
    first
    | with_reducible assumption | intro _ | with_reducible apply Keeps.ite | with_reducible apply Keeps.ite_fst
    | with_reducible apply hfev | with_reducible apply State.modReg_keeps | with_reducible apply State.count_keeps

/-- State.tallyAsk keeps all. -/
theorem State.tallyAsk_keeps {s0 s : State} (d : Die) (n : TallyNo) (hk : Keeps s0 s) : Keeps s0 (State.tallyAsk s d n) := by
  unfold State.tallyAsk
  try dsimp only
  repeat'
    first
    | with_reducible assumption | intro _ | with_reducible apply Keeps.ite | with_reducible apply Keeps.ite_fst
    | with_reducible apply State.modCore_keeps | with_reducible refine Keeps.foldl ?_ _ _ ?_
    | with_reducible refine Keeps.foldl_fst ?_ _ _ ?_
    | with_reducible refine Keeps.of_fst (by with_reducible assumption) ?_ | split

/-- State.tallyLine keeps all. -/
theorem State.tallyLine_keeps {s0 s : State} (g : CoreId) (d : Die) (n : TallyNo) (data : List Byte) (bad : List Nat) (hk : Keeps s0 s) :
    Keeps s0 (State.tallyLine s g d n data bad) := by
  unfold State.tallyLine
  try dsimp only
  repeat'
    first
    | with_reducible assumption | intro _ | with_reducible apply Keeps.ite | with_reducible apply Keeps.ite_fst
    | with_reducible apply State.parCounted_keeps | with_reducible apply State.setTally_keeps
    | with_reducible apply State.tallyAsk_keeps | with_reducible refine Keeps.foldl ?_ _ _ ?_

/-- State.tallyBegin keeps all. -/
theorem State.tallyBegin_keeps {s0 s : State} (d : Die) (n : TallyNo) (hk : Keeps s0 s) :
    Keeps s0 (State.tallyBegin s d n) := by
  unfold State.tallyBegin
  try dsimp only
  repeat'
    first
    | with_reducible assumption | intro _ | with_reducible apply Keeps.ite | with_reducible apply Keeps.ite_fst
    | with_reducible apply State.modReg_keeps | with_reducible apply State.logDie_keeps
    | with_reducible apply State.setTally_keeps | with_reducible apply State.tallyAsk_keeps
    | with_reducible refine Keeps.foldl ?_ _ _ ?_ | with_reducible refine Keeps.foldl_fst ?_ _ _ ?_
    | with_reducible refine Keeps.of_fst (by with_reducible assumption) ?_ | split

/-- State.tallyGo keeps all. -/
theorem State.tallyGo_keeps {s0 s : State} (d : Die) (n : TallyNo) (hk : Keeps s0 s) : Keeps s0 (State.tallyGo s d n) := by
  unfold State.tallyGo
  try dsimp only
  repeat'
    first
    | with_reducible assumption | intro _ | with_reducible apply Keeps.ite | with_reducible apply Keeps.ite_fst
    | with_reducible apply State.setTally_keeps | with_reducible apply State.tallyBegin_keeps

/-- State.tallyDone keeps all. -/
theorem State.tallyDone_keeps {s0 s : State} (d : Die) (n : TallyNo) (hk : Keeps s0 s) :
    Keeps s0 (State.tallyDone s d n) := by
  unfold State.tallyDone
  try dsimp only
  repeat'
    first
    | with_reducible assumption | intro _ | with_reducible apply Keeps.ite | with_reducible apply Keeps.ite_fst
    | with_reducible apply State.setReg_keeps | with_reducible apply State.countWrap_keeps
    | with_reducible apply State.modReg_keeps | with_reducible apply State.setTally_keeps
    | with_reducible apply State.tallyCompare_keeps | with_reducible apply State.logDie_keeps

/-- State.tallyPickStart keeps all. -/
theorem State.tallyPickStart_keeps {s0 s : State} (taken : Bool) (hk : Keeps s0 s) :
    Keeps s0 (State.tallyPickStart s taken) := by
  unfold State.tallyPickStart
  try dsimp only
  repeat'
    first
    | with_reducible assumption | intro _ | with_reducible apply Keeps.ite | with_reducible apply Keeps.ite_fst
    | with_reducible apply State.tallyBegin_keeps | with_reducible refine Keeps.foldl ?_ _ _ ?_

/-- State.tallyLeave keeps all. -/
theorem State.tallyLeave_keeps {s0 s : State} (d : Die) (n : TallyNo) (hk : Keeps s0 s) :
    Keeps s0 (State.tallyLeave s d n) := by
  unfold State.tallyLeave
  try dsimp only
  repeat'
    first
    | with_reducible assumption | intro _ | with_reducible apply Keeps.ite | with_reducible apply Keeps.ite_fst
    | with_reducible apply State.modCore_keeps

/-- State.tallyWindow keeps all. -/
theorem State.tallyWindow_keeps {s0 s : State} (hk : Keeps s0 s) : Keeps s0 (State.tallyWindow s) := by
  unfold State.tallyWindow
  try dsimp only
  repeat'
    first
    | with_reducible assumption | intro _ | with_reducible apply Keeps.ite | with_reducible apply Keeps.ite_fst
    | with_reducible apply State.tallyLeave_keeps | with_reducible apply State.modReg_keeps
    | with_reducible apply State.logDie_keeps | with_reducible apply State.setTally_keeps
    | with_reducible refine Keeps.foldl ?_ _ _ ?_

/-- State.setTallyStream keeps all. -/
theorem State.setTallyStream_keeps {s0 s : State} (td : Td) (n : TallyNo) (x : TallyStream) (hk : Keeps s0 s) :
    Keeps s0 (State.setTallyStream s td n x) := by
  unfold State.setTallyStream
  try dsimp only
  repeat'
    first
    | with_reducible assumption | intro _ | with_reducible apply Keeps.ite | with_reducible apply Keeps.ite_fst
    | with_reducible apply State.setTd_keeps

/-- State.tallyCheck keeps all. -/
theorem State.tallyCheck_keeps {s0 s : State} (td : Td) (n : TallyNo) (hk : Keeps s0 s) :
    Keeps s0 (State.tallyCheck s td n) := by
  unfold State.tallyCheck
  try dsimp only
  repeat'
    first
    | with_reducible assumption | intro _ | with_reducible apply Keeps.ite | with_reducible apply Keeps.ite_fst
    | with_reducible apply State.modReg_keeps | with_reducible apply State.tallyCompare_keeps
    | with_reducible apply State.logTd_keeps

/-- State.tallyRestart keeps all. -/
theorem State.tallyRestart_keeps {s0 s : State} (td : Td) (n : TallyNo) (hk : Keeps s0 s) :
    Keeps s0 (State.tallyRestart s td n) := by
  unfold State.tallyRestart
  try dsimp only
  repeat'
    first
    | with_reducible assumption | intro _ | with_reducible apply Keeps.ite | with_reducible apply Keeps.ite_fst
    | with_reducible apply State.setTallyStream_keeps | with_reducible apply State.setReg_keeps
    | with_reducible apply State.tallyCheck_keeps

/-- State.tallyInclude keeps all. -/
theorem State.tallyInclude_keeps {s0 s : State} (td : Td) (sp : SpoolId) (mode : Nat) (l : List Byte) (hk : Keeps s0 s) :
    Keeps s0 (State.tallyInclude s td sp mode l) := by
  unfold State.tallyInclude
  try dsimp only
  repeat'
    first
    | with_reducible assumption | intro _ | with_reducible apply Keeps.ite | with_reducible apply Keeps.ite_fst
    | with_reducible apply State.setTallyStream_keeps | with_reducible apply State.setReg_keeps
    | with_reducible apply State.countWrap_keeps | with_reducible apply State.tallyCheck_keeps
    | with_reducible refine Keeps.foldl ?_ _ _ ?_

/-- State.tallyArm keeps all. -/
theorem State.tallyArm_keeps {s0 s : State} (td : Td) (n : TallyNo) (hk : Keeps s0 s) :
    Keeps s0 (State.tallyArm s td n) := by
  unfold State.tallyArm
  try dsimp only
  repeat'
    first
    | with_reducible assumption | intro _ | with_reducible apply Keeps.ite | with_reducible apply Keeps.ite_fst
    | with_reducible apply State.modReg_keeps | with_reducible apply State.tallyCheck_keeps

/-- State.tallyReset keeps all. -/
theorem State.tallyReset_keeps {s0 s : State} (td : Td) (n : TallyNo) (hk : Keeps s0 s) :
    Keeps s0 (State.tallyReset s td n) := by
  unfold State.tallyReset
  try dsimp only
  repeat'
    first
    | with_reducible assumption | intro _ | with_reducible apply Keeps.ite | with_reducible apply Keeps.ite_fst
    | with_reducible apply State.tallyRestart_keeps

/-- State.tallyCfg keeps all. -/
theorem State.tallyCfg_keeps {s0 s : State} (td : Td) (n : TallyNo) (val : Word) (hk : Keeps s0 s) :
    Keeps s0 (State.tallyCfg s td n val) := by
  unfold State.tallyCfg
  try dsimp only
  repeat'
    first
    | with_reducible assumption | intro _ | with_reducible apply Keeps.ite | with_reducible apply Keeps.ite_fst
    | with_reducible apply State.setReg_keeps | with_reducible apply State.tallyRestart_keeps

/-! ## Provenance -/

/-- State.setDigest keeps all. -/
theorem State.setDigest_keeps {s0 s : State} (a : Nat) (d : BitVec 256) (hk : Keeps s0 s) :
    Keeps s0 (State.setDigest s a d) := by
  unfold State.setDigest
  try dsimp only
  repeat'
    first
    | with_reducible assumption | intro _ | with_reducible apply Keeps.ite | with_reducible apply Keeps.ite_fst
    | with_reducible apply State.setReg_keeps | with_reducible refine Keeps.foldl ?_ _ _ ?_

/-- State.digestStart keeps all. -/
theorem State.digestStart_keeps {s0 s : State} (hk : Keeps s0 s) : Keeps s0 (State.digestStart s) := by
  unfold State.digestStart
  try dsimp only
  repeat'
    first
    | with_reducible assumption | intro _ | with_reducible apply Keeps.ite | with_reducible apply Keeps.ite_fst
    | with_reducible apply State.setReg_keeps

/-- State.digestDone keeps all. -/
theorem State.digestDone_keeps {s0 s : State} (hk : Keeps s0 s) : Keeps s0 (State.digestDone s) := by
  unfold State.digestDone
  try dsimp only
  repeat'
    first
    | with_reducible assumption | intro _ | with_reducible apply Keeps.ite | with_reducible apply Keeps.ite_fst
    | with_reducible apply State.setDigest_keeps | with_reducible apply State.setReg_keeps

/-- State.boltDigestDone keeps all. -/
theorem State.boltDigestDone_keeps {s0 s : State} (td : Td) (sp : SpoolId) (seq : Dword) (hk : Keeps s0 s) :
    Keeps s0 (State.boltDigestDone s td sp seq) := by
  unfold State.boltDigestDone
  try dsimp only
  repeat'
    first
    | with_reducible assumption | intro _ | with_reducible apply Keeps.ite | with_reducible apply Keeps.ite_fst
    | with_reducible apply State.setSpool_keeps | with_reducible refine Keeps.foldl ?_ _ _ ?_
    | with_reducible refine Keeps.foldl_fst ?_ _ _ ?_
    | with_reducible refine Keeps.of_fst (by with_reducible assumption) ?_ | split
    | with_reducible refine Keeps.record ?_ rfl rfl rfl rfl rfl

/-- State.histAdd keeps all. -/
theorem State.histAdd_keeps {s0 s : State} (outcome : Nat) (x : BitVec 256) (hk : Keeps s0 s) :
    Keeps s0 (State.histAdd s outcome x) := by
  unfold State.histAdd
  try dsimp only
  repeat'
    first
    | with_reducible assumption | intro _ | with_reducible apply Keeps.ite | with_reducible apply Keeps.ite_fst
    | with_reducible refine Keeps.foldl ?_ _ _ ?_ | with_reducible refine Keeps.foldl_fst ?_ _ _ ?_
    | with_reducible refine Keeps.of_fst (by with_reducible assumption) ?_ | split
    | with_reducible refine Keeps.record ?_ rfl rfl rfl rfl rfl

/-- State.historyAppend keeps all. -/
theorem State.historyAppend_keeps {s0 s : State} (hk : Keeps s0 s) : Keeps s0 (State.historyAppend s) := by
  unfold State.historyAppend
  try dsimp only
  repeat'
    first
    | with_reducible assumption | intro _ | with_reducible apply Keeps.ite | with_reducible apply Keeps.ite_fst
    | with_reducible apply State.setDigest_keeps | with_reducible apply State.setReg_keeps
    | with_reducible refine Keeps.foldl ?_ _ _ ?_ | with_reducible refine Keeps.foldl_fst ?_ _ _ ?_
    | with_reducible refine Keeps.of_fst (by with_reducible assumption) ?_ | split
    | with_reducible refine Keeps.record ?_ rfl rfl rfl rfl rfl

/-! ## Packet -/

/-- State.sendBytes keeps all. -/
theorem State.sendBytes_keeps {s0 s : State} (p : PortId) (vc : Fin 2) (l : List Byte) (hk : Keeps s0 s) :
    Keeps s0 (State.sendBytes s p vc l) := by
  unfold State.sendBytes
  try dsimp only
  repeat'
    first
    | with_reducible assumption | intro _ | with_reducible apply Keeps.ite | with_reducible apply Keeps.ite_fst
    | with_reducible apply State.setPort_keeps

/-- State.sdCause keeps all. -/
theorem State.sdCause_keeps {s0 s : State} (n : Sd) (code : Nat) (hk : Keeps s0 s) : Keeps s0 (State.sdCause s n code) := by
  unfold State.sdCause
  try dsimp only
  repeat'
    first
    | with_reducible assumption | intro _ | with_reducible apply Keeps.ite | with_reducible apply Keeps.ite_fst
    | with_reducible apply State.setSd_keeps | with_reducible apply State.cause_keeps

/-- State.noRoute keeps all. -/
theorem State.noRoute_keeps {s0 s : State} (n : Sd) (pkg : Nat) (hk : Keeps s0 s) : Keeps s0 (State.noRoute s n pkg) := by
  unfold State.noRoute
  try dsimp only
  repeat'
    first
    | with_reducible assumption | intro _ | with_reducible apply Keeps.ite | with_reducible apply Keeps.ite_fst
    | with_reducible apply State.count_keeps | with_reducible apply State.sdCause_keeps
    | with_reducible apply State.setSd_keeps | with_reducible apply State.logSd_keeps

/-- State.sendPacket keeps all. -/
theorem State.sendPacket_keeps {s0 s : State} (n : Sd) (vc : Fin 2) (h : Header) (data : List Byte) (hk : Keeps s0 s) :
    Keeps s0 (State.sendPacket s n vc h data) := by
  unfold State.sendPacket
  try dsimp only
  repeat'
    first
    | with_reducible assumption | intro _ | with_reducible apply Keeps.ite | with_reducible apply Keeps.ite_fst
    | with_reducible apply State.noRoute_keeps | with_reducible apply State.sendBytes_keeps
    | with_reducible refine Keeps.foldl ?_ _ _ ?_ | with_reducible refine Keeps.foldl_fst ?_ _ _ ?_
    | with_reducible refine Keeps.of_fst (by with_reducible assumption) ?_ | split

/-- State.request keeps all. -/
theorem State.request_keeps {s0 s : State} (g : CoreId) (h : Header) (data : List Byte) (a : AckTo) (hk : Keeps s0 s) :
    Keeps s0 (State.request s g h data a) := by
  unfold State.request
  try dsimp only
  repeat'
    first
    | with_reducible assumption | intro _ | with_reducible apply Keeps.ite | with_reducible apply Keeps.ite_fst
    | with_reducible apply State.cross_keeps | with_reducible refine Keeps.foldl ?_ _ _ ?_
    | with_reducible refine Keeps.foldl_fst ?_ _ _ ?_
    | with_reducible refine Keeps.of_fst (by with_reducible assumption) ?_ | split

/-- State.launch keeps all. -/
theorem State.launch_keeps {s0 s : State} (n : Sd) (h : Header) (data : List Byte) (a : AckTo) (hk : Keeps s0 s) :
    Keeps s0 (State.launch s n h data a) := by
  unfold State.launch
  try dsimp only
  repeat'
    first
    | with_reducible assumption | intro _ | with_reducible apply Keeps.ite | with_reducible apply Keeps.ite_fst
    | with_reducible apply State.noRoute_keeps | with_reducible apply State.sendBytes_keeps
    | with_reducible apply State.setSd_keeps | with_reducible refine Keeps.foldl ?_ _ _ ?_
    | with_reducible refine Keeps.foldl_fst ?_ _ _ ?_
    | with_reducible refine Keeps.of_fst (by with_reducible assumption) ?_ | split

/-! ## Shuttle -/

/-- State.fellUse keeps all. -/
theorem State.fellUse_keeps {s0 s : State} (g : CoreId) (hk : Keeps s0 s) : Keeps s0 (State.fellUse s g) := by
  unfold State.fellUse
  try dsimp only
  repeat'
    first
    | with_reducible assumption | intro _ | with_reducible apply Keeps.ite | with_reducible apply Keeps.ite_fst
    | with_reducible apply State.setCreg_keeps

/-- State.stageLine keeps all. -/
theorem State.stageLine_keeps {s0 s : State} (g : CoreId) (x : FellLine) (hk : Keeps s0 s) :
    Keeps s0 (State.stageLine s g x) := by
  unfold State.stageLine
  try dsimp only
  repeat'
    first
    | with_reducible assumption | intro _ | with_reducible apply Keeps.ite | with_reducible apply Keeps.ite_fst
    | with_reducible apply State.cause_keeps | with_reducible apply State.modCore_keeps
    | with_reducible apply State.fellUse_keeps | with_reducible refine Keeps.foldl ?_ _ _ ?_
    | with_reducible refine Keeps.foldl_fst ?_ _ _ ?_
    | with_reducible refine Keeps.of_fst (by with_reducible assumption) ?_ | split

/-- State.captureDiscard keeps all. -/
theorem State.captureDiscard_keeps {s0 s : State} (g : CoreId) (hk : Keeps s0 s) : Keeps s0 (State.captureDiscard s g) := by
  unfold State.captureDiscard
  try dsimp only
  repeat'
    first
    | with_reducible assumption | intro _ | with_reducible apply Keeps.ite | with_reducible apply Keeps.ite_fst
    | with_reducible apply State.setCreg_keeps

/-- State.modTr keeps all. -/
theorem State.modTr_keeps {s0 s : State} (g : CoreId) (e : Nat) (f : Transfer → Transfer) (hk : Keeps s0 s) :
    Keeps s0 (State.modTr s g e f) := by
  unfold State.modTr
  try dsimp only
  repeat'
    first
    | with_reducible assumption | intro _ | with_reducible apply Keeps.ite | with_reducible apply Keeps.ite_fst
    | with_reducible apply State.modCore_keeps

/-- State.runLeg keeps all. -/
theorem State.runLeg_keeps {s0 s : State} (g : CoreId) (e : Nat) (t : Transfer) (part : Nat) (hk : Keeps s0 s) :
    Keeps s0 (State.runLeg s g e t part) := by
  unfold State.runLeg
  try dsimp only
  repeat'
    first
    | with_reducible assumption | intro _ | with_reducible apply Keeps.ite | with_reducible apply Keeps.ite_fst
    | with_reducible apply State.request_keeps | with_reducible apply State.modTr_keeps
    | with_reducible apply State.addRun_keeps | with_reducible apply State.count_keeps
    | with_reducible refine Keeps.foldl ?_ _ _ ?_

/-- State.finish keeps all. -/
theorem State.finish_keeps {s0 s : State} (g : CoreId) (e : Nat) (t : Transfer) (hk : Keeps s0 s) :
    Keeps s0 (State.finish s g e t) := by
  unfold State.finish
  try dsimp only
  repeat'
    first
    | with_reducible assumption | intro _ | with_reducible apply Keeps.ite | with_reducible apply Keeps.ite_fst
    | with_reducible apply State.modTr_keeps | with_reducible apply State.retireTransfer_keeps
    | with_reducible apply State.request_keeps | with_reducible apply State.modCore_keeps
    | with_reducible apply State.sigCounted_keeps | with_reducible refine Keeps.foldl ?_ _ _ ?_
    | with_reducible refine Keeps.foldl_fst ?_ _ _ ?_
    | with_reducible refine Keeps.of_fst (by with_reducible assumption) ?_ | split

/-- State.advance keeps all. -/
theorem State.advance_keeps {s0 s : State} (g : CoreId) (e : Nat) (hk : Keeps s0 s) : Keeps s0 (State.advance s g e) := by
  unfold State.advance
  try dsimp only
  repeat'
    first
    | with_reducible assumption | intro _ | with_reducible apply Keeps.ite | with_reducible apply Keeps.ite_fst
    | with_reducible apply State.modTr_keeps | with_reducible apply State.runLeg_keeps
    | with_reducible apply State.finish_keeps | with_reducible refine Keeps.foldl ?_ _ _ ?_
    | with_reducible refine Keeps.foldl_fst ?_ _ _ ?_
    | with_reducible refine Keeps.of_fst (by with_reducible assumption) ?_ | split

/-- State.shTake keeps all. -/
theorem State.shTake_keeps {s0 s : State} (g : CoreId) (opcode : Nat) (hk : Keeps s0 s) :
    Keeps s0 (State.shTake s g opcode) := by
  unfold State.shTake
  cases s.nextOp g 6 opcode
  all_goals try dsimp only
  repeat'
    first
    | with_reducible assumption | intro _ | with_reducible apply Keeps.ite | with_reducible apply Keeps.ite_fst
    | with_reducible apply State.takeEntry_keeps | with_reducible apply State.setCmd_keeps
    | with_reducible refine Keeps.foldl ?_ _ _ ?_ | with_reducible refine Keeps.foldl_fst ?_ _ _ ?_
    | with_reducible refine Keeps.of_fst (by with_reducible assumption) ?_ | split

/-- State.shCancel keeps all. -/
theorem State.shCancel_keeps {s0 s : State} (g : CoreId) (hk : Keeps s0 s) : Keeps s0 (State.shCancel s g) := by
  unfold State.shCancel
  cases s.nextOp g 6 0xC2
  all_goals try dsimp only
  repeat'
    first
    | with_reducible assumption | intro _ | with_reducible apply Keeps.ite | with_reducible apply Keeps.ite_fst
    | with_reducible apply State.consume_keeps | with_reducible apply State.retireTransfer_keeps
    | with_reducible apply State.modCore_keeps | with_reducible apply State.setCmd_keeps
    | with_reducible apply State.ccount_keeps | with_reducible refine Keeps.foldl ?_ _ _ ?_

/-- State.gateReady keeps all. -/
theorem State.gateReady_keeps {s0 s : State} (g : CoreId) (e : Nat) (hk : Keeps s0 s) :
    Keeps s0 (State.gateReady s g e) := by
  unfold State.gateReady
  try dsimp only
  repeat'
    first
    | with_reducible assumption | intro _ | with_reducible apply Keeps.ite | with_reducible apply Keeps.ite_fst
    | with_reducible apply State.consume_keeps | with_reducible apply State.modTr_keeps
    | with_reducible refine Keeps.foldl ?_ _ _ ?_ | with_reducible refine Keeps.foldl_fst ?_ _ _ ?_
    | with_reducible refine Keeps.of_fst (by with_reducible assumption) ?_ | split

/-- State.transferStart keeps all. -/
theorem State.transferStart_keeps {s0 s : State} (g : CoreId) (e : Nat) (hk : Keeps s0 s) :
    Keeps s0 (State.transferStart s g e) := by
  unfold State.transferStart
  try dsimp only
  repeat'
    first
    | with_reducible assumption | intro _ | with_reducible apply Keeps.ite | with_reducible apply Keeps.ite_fst
    | with_reducible apply State.modTr_keeps | with_reducible apply State.modCore_keeps
    | with_reducible apply State.advance_keeps | with_reducible refine Keeps.foldl ?_ _ _ ?_
    | with_reducible refine Keeps.foldl_fst ?_ _ _ ?_
    | with_reducible refine Keeps.of_fst (by with_reducible assumption) ?_ | split

/-- State.abandon keeps all. -/
theorem State.abandon_keeps {s0 s : State} (g : CoreId) (e cause : Nat) (hk : Keeps s0 s) :
    Keeps s0 (State.abandon s g e cause) := by
  unfold State.abandon
  try dsimp only
  repeat'
    first
    | with_reducible assumption | intro _ | with_reducible apply Keeps.ite | with_reducible apply Keeps.ite_fst
    | with_reducible apply State.modCore_keeps | with_reducible apply State.freeTrk_keeps
    | with_reducible apply State.ccount_keeps | with_reducible apply State.setCreg_keeps
    | with_reducible apply State.logCore_keeps | with_reducible refine Keeps.foldl ?_ _ _ ?_
    | with_reducible refine Keeps.foldl_fst ?_ _ _ ?_
    | with_reducible refine Keeps.of_fst (by with_reducible assumption) ?_ | split

/-- State.recause keeps all. -/
theorem State.recause_keeps {s0 s : State} (a : AckTo) (cause : Nat) (hk : Keeps s0 s) :
    Keeps s0 (State.recause s a cause) := by
  unfold State.recause
  try dsimp only
  repeat'
    first
    | with_reducible assumption | intro _ | with_reducible apply Keeps.ite | with_reducible apply Keeps.ite_fst
    | with_reducible apply State.setCreg_keeps | with_reducible apply State.setLog_keeps
    | with_reducible refine Keeps.foldl ?_ _ _ ?_ | with_reducible refine Keeps.foldl_fst ?_ _ _ ?_
    | with_reducible refine Keeps.of_fst (by with_reducible assumption) ?_ | split

/-- State.linkFailed keeps all. -/
theorem State.linkFailed_keeps {s0 s : State} (a : AckTo) (cause : Nat) (hk : Keeps s0 s) :
    Keeps s0 (State.linkFailed s a cause) := by
  unfold State.linkFailed
  try dsimp only
  repeat'
    first
    | with_reducible assumption | intro _ | with_reducible apply Keeps.ite | with_reducible apply Keeps.ite_fst
    | with_reducible apply State.abandon_keeps | with_reducible apply State.recause_keeps

/-- State.transferTimeout keeps all. -/
theorem State.transferTimeout_keeps {s0 s : State} (g : CoreId) (e : Nat) (hk : Keeps s0 s) :
    Keeps s0 (State.transferTimeout s g e) := by
  unfold State.transferTimeout
  try dsimp only
  repeat'
    first
    | with_reducible assumption | intro _ | with_reducible apply Keeps.ite | with_reducible apply Keeps.ite_fst
    | with_reducible apply State.abandon_keeps | with_reducible refine Keeps.foldl ?_ _ _ ?_
    | with_reducible refine Keeps.foldl_fst ?_ _ _ ?_
    | with_reducible refine Keeps.of_fst (by with_reducible assumption) ?_ | split

/-- State.useSlot keeps all. -/
theorem State.useSlot_keeps {s0 s : State} (g : CoreId) (cls : SlotClass) (hk : Keeps s0 s) :
    Keeps s0 (State.useSlot s g cls) := by
  unfold State.useSlot
  try dsimp only
  repeat'
    first
    | with_reducible assumption | intro _ | with_reducible apply Keeps.ite | with_reducible apply Keeps.ite_fst
    | with_reducible apply State.modCore_keeps

/-- State.remoteLeave keeps all. -/
theorem State.remoteLeave_keeps {s0 s : State} (g : CoreId) (b : RemoteBody) (hk : Keeps s0 s) :
    Keeps s0 (State.remoteLeave s g b) := by
  unfold State.remoteLeave
  try dsimp only
  repeat'
    first
    | with_reducible assumption | intro _ | with_reducible apply Keeps.ite | with_reducible apply Keeps.ite_fst
    | with_reducible apply State.request_keeps | with_reducible apply State.modTr_keeps
    | with_reducible apply State.cross_keeps | with_reducible refine Keeps.foldl ?_ _ _ ?_
    | with_reducible refine Keeps.foldl_fst ?_ _ _ ?_
    | with_reducible refine Keeps.of_fst (by with_reducible assumption) ?_ | split

/-- State.meshBeatSend keeps all. -/
theorem State.meshBeatSend_keeps {s0 s : State} (g : CoreId) (cls : SlotClass) (hk : Keeps s0 s) :
    Keeps s0 (State.meshBeatSend s g cls) := by
  unfold State.meshBeatSend
  try dsimp only
  repeat'
    first
    | with_reducible assumption | intro _ | with_reducible apply Keeps.ite | with_reducible apply Keeps.ite_fst
    | with_reducible apply State.modCore_keeps | with_reducible apply State.useSlot_keeps
    | with_reducible apply State.remoteLeave_keeps | with_reducible refine Keeps.foldl ?_ _ _ ?_
    | with_reducible refine Keeps.foldl_fst ?_ _ _ ?_
    | with_reducible refine Keeps.of_fst (by with_reducible assumption) ?_ | split

/-- State.landBeat keeps all. -/
theorem State.landBeat_keeps {s0 s : State} (g : CoreId) (b : Beat) (hk : Keeps s0 s) : Keeps s0 (State.landBeat s g b) := by
  unfold State.landBeat
  try dsimp only
  repeat'
    first
    | with_reducible assumption | intro _ | with_reducible apply Keeps.ite | with_reducible apply Keeps.ite_fst
    | with_reducible apply State.addRun_keeps | with_reducible apply State.modCore_keeps
    | with_reducible apply State.captureDiscard_keeps | with_reducible refine Keeps.foldl ?_ _ _ ?_
    | with_reducible refine Keeps.foldl_fst ?_ _ _ ?_
    | with_reducible refine Keeps.of_fst (by with_reducible assumption) ?_ | split

/-- State.dropDead keeps all. -/
theorem State.dropDead_keeps {s0 s : State} (g : CoreId) (cls : SlotClass) (hk : Keeps s0 s) :
    Keeps s0 (State.dropDead s g cls) := by
  unfold State.dropDead
  try dsimp only
  repeat'
    first
    | with_reducible assumption | intro _ | with_reducible apply Keeps.ite | with_reducible apply Keeps.ite_fst
    | with_reducible apply State.modCore_keeps | with_reducible apply State.ccount_keeps

/-- State.meshBeatLand keeps all. -/
theorem State.meshBeatLand_keeps {s0 s : State} (g : CoreId) (cls : SlotClass) (hk : Keeps s0 s) :
    Keeps s0 (State.meshBeatLand s g cls) := by
  unfold State.meshBeatLand
  try dsimp only
  repeat'
    first
    | with_reducible assumption | intro _ | with_reducible apply Keeps.ite | with_reducible apply Keeps.ite_fst
    | with_reducible apply State.dropDead_keeps | with_reducible apply State.useSlot_keeps
    | with_reducible apply State.modCore_keeps | with_reducible apply State.landBeat_keeps
    | with_reducible refine Keeps.foldl ?_ _ _ ?_ | with_reducible refine Keeps.foldl_fst ?_ _ _ ?_
    | with_reducible refine Keeps.of_fst (by with_reducible assumption) ?_ | split

/-- State.acked keeps all. -/
theorem State.acked_keeps {s0 s : State} (a : AckTo) (hk : Keeps s0 s) : Keeps s0 (State.acked s a) := by
  unfold State.acked
  try dsimp only
  repeat'
    first
    | with_reducible assumption | intro _ | with_reducible apply Keeps.ite | with_reducible apply Keeps.ite_fst
    | with_reducible apply State.modTr_keeps | with_reducible apply State.advance_keeps

/-- State.sendAck keeps all. -/
theorem State.sendAck_keeps {s0 s : State} (g : CoreId) (a : AckTo) (hk : Keeps s0 s) : Keeps s0 (State.sendAck s g a) := by
  unfold State.sendAck
  try dsimp only
  repeat'
    first
    | with_reducible assumption | intro _ | with_reducible apply Keeps.ite | with_reducible apply Keeps.ite_fst
    | with_reducible apply State.modCore_keeps

/-- State.stagedArrive keeps all. -/
theorem State.stagedArrive_keeps {s0 s : State} (g : CoreId) (hk : Keeps s0 s) : Keeps s0 (State.stagedArrive s g) := by
  unfold State.stagedArrive
  try dsimp only
  repeat'
    first
    | with_reducible assumption | intro _ | with_reducible apply Keeps.ite | with_reducible apply Keeps.ite_fst
    | with_reducible apply State.modCore_keeps | with_reducible apply State.captureDiscard_keeps
    | with_reducible apply State.stageLine_keeps | with_reducible apply State.sendAck_keeps
    | with_reducible refine Keeps.foldl ?_ _ _ ?_ | with_reducible refine Keeps.foldl_fst ?_ _ _ ?_
    | with_reducible refine Keeps.of_fst (by with_reducible assumption) ?_ | split

/-- State.writeAckArrive keeps all. -/
theorem State.writeAckArrive_keeps {s0 s : State} (g : CoreId) (hk : Keeps s0 s) : Keeps s0 (State.writeAckArrive s g) := by
  unfold State.writeAckArrive
  try dsimp only
  repeat'
    first
    | with_reducible assumption | intro _ | with_reducible apply Keeps.ite | with_reducible apply Keeps.ite_fst
    | with_reducible apply State.modCore_keeps | with_reducible apply State.acked_keeps
    | with_reducible apply State.ccount_keeps | with_reducible refine Keeps.foldl ?_ _ _ ?_
    | with_reducible refine Keeps.foldl_fst ?_ _ _ ?_
    | with_reducible refine Keeps.of_fst (by with_reducible assumption) ?_ | split

/-! ## Spool -/

/-- State.setSreg keeps all. -/
theorem State.setSreg_keeps {s0 s : State} (td : Td) (sp : SpoolId) (o v : Nat) (hk : Keeps s0 s) :
    Keeps s0 (State.setSreg s td sp o v) := by
  unfold State.setSreg
  try dsimp only
  repeat'
    first
    | with_reducible assumption | intro _ | with_reducible apply Keeps.ite | with_reducible apply Keeps.ite_fst
    | with_reducible apply State.setReg_keeps

/-- State.setSpoolState keeps all. -/
theorem State.setSpoolState_keeps {s0 s : State} (td : Td) (sp : SpoolId) (n : Nat) (hk : Keeps s0 s) :
    Keeps s0 (State.setSpoolState s td sp n) := by
  unfold State.setSpoolState
  try dsimp only
  repeat'
    first
    | with_reducible assumption | intro _ | with_reducible apply Keeps.ite | with_reducible apply Keeps.ite_fst
    | with_reducible apply State.modReg_keeps

/-- State.modSpool keeps all. -/
theorem State.modSpool_keeps {s0 s : State} (td : Td) (sp : SpoolId) (f : Spool → Spool) (hk : Keeps s0 s) :
    Keeps s0 (State.modSpool s td sp f) := by
  unfold State.modSpool
  try dsimp only
  repeat'
    first
    | with_reducible assumption | intro _ | with_reducible apply Keeps.ite | with_reducible apply Keeps.ite_fst
    | with_reducible apply State.setSpool_keeps

/-- State.dberr keeps all. -/
theorem State.dberr_keeps {s0 s : State} (td : Td) (sp : SpoolId) (hk : Keeps s0 s) : Keeps s0 (State.dberr s td sp) := by
  unfold State.dberr
  try dsimp only
  repeat'
    first
    | with_reducible assumption | intro _ | with_reducible apply Keeps.ite | with_reducible apply Keeps.ite_fst
    | with_reducible apply State.count_keeps

/-- State.tailDoorbell keeps all. -/
theorem State.tailDoorbell_keeps {s0 s : State} (td : Td) (fn : Fn) (sp : SpoolId) (val : Word) (hk : Keeps s0 s) :
    Keeps s0 (State.tailDoorbell s td fn sp val) := by
  unfold State.tailDoorbell
  try dsimp only
  repeat'
    first
    | with_reducible assumption | intro _ | with_reducible apply Keeps.ite | with_reducible apply Keeps.ite_fst
    | with_reducible apply State.setSreg_keeps | with_reducible apply State.modSpool_keeps
    | with_reducible apply State.dberr_keeps

/-- State.theadDoorbell keeps all. -/
theorem State.theadDoorbell_keeps {s0 s : State} (td : Td) (fn : Fn) (sp : SpoolId) (val : Word) (hk : Keeps s0 s) :
    Keeps s0 (State.theadDoorbell s td fn sp val) := by
  unfold State.theadDoorbell
  try dsimp only
  repeat'
    first
    | with_reducible assumption | intro _ | with_reducible apply Keeps.ite | with_reducible apply Keeps.ite_fst
    | with_reducible apply State.setSpool_keeps | with_reducible apply State.modReg_keeps
    | with_reducible apply State.dberr_keeps

/-- State.spoolCfg keeps all. -/
theorem State.spoolCfg_keeps {s0 s : State} (td : Td) (sp : SpoolId) (val : Word) (hk : Keeps s0 s) :
    Keeps s0 (State.spoolCfg s td sp val) := by
  unfold State.spoolCfg
  try dsimp only
  repeat'
    first
    | with_reducible assumption | intro _ | with_reducible apply Keeps.ite | with_reducible apply Keeps.ite_fst
    | with_reducible apply State.setSreg_keeps

/-- State.spoolHead keeps all. -/
theorem State.spoolHead_keeps {s0 s : State} (td : Td) (sp : SpoolId) (val : Word) (hk : Keeps s0 s) :
    Keeps s0 (State.spoolHead s td sp val) := by
  unfold State.spoolHead
  try dsimp only
  repeat'
    first
    | with_reducible assumption | intro _ | with_reducible apply Keeps.ite | with_reducible apply Keeps.ite_fst
    | with_reducible apply State.setSreg_keeps | with_reducible apply State.modSpool_keeps

/-- State.spoolEnable keeps all. -/
theorem State.spoolEnable_keeps {s0 s : State} (td : Td) (sp : SpoolId) (hk : Keeps s0 s) :
    Keeps s0 (State.spoolEnable s td sp) := by
  unfold State.spoolEnable
  try dsimp only
  repeat'
    first
    | with_reducible assumption | intro _ | with_reducible apply Keeps.ite | with_reducible apply Keeps.ite_fst
    | with_reducible apply State.setSreg_keeps | with_reducible apply State.setSpoolState_keeps
    | with_reducible apply State.modSpool_keeps | with_reducible apply State.modReg_keeps
    | with_reducible refine Keeps.foldl ?_ _ _ ?_ | with_reducible refine Keeps.foldl_fst ?_ _ _ ?_
    | with_reducible refine Keeps.of_fst (by with_reducible assumption) ?_ | split

/-- State.modBolt keeps all. -/
theorem State.modBolt_keeps {s0 s : State} (td : Td) (sp : SpoolId) (num : Word) (f : Bolt → Bolt) (hk : Keeps s0 s) :
    Keeps s0 (State.modBolt s td sp num f) := by
  unfold State.modBolt
  try dsimp only
  repeat'
    first
    | with_reducible assumption | intro _ | with_reducible apply Keeps.ite | with_reducible apply Keeps.ite_fst
    | with_reducible apply State.modSpool_keeps

/-- State.finishBolt keeps all. -/
theorem State.finishBolt_keeps {s0 s : State} (td : Td) (sp : SpoolId) (b : Bolt) (st : Nat) (hk : Keeps s0 s) :
    Keeps s0 (State.finishBolt s td sp b st) := by
  unfold State.finishBolt
  try dsimp only
  repeat'
    first
    | with_reducible assumption | intro _ | with_reducible apply Keeps.ite | with_reducible apply Keeps.ite_fst
    | with_reducible apply State.modBolt_keeps | with_reducible apply State.modSpool_keeps

/-- State.haltSpool keeps all. -/
theorem State.haltSpool_keeps {s0 s : State} (td : Td) (sp : SpoolId) (cause : Nat) (hk : Keeps s0 s) :
    Keeps s0 (State.haltSpool s td sp cause) := by
  unfold State.haltSpool
  try dsimp only
  repeat'
    first
    | with_reducible assumption | intro _ | with_reducible apply Keeps.ite | with_reducible apply Keeps.ite_fst
    | with_reducible apply State.modReg_keeps | with_reducible apply State.logTd_keeps

/-- State.aerReport keeps all. -/
theorem State.aerReport_keeps {s0 s : State} (td : Td) (f : Fn) (poisoned : Bool) (hk : Keeps s0 s) :
    Keeps s0 (State.aerReport s td f poisoned) := by
  unfold State.aerReport
  try dsimp only
  repeat'
    first
    | with_reducible assumption | intro _ | with_reducible apply Keeps.ite | with_reducible apply Keeps.ite_fst
    | with_reducible apply State.emit_keeps

/-- State.boltFetch keeps all. -/
theorem State.boltFetch_keeps {s0 s : State} (td : Td) (sp : SpoolId) (hk : Keeps s0 s) :
    Keeps s0 (State.boltFetch s td sp) := by
  unfold State.boltFetch
  try dsimp only
  repeat'
    first
    | with_reducible assumption | intro _ | with_reducible apply Keeps.ite | with_reducible apply Keeps.ite_fst
    | with_reducible apply State.setSpool_keeps | with_reducible apply State.emit_keeps

/-- State.fetched keeps all. -/
theorem State.fetched_keeps {s0 s : State} (td : Td) (sp : SpoolId) (h : BoltHdr) (hk : Keeps s0 s) :
    Keeps s0 (State.fetched s td sp h) := by
  unfold State.fetched
  try dsimp only
  repeat'
    first
    | with_reducible assumption | intro _ | with_reducible apply Keeps.ite | with_reducible apply Keeps.ite_fst
    | with_reducible apply State.setSreg_keeps | with_reducible apply State.countWrap_keeps
    | with_reducible apply State.modSpool_keeps | with_reducible apply State.finishBolt_keeps
    | with_reducible apply State.modBolt_keeps | with_reducible refine Keeps.foldl ?_ _ _ ?_
    | with_reducible refine Keeps.foldl_fst ?_ _ _ ?_
    | with_reducible refine Keeps.of_fst (by with_reducible assumption) ?_ | split

/-- State.headerRead keeps all. -/
theorem State.headerRead_keeps {s0 s : State} (td : Td) (sp : SpoolId) (hk : Keeps s0 s) :
    Keeps s0 (State.headerRead s td sp).1 := by
  unfold State.headerRead
  try dsimp only
  repeat'
    first
    | with_reducible assumption | intro _ | with_reducible apply Keeps.ite | with_reducible apply Keeps.ite_fst
    | with_reducible apply State.setSpool_keeps

/-- State.headerArrive keeps all. -/
theorem State.headerArrive_keeps {s0 s : State} (td : Td) (sp : SpoolId) (hdr : Option (List Byte)) (hk : Keeps s0 s) :
    Keeps s0 (State.headerArrive s td sp hdr) := by
  unfold State.headerArrive
  try dsimp only
  repeat'
    first
    | with_reducible assumption | intro _ | with_reducible apply Keeps.ite | with_reducible apply Keeps.ite_fst
    | with_reducible apply State.headerRead_keeps | with_reducible apply State.haltSpool_keeps
    | with_reducible apply State.aerReport_keeps | with_reducible apply State.modSpool_keeps
    | with_reducible apply State.fetched_keeps | with_reducible refine Keeps.foldl ?_ _ _ ?_
    | with_reducible refine Keeps.foldl_fst ?_ _ _ ?_
    | with_reducible refine Keeps.of_fst (by with_reducible assumption) ?_ | split

/-- State.queueLand keeps all. -/
theorem State.queueLand_keeps {s0 s : State} (td : Td) (sp : SpoolId) (b : Bolt) (at' : Nat) (l : List Byte) (hk : Keeps s0 s) :
    Keeps s0 (State.queueLand s td sp b at' l) := by
  unfold State.queueLand
  try dsimp only
  repeat'
    first
    | with_reducible assumption | intro _ | with_reducible apply Keeps.ite | with_reducible apply Keeps.ite_fst
    | with_reducible apply State.modCore_keeps | with_reducible refine Keeps.foldl ?_ _ _ ?_
    | with_reducible refine Keeps.foldl_fst ?_ _ _ ?_
    | with_reducible refine Keeps.of_fst (by with_reducible assumption) ?_ | split

/-- State.askPayload keeps all. -/
theorem State.askPayload_keeps {s0 s : State} (td : Td) (sp : SpoolId) (n : Nat) (b : Bolt) (hk : Keeps s0 s) :
    Keeps s0 (s.askPayload td sp n b) := by
  induction n generalizing s b with
  | zero => exact hk
  | succ n ih =>
    unfold State.askPayload
    repeat'
      first
      | with_reducible assumption | with_reducible apply ih | with_reducible apply State.emit_keeps
      | with_reducible apply State.modBolt_keeps | with_reducible apply Keeps.ite

/-- State.askMore keeps all. -/
theorem State.askMore_keeps {s0 s : State} (td : Td) (f : Fn) (hk : Keeps s0 s) : Keeps s0 (State.askMore s td f) := by
  unfold State.askMore
  try dsimp only
  repeat'
    first
    | with_reducible assumption | intro _ | with_reducible apply Keeps.ite | with_reducible apply Keeps.ite_fst
    | with_reducible apply State.askPayload_keeps | with_reducible refine Keeps.foldl ?_ _ _ ?_

/-- State.startLand keeps all. -/
theorem State.startLand_keeps {s0 s : State} (td : Td) (sp : SpoolId) (b : Bolt) (hk : Keeps s0 s) :
    Keeps s0 (State.startLand s td sp b) := by
  unfold State.startLand
  try dsimp only
  repeat'
    first
    | with_reducible assumption | intro _ | with_reducible apply Keeps.ite | with_reducible apply Keeps.ite_fst
    | with_reducible apply State.finishBolt_keeps | with_reducible apply State.setTd_keeps
    | with_reducible apply State.modBolt_keeps | with_reducible apply State.queueLand_keeps
    | with_reducible apply State.askMore_keeps

/-- State.boltStart keeps all. -/
theorem State.boltStart_keeps {s0 s : State} (td : Td) (sp : SpoolId) (hk : Keeps s0 s) :
    Keeps s0 (State.boltStart s td sp) := by
  unfold State.boltStart
  try dsimp only
  repeat'
    first
    | with_reducible assumption | intro _ | with_reducible apply Keeps.ite | with_reducible apply Keeps.ite_fst
    | with_reducible apply State.finishBolt_keeps | with_reducible apply State.startLand_keeps
    | with_reducible apply State.modBolt_keeps | with_reducible refine Keeps.foldl ?_ _ _ ?_
    | with_reducible refine Keeps.foldl_fst ?_ _ _ ?_
    | with_reducible refine Keeps.of_fst (by with_reducible assumption) ?_ | split

/-- State.failLand keeps all. -/
theorem State.failLand_keeps {s0 s : State} (td : Td) (sp : SpoolId) (b : Bolt) (hk : Keeps s0 s) :
    Keeps s0 (State.failLand s td sp b) := by
  unfold State.failLand
  try dsimp only
  repeat'
    first
    | with_reducible assumption | intro _ | with_reducible apply Keeps.ite | with_reducible apply Keeps.ite_fst
    | with_reducible apply State.setTd_keeps | with_reducible apply State.modCore_keeps
    | with_reducible apply State.finishBolt_keeps

/-- State.payloadArrive keeps all. -/
theorem State.payloadArrive_keeps {s0 s : State} (td : Td) (sp : SpoolId) (payload : Option (List Byte)) (hk : Keeps s0 s) :
    Keeps s0 (State.payloadArrive s td sp payload) := by
  unfold State.payloadArrive
  try dsimp only
  repeat'
    first
    | with_reducible assumption | intro _ | with_reducible apply Keeps.ite | with_reducible apply Keeps.ite_fst
    | with_reducible apply State.failLand_keeps | with_reducible apply State.aerReport_keeps
    | with_reducible apply State.askMore_keeps | with_reducible apply State.modBolt_keeps
    | with_reducible apply State.queueLand_keeps | with_reducible refine Keeps.foldl ?_ _ _ ?_
    | with_reducible refine Keeps.foldl_fst ?_ _ _ ?_
    | with_reducible refine Keeps.of_fst (by with_reducible assumption) ?_ | split

/-- State.completionTimeout keeps all. -/
theorem State.completionTimeout_keeps {s0 s : State} (td : Td) (sp : SpoolId) (payload : Bool) (hk : Keeps s0 s) :
    Keeps s0 (State.completionTimeout s td sp payload) := by
  unfold State.completionTimeout
  try dsimp only
  repeat'
    first
    | with_reducible assumption | intro _ | with_reducible apply Keeps.ite | with_reducible apply Keeps.ite_fst
    | with_reducible apply State.failLand_keeps | with_reducible apply State.aerReport_keeps
    | with_reducible apply State.askMore_keeps | with_reducible apply State.headerRead_keeps
    | with_reducible apply State.haltSpool_keeps | with_reducible refine Keeps.foldl ?_ _ _ ?_
    | with_reducible refine Keeps.foldl_fst ?_ _ _ ?_
    | with_reducible refine Keeps.of_fst (by with_reducible assumption) ?_ | split

/-- State.outBeat keeps all. -/
theorem State.outBeat_keeps {s0 s : State} (td : Td) (sp : SpoolId) (hk : Keeps s0 s) :
    Keeps s0 (State.outBeat s td sp) := by
  unfold State.outBeat
  try dsimp only
  repeat'
    first
    | with_reducible assumption | intro _ | with_reducible apply Keeps.ite | with_reducible apply Keeps.ite_fst
    | with_reducible apply State.modCore_keeps | with_reducible refine Keeps.foldl ?_ _ _ ?_
    | with_reducible refine Keeps.foldl_fst ?_ _ _ ?_
    | with_reducible refine Keeps.of_fst (by with_reducible assumption) ?_ | split

/-- State.endOut keeps all. -/
theorem State.endOut_keeps {s0 s : State} (td : Td) (sp : SpoolId) (b : Bolt) (st : Nat) (hk : Keeps s0 s) :
    Keeps s0 (State.endOut s td sp b st) := by
  unfold State.endOut
  try dsimp only
  repeat'
    first
    | with_reducible assumption | intro _ | with_reducible apply Keeps.ite | with_reducible apply Keeps.ite_fst
    | with_reducible apply State.modCore_keeps | with_reducible apply State.finishBolt_keeps

/-- State.copied keeps all. -/
theorem State.copied_keeps {s0 s : State} (td : Td) (sp : SpoolId) (b : Bolt) (data : List Byte) (bad : List Nat) (hk : Keeps s0 s) :
    Keeps s0 (State.copied s td sp b data bad) := by
  unfold State.copied
  try dsimp only
  repeat'
    first
    | with_reducible assumption | intro _ | with_reducible apply Keeps.ite | with_reducible apply Keeps.ite_fst
    | with_reducible apply State.ccount_keeps | with_reducible apply State.logTd_keeps
    | with_reducible apply State.endOut_keeps | with_reducible apply State.emit_keeps
    | with_reducible apply State.modBolt_keeps | with_reducible refine Keeps.foldl ?_ _ _ ?_

/-- State.tagDone keeps all. -/
theorem State.tagDone_keeps {s0 s : State} (td : Td) (sp : SpoolId) (seq : Dword) (hk : Keeps s0 s) :
    Keeps s0 (State.tagDone s td sp seq) := by
  unfold State.tagDone
  try dsimp only
  repeat'
    first
    | with_reducible assumption | intro _ | with_reducible apply Keeps.ite | with_reducible apply Keeps.ite_fst
    | with_reducible apply State.nextFree_keeps | with_reducible apply State.modBolt_keeps
    | with_reducible apply State.modSpool_keeps | with_reducible refine Keeps.foldl ?_ _ _ ?_
    | with_reducible refine Keeps.foldl_fst ?_ _ _ ?_
    | with_reducible refine Keeps.of_fst (by with_reducible assumption) ?_ | split

/-- State.fenceComplete keeps all. -/
theorem State.fenceComplete_keeps {s0 s : State} (td : Td) (sp : SpoolId) (hk : Keeps s0 s) :
    Keeps s0 (State.fenceComplete s td sp) := by
  unfold State.fenceComplete
  try dsimp only
  repeat'
    first
    | with_reducible assumption | intro _ | with_reducible apply Keeps.ite | with_reducible apply Keeps.ite_fst
    | with_reducible apply State.finishBolt_keeps | with_reducible refine Keeps.foldl ?_ _ _ ?_
    | with_reducible refine Keeps.foldl_fst ?_ _ _ ?_
    | with_reducible refine Keeps.of_fst (by with_reducible assumption) ?_ | split

/-- State.sendMsix keeps all. -/
theorem State.sendMsix_keeps {s0 s : State} (td : Td) (f : Fn) (vec : Nat) (hk : Keeps s0 s) :
    Keeps s0 (State.sendMsix s td f vec) := by
  unfold State.sendMsix
  try dsimp only
  repeat'
    first
    | with_reducible assumption | intro _ | with_reducible apply Keeps.ite | with_reducible apply Keeps.ite_fst
    | with_reducible apply State.modReg_keeps | with_reducible apply State.emit_keeps

/-- State.unmask keeps all. -/
theorem State.unmask_keeps {s0 s : State} (td : Td) (f : Fn) (vec : Nat) (hk : Keeps s0 s) :
    Keeps s0 (State.unmask s td f vec) := by
  unfold State.unmask
  try dsimp only
  repeat'
    first
    | with_reducible assumption | intro _ | with_reducible apply Keeps.ite | with_reducible apply Keeps.ite_fst
    | with_reducible apply State.modReg_keeps | with_reducible apply State.sendMsix_keeps

/-- State.putTicket keeps all. -/
theorem State.putTicket_keeps {s0 s : State} (td : Td) (sp : SpoolId) (seq : Dword) (irq : Bool) (bytes : List Byte) (hk : Keeps s0 s) :
    Keeps s0 (State.putTicket s td sp seq irq bytes) := by
  unfold State.putTicket
  try dsimp only
  repeat'
    first
    | with_reducible assumption | intro _ | with_reducible apply Keeps.ite | with_reducible apply Keeps.ite_fst
    | with_reducible apply State.countWrap_keeps | with_reducible apply State.emit_keeps
    | with_reducible apply State.sendMsix_keeps | with_reducible apply State.count_keeps
    | with_reducible apply State.logTd_keeps

/-- State.ticketWrite keeps all. -/
theorem State.ticketWrite_keeps {s0 s : State} (td : Td) (sp : SpoolId) (hk : Keeps s0 s) :
    Keeps s0 (State.ticketWrite s td sp) := by
  unfold State.ticketWrite
  try dsimp only
  repeat'
    first
    | with_reducible assumption | intro _ | with_reducible apply Keeps.ite | with_reducible apply Keeps.ite_fst
    | with_reducible apply State.modReg_keeps | with_reducible apply State.setSpool_keeps
    | with_reducible apply State.putTicket_keeps | with_reducible apply State.setSreg_keeps
    | with_reducible apply State.tallyInclude_keeps | with_reducible refine Keeps.foldl ?_ _ _ ?_
    | with_reducible refine Keeps.foldl_fst ?_ _ _ ?_
    | with_reducible refine Keeps.of_fst (by with_reducible assumption) ?_ | split

/-- State.abortWaiting keeps all. -/
theorem State.abortWaiting_keeps {s0 s : State} (td : Td) (sp : SpoolId) (hk : Keeps s0 s) :
    Keeps s0 (State.abortWaiting s td sp) := by
  unfold State.abortWaiting
  try dsimp only
  repeat'
    first
    | with_reducible assumption | intro _ | with_reducible apply Keeps.ite | with_reducible apply Keeps.ite_fst
    | with_reducible apply State.finishBolt_keeps | with_reducible refine Keeps.foldl ?_ _ _ ?_

/-- State.abortAll keeps all. -/
theorem State.abortAll_keeps {s0 s : State} (hk : Keeps s0 s) : Keeps s0 (State.abortAll s) := by
  unfold State.abortAll
  try dsimp only
  repeat'
    first
    | with_reducible assumption | intro _ | with_reducible apply Keeps.ite | with_reducible apply Keeps.ite_fst
    | with_reducible apply State.abortWaiting_keeps | with_reducible refine Keeps.foldl ?_ _ _ ?_

/-- State.spoolDisable keeps all. -/
theorem State.spoolDisable_keeps {s0 s : State} (td : Td) (sp : SpoolId) (hk : Keeps s0 s) :
    Keeps s0 (State.spoolDisable s td sp) := by
  unfold State.spoolDisable
  try dsimp only
  repeat'
    first
    | with_reducible assumption | intro _ | with_reducible apply Keeps.ite | with_reducible apply Keeps.ite_fst
    | with_reducible apply State.setSreg_keeps | with_reducible apply State.setSpoolState_keeps
    | with_reducible apply State.modSpool_keeps | with_reducible apply State.abortWaiting_keeps
    | with_reducible apply State.modReg_keeps | with_reducible refine Keeps.foldl ?_ _ _ ?_
    | with_reducible refine Keeps.foldl_fst ?_ _ _ ?_
    | with_reducible refine Keeps.of_fst (by with_reducible assumption) ?_ | split

/-- State.spoolStopped keeps all. -/
theorem State.spoolStopped_keeps {s0 s : State} (td : Td) (sp : SpoolId) (hk : Keeps s0 s) :
    Keeps s0 (State.spoolStopped s td sp) := by
  unfold State.spoolStopped
  try dsimp only
  repeat'
    first
    | with_reducible assumption | intro _ | with_reducible apply Keeps.ite | with_reducible apply Keeps.ite_fst
    | with_reducible apply State.modReg_keeps

/-- State.boltsDropped keeps all. -/
theorem State.boltsDropped_keeps {s0 s : State} (hk : Keeps s0 s) : Keeps s0 (State.boltsDropped s) := by
  unfold State.boltsDropped
  try dsimp only
  repeat'
    first
    | with_reducible assumption | intro _ | with_reducible apply Keeps.ite | with_reducible apply Keeps.ite_fst
    | with_reducible apply State.modCore_keeps | with_reducible apply State.finishBolt_keeps
    | with_reducible refine Keeps.foldl ?_ _ _ ?_

/-- State.boltsLanded keeps all. -/
theorem State.boltsLanded_keeps {s0 s : State} (g : CoreId) (hk : Keeps s0 s) : Keeps s0 (State.boltsLanded s g) := by
  unfold State.boltsLanded
  try dsimp only
  repeat'
    first
    | with_reducible assumption | intro _ | with_reducible apply Keeps.ite | with_reducible apply Keeps.ite_fst
    | with_reducible apply State.finishBolt_keeps | with_reducible refine Keeps.foldl ?_ _ _ ?_

/-- State.outsLate keeps all. -/
theorem State.outsLate_keeps {s0 s : State} (hk : Keeps s0 s) : Keeps s0 (State.outsLate s) := by
  unfold State.outsLate
  try dsimp only
  repeat'
    first
    | with_reducible assumption | intro _ | with_reducible apply Keeps.ite | with_reducible apply Keeps.ite_fst
    | with_reducible apply State.endOut_keeps | with_reducible refine Keeps.foldl ?_ _ _ ?_

/-- State.reportDrop keeps all. -/
theorem State.reportDrop_keeps {s0 s : State} (late : Option (Td × Nat × Dword)) (hk : Keeps s0 s) :
    Keeps s0 (State.reportDrop s late) := by
  unfold State.reportDrop
  try dsimp only
  repeat'
    first
    | with_reducible assumption | intro _ | with_reducible apply Keeps.ite | with_reducible apply Keeps.ite_fst
    | with_reducible apply State.modSpool_keeps | with_reducible apply State.setReg_keeps
    | with_reducible apply State.count_keeps | with_reducible refine Keeps.foldl ?_ _ _ ?_
    | with_reducible refine Keeps.foldl_fst ?_ _ _ ?_
    | with_reducible refine Keeps.of_fst (by with_reducible assumption) ?_ | split

/-! ## Datapath -/

/-- State.stopRuns keeps all. -/
theorem State.stopRuns_keeps {s0 s : State} (g : CoreId) (hk : Keeps s0 s) : Keeps s0 (State.stopRuns s g) := by
  unfold State.stopRuns
  try dsimp only
  repeat'
    first
    | with_reducible assumption | intro _ | with_reducible apply Keeps.ite | with_reducible apply Keeps.ite_fst
    | with_reducible apply State.captureDiscard_keeps | with_reducible apply State.modCore_keeps
    | with_reducible refine Keeps.foldl ?_ _ _ ?_

/-- State.sendBeats keeps all. -/
theorem State.sendBeats_keeps {s0 s : State} (g : CoreId) (r : Run) (hk : Keeps s0 s) :
    Keeps s0 (State.sendBeats s g r).1 := by
  unfold State.sendBeats
  try dsimp only
  repeat'
    first
    | with_reducible assumption | intro _ | with_reducible apply Keeps.ite | with_reducible apply Keeps.ite_fst
    | with_reducible apply State.modCore_keeps | with_reducible refine Keeps.foldl ?_ _ _ ?_
    | with_reducible refine Keeps.foldl_fst ?_ _ _ ?_
    | with_reducible refine Keeps.of_fst (by with_reducible assumption) ?_ | split

/-- State.passOn keeps all. -/
theorem State.passOn_keeps {s0 s : State} (g : CoreId) (r : Run) (y : RunStep) (hk : Keeps s0 s) :
    Keeps s0 (State.passOn s g r y).1 := by
  unfold State.passOn
  try dsimp only
  repeat'
    first
    | with_reducible assumption | intro _ | with_reducible apply Keeps.ite | with_reducible apply Keeps.ite_fst
    | with_reducible apply State.modCore_keeps | with_reducible apply State.sendBeats_keeps
    | with_reducible refine Keeps.foldl ?_ _ _ ?_ | with_reducible refine Keeps.foldl_fst ?_ _ _ ?_
    | with_reducible refine Keeps.of_fst (by with_reducible assumption) ?_ | split

/-- State.stepMarks keeps all. -/
theorem State.stepMarks_keeps {s0 s : State} (g : CoreId) (y : RunStep) (hk : Keeps s0 s) :
    Keeps s0 (State.stepMarks s g y) := by
  unfold State.stepMarks
  try dsimp only
  repeat'
    first
    | with_reducible assumption | intro _ | with_reducible apply Keeps.ite | with_reducible apply Keeps.ite_fst
    | with_reducible apply State.ccount_keeps | with_reducible apply State.setCreg_keeps
    | with_reducible refine Keeps.foldl ?_ _ _ ?_

/-- State.noteLoad keeps all. -/
theorem State.noteLoad_keeps {s0 s : State} (g : CoreId) (r : Run) (y : RunStep) (hk : Keeps s0 s) :
    Keeps s0 (State.noteLoad s g r y) := by
  unfold State.noteLoad
  try dsimp only
  repeat'
    first
    | with_reducible assumption | intro _ | with_reducible apply Keeps.ite | with_reducible apply Keeps.ite_fst
    | with_reducible apply State.modCore_keeps

/-- State.runEnds keeps all. -/
theorem State.runEnds_keeps {s0 s : State} (g : CoreId) (r : Run) (hk : Keeps s0 s) : Keeps s0 (State.runEnds s g r) := by
  unfold State.runEnds
  try dsimp only
  repeat'
    first
    | with_reducible assumption | intro _ | with_reducible apply Keeps.ite | with_reducible apply Keeps.ite_fst
    | with_reducible apply State.setCmd_keeps | with_reducible apply State.setCreg_keeps
    | with_reducible apply State.sendAck_keeps | with_reducible apply State.cross_keeps
    | with_reducible refine Keeps.foldl ?_ _ _ ?_ | with_reducible refine Keeps.foldl_fst ?_ _ _ ?_
    | with_reducible refine Keeps.of_fst (by with_reducible assumption) ?_ | split

/-- State.runClk keeps all. -/
theorem State.runClk_keeps {s0 a old : State} (g : CoreId) (p : State × List Run) (e : Run × Nat) (hk : Keeps s0 p.1) :
    Keeps s0 (a.runClk old g p e).1 := by
  unfold State.runClk
  dsimp only
  refine Keeps.foldl_fst ?_ _ _ fun u y hu => State.passOn_keeps _ _ _ hu
  exact Keeps.foldl hk _ _ fun u y hu => State.noteLoad_keeps _ _ _ (State.stepMarks_keeps _ _ hu)

/-- State.runsClk keeps all. -/
theorem State.runsClk_keeps {s0 s : State} (old : State) (g : CoreId) (hk : Keeps s0 s) : Keeps s0 (s.runsClk old g) := by
  unfold State.runsClk
  dsimp only
  refine Keeps.foldl (State.modCore_keeps _ _ ?_) _ _ fun u r hu => State.runEnds_keeps _ _ hu
  exact Keeps.foldl_fst hk _ _ fun u e hu => State.runClk_keeps _ _ _ hu

/-- State.cmdErr keeps all. -/
theorem State.cmdErr_keeps {s0 s : State} (g : CoreId) (step slot : Nat) (v : Dword) (hk : Keeps s0 s) :
    Keeps s0 (State.cmdErr s g step slot v) := by
  unfold State.cmdErr
  try dsimp only
  repeat'
    first
    | with_reducible assumption | intro _ | with_reducible apply Keeps.ite | with_reducible apply Keeps.ite_fst
    | with_reducible apply State.commandParity_keeps | with_reducible apply State.parNoted_keeps

/-- State.readErr keeps all. -/
theorem State.readErr_keeps {s0 s : State} (g : CoreId) (x : ReadErr) (hk : Keeps s0 s) :
    Keeps s0 (State.readErr s g x) := by
  unfold State.readErr
  try dsimp only
  repeat'
    first
    | with_reducible assumption | intro _ | with_reducible apply Keeps.ite | with_reducible apply Keeps.ite_fst
    | with_reducible apply State.cmdErr_keeps | with_reducible apply State.parCounted_keeps
    | with_reducible apply State.modCore_keeps | with_reducible refine Keeps.foldl ?_ _ _ ?_
    | with_reducible refine Keeps.foldl_fst ?_ _ _ ?_
    | with_reducible refine Keeps.of_fst (by with_reducible assumption) ?_ | split

/-- State.bufErrs keeps all. -/
theorem State.bufErrs_keeps {s0 s : State} (g : CoreId) (hk : Keeps s0 s) : Keeps s0 (State.bufErrs s g) := by
  unfold State.bufErrs
  try dsimp only
  repeat'
    first
    | with_reducible assumption | intro _ | with_reducible apply Keeps.ite | with_reducible apply Keeps.ite_fst
    | with_reducible apply State.modCore_keeps | with_reducible apply State.cmdErr_keeps
    | with_reducible refine Keeps.foldl ?_ _ _ ?_ | with_reducible refine Keeps.foldl_fst ?_ _ _ ?_
    | with_reducible refine Keeps.of_fst (by with_reducible assumption) ?_ | split

/-- State.drainLineOf keeps all. -/
theorem State.drainLineOf_keeps {s0 s : State} (g : CoreId) (x : FellLine) (hk : Keeps s0 s) :
    Keeps s0 (State.drainLineOf s g x) := by
  unfold State.drainLineOf
  try dsimp only
  repeat'
    first
    | with_reducible assumption | intro _ | with_reducible apply Keeps.ite | with_reducible apply Keeps.ite_fst
    | with_reducible apply State.countWords_keeps | with_reducible apply State.bankWrite_keeps

/-- State.drainClkOf keeps all. -/
theorem State.drainClkOf_keeps {s0 s : State} (g : CoreId) (hk : Keeps s0 s) : Keeps s0 (State.drainClkOf s g) := by
  unfold State.drainClkOf
  try dsimp only
  repeat'
    first
    | with_reducible assumption | intro _ | with_reducible apply Keeps.ite | with_reducible apply Keeps.ite_fst
    | with_reducible apply State.drainLineOf_keeps | with_reducible apply State.modCore_keeps
    | with_reducible refine Keeps.foldl ?_ _ _ ?_

/-- State.bankCounts keeps all. -/
theorem State.bankCounts_keeps {s0 s : State} (g : CoreId) (a : Arb) (lost : Bool) (hk : Keeps s0 s) :
    Keeps s0 (State.bankCounts s g a lost) := by
  unfold State.bankCounts
  try dsimp only
  repeat'
    first
    | with_reducible assumption | intro _ | with_reducible apply Keeps.ite | with_reducible apply Keeps.ite_fst
    | with_reducible apply State.ccount_keeps

/-- State.accessClk keeps all. -/
theorem State.accessClk_keeps {s0 s : State} (g : CoreId) (hk : Keeps s0 s) : Keeps s0 (State.accessClk s g).1 := by
  unfold State.accessClk
  try dsimp only
  repeat'
    first
    | with_reducible assumption | intro _ | with_reducible apply Keeps.ite | with_reducible apply Keeps.ite_fst
    | with_reducible apply State.beginSteps_keeps | with_reducible apply State.perform_keeps
    | with_reducible apply State.drainClkOf_keeps | with_reducible apply State.bankCounts_keeps
    | with_reducible apply State.runsClk_keeps

/-- State.relaysClk keeps all. -/
theorem State.relaysClk_keeps {s0 s : State} (g : CoreId) (hk : Keeps s0 s) : Keeps s0 (State.relaysClk s g) := by
  unfold State.relaysClk
  try dsimp only
  repeat'
    first
    | with_reducible assumption | intro _ | with_reducible apply Keeps.ite | with_reducible apply Keeps.ite_fst
    | with_reducible apply State.advance_keeps | with_reducible refine Keeps.foldl ?_ _ _ ?_

/-- State.coreClk keeps all. -/
theorem State.coreClk_keeps {s0 s : State} (g : CoreId) (hk : Keeps s0 s) : Keeps s0 (State.coreClk s g) := by
  unfold State.coreClk
  try dsimp only
  repeat'
    first
    | with_reducible assumption | intro _ | with_reducible apply Keeps.ite | with_reducible apply Keeps.ite_fst
    | with_reducible apply State.stopRuns_keeps | with_reducible apply State.accessClk_keeps
    | with_reducible apply State.weaveClk_keeps | with_reducible apply State.readErr_keeps
    | with_reducible apply State.cmdErr_keeps | with_reducible apply State.bufErrs_keeps
    | with_reducible apply State.relaysClk_keeps | with_reducible apply State.modCore_keeps
    | with_reducible refine Keeps.foldl ?_ _ _ ?_

/-! ## Beam -/

/-- State.beamRead keeps all. -/
theorem State.beamRead_keeps {s0 s : State} (g : CoreId) (port off : Nat) (mask : Dword) (hk : Keeps s0 s) :
    Keeps s0 (State.beamRead s g port off mask) := by
  unfold State.beamRead
  try dsimp only
  repeat'
    first
    | with_reducible assumption | intro _ | with_reducible apply Keeps.ite | with_reducible apply Keeps.ite_fst
    | with_reducible apply State.stopRuns_keeps | with_reducible apply State.beginSteps_keeps
    | with_reducible apply State.readErr_keeps | with_reducible apply State.perform_keeps
    | with_reducible refine Keeps.foldl ?_ _ _ ?_ | with_reducible refine Keeps.foldl_fst ?_ _ _ ?_
    | with_reducible refine Keeps.of_fst (by with_reducible assumption) ?_ | split

/-- State.bankDrain keeps all. -/
theorem State.bankDrain_keeps {s0 s : State} (g : CoreId) (bank : Nat) (hk : Keeps s0 s) :
    Keeps s0 (State.bankDrain s g bank) := by
  unfold State.bankDrain
  try dsimp only
  repeat'
    first
    | with_reducible assumption | intro _ | with_reducible apply Keeps.ite | with_reducible apply Keeps.ite_fst
    | with_reducible apply State.stopRuns_keeps | with_reducible apply State.beginSteps_keeps
    | with_reducible apply State.readErr_keeps | with_reducible apply State.perform_keeps
    | with_reducible refine Keeps.foldl ?_ _ _ ?_ | with_reducible refine Keeps.foldl_fst ?_ _ _ ?_
    | with_reducible refine Keeps.of_fst (by with_reducible assumption) ?_ | split

/-- State.injectArm keeps all. -/
theorem State.injectArm_keeps {s0 s : State} (g : CoreId) (off : Nat) (hk : Keeps s0 s) :
    Keeps s0 (State.injectArm s g off) := by
  unfold State.injectArm
  try dsimp only
  repeat'
    first
    | with_reducible assumption | intro _ | with_reducible apply Keeps.ite | with_reducible apply Keeps.ite_fst
    | with_reducible apply State.modCore_keeps

/-- State.injectDisarm keeps all. -/
theorem State.injectDisarm_keeps {s0 s : State} (g : CoreId) (hk : Keeps s0 s) : Keeps s0 (State.injectDisarm s g) := by
  unfold State.injectDisarm
  try dsimp only
  repeat'
    first
    | with_reducible assumption | intro _ | with_reducible apply Keeps.ite | with_reducible apply Keeps.ite_fst
    | with_reducible apply State.modCore_keeps

/-- State.carryMapWrite keeps all. -/
theorem State.carryMapWrite_keeps {s0 s : State} (g : CoreId) (m : Nat) (val : Word) (hk : Keeps s0 s) :
    Keeps s0 (State.carryMapWrite s g m val) := by
  unfold State.carryMapWrite
  try dsimp only
  repeat'
    first
    | with_reducible assumption | intro _ | with_reducible apply Keeps.ite | with_reducible apply Keeps.ite_fst
    | with_reducible apply State.modCore_keeps | with_reducible apply State.setCreg_keeps
    | with_reducible refine Keeps.foldl ?_ _ _ ?_ | with_reducible refine Keeps.foldl_fst ?_ _ _ ?_
    | with_reducible refine Keeps.of_fst (by with_reducible assumption) ?_ | split
    | with_reducible refine Keeps.record ?_ rfl rfl rfl rfl rfl

/-! ## Service -/

/-- State.countRead keeps all. -/
theorem State.countRead_keeps {s0 s : State} (td : Td) (l : List (CoreId × Dword)) (hk : Keeps s0 s) :
    Keeps s0 (State.countRead s td l) := by
  unfold State.countRead
  try dsimp only
  repeat'
    first
    | with_reducible assumption | intro _ | with_reducible apply Keeps.ite | with_reducible apply Keeps.ite_fst
    | with_reducible apply State.ccount_keeps | with_reducible apply State.logTd_keeps
    | with_reducible refine Keeps.foldl ?_ _ _ ?_

/-- State.hostReadNow keeps all. -/
theorem State.hostReadNow_keeps {s0 s : State} (td : Td) (fn : Fn) (off a n : Nat) (hk : Keeps s0 s) :
    Keeps s0 (State.hostReadNow s td fn off a n) := by
  unfold State.hostReadNow
  try dsimp only
  repeat'
    first
    | with_reducible assumption | intro _ | with_reducible apply Keeps.ite | with_reducible apply Keeps.ite_fst
    | with_reducible apply State.countRead_keeps | with_reducible apply State.emit_keeps

/-- State.bar0Read keeps all. -/
theorem State.bar0Read_keeps {s0 s : State} (td : Td) (fn : Fn) (off n : Nat) (hk : Keeps s0 s) :
    Keeps s0 (State.bar0Read s td fn off n) := by
  unfold State.bar0Read
  try dsimp only
  repeat'
    first
    | with_reducible assumption | intro _ | with_reducible apply Keeps.ite | with_reducible apply Keeps.ite_fst
    | with_reducible apply State.emit_keeps | with_reducible apply State.modCore_keeps
    | with_reducible apply State.hostReadNow_keeps | with_reducible refine Keeps.foldl ?_ _ _ ?_
    | with_reducible refine Keeps.foldl_fst ?_ _ _ ?_
    | with_reducible refine Keeps.of_fst (by with_reducible assumption) ?_ | split

/-- State.lineRead keeps all. -/
theorem State.lineRead_keeps {s0 s : State} (g : CoreId) (td : Td) (fn : Fn) (off : Word) (n : Nat) (got : List Byte) (bad : Bool) (data : List Byte) (errs : List (CoreId × Dword)) (hk : Keeps s0 s) :
    Keeps s0 (State.lineRead s g td fn off n got bad data errs) := by
  unfold State.lineRead
  try dsimp only
  repeat'
    first
    | with_reducible assumption | intro _ | with_reducible apply Keeps.ite | with_reducible apply Keeps.ite_fst
    | with_reducible apply State.countRead_keeps | with_reducible apply State.emit_keeps
    | with_reducible apply State.modCore_keeps

/-- State.overseerLine keeps all. -/
theorem State.overseerLine_keeps {s0 s : State} (g : CoreId) (off : Nat) (rewrite : Bool) (hk : Keeps s0 s) :
    Keeps s0 (State.overseerLine s g off rewrite) := by
  unfold State.overseerLine
  try dsimp only
  repeat'
    first
    | with_reducible assumption | intro _ | with_reducible apply Keeps.ite | with_reducible apply Keeps.ite_fst
    | with_reducible apply State.modCore_keeps | with_reducible apply State.bankWrite_keeps
    | with_reducible apply State.ccount_keeps | with_reducible apply State.logCore_keeps

/-- State.portAccess keeps all. -/
theorem State.portAccess_keeps {s0 s : State} (g : CoreId) (x : SvcBeat) (off n : Nat) (hk : Keeps s0 s) :
    Keeps s0 (State.portAccess s g x off n) := by
  unfold State.portAccess
  try dsimp only
  repeat'
    first
    | with_reducible assumption | intro _ | with_reducible apply Keeps.ite | with_reducible apply Keeps.ite_fst
    | with_reducible apply State.modCore_keeps | with_reducible apply State.overseerLine_keeps
    | with_reducible apply State.copied_keeps | with_reducible apply State.lineRead_keeps
    | with_reducible apply State.tallyLine_keeps | with_reducible refine Keeps.foldl ?_ _ _ ?_
    | with_reducible refine Keeps.foldl_fst ?_ _ _ ?_
    | with_reducible refine Keeps.of_fst (by with_reducible assumption) ?_ | split

/-- State.svcClk keeps all. -/
theorem State.svcClk_keeps {s0 s : State} (g : CoreId) (hk : Keeps s0 s) : Keeps s0 (State.svcClk s g) := by
  unfold State.svcClk
  try dsimp only
  repeat'
    first
    | with_reducible assumption | intro _ | with_reducible apply Keeps.ite | with_reducible apply Keeps.ite_fst
    | with_reducible apply State.modCore_keeps | with_reducible apply State.portAccess_keeps
    | with_reducible apply State.stopRuns_keeps | with_reducible apply State.beginSteps_keeps
    | with_reducible refine Keeps.foldl ?_ _ _ ?_ | with_reducible refine Keeps.foldl_fst ?_ _ _ ?_
    | with_reducible refine Keeps.of_fst (by with_reducible assumption) ?_ | split

/-- State.bar0Release keeps all. -/
theorem State.bar0Release_keeps {s0 s : State} (g : CoreId) (hk : Keeps s0 s) : Keeps s0 (State.bar0Release s g) := by
  unfold State.bar0Release
  try dsimp only
  repeat'
    first
    | with_reducible assumption | intro _ | with_reducible apply Keeps.ite | with_reducible apply Keeps.ite_fst
    | with_reducible apply State.modCore_keeps | with_reducible refine Keeps.foldl ?_ _ _ ?_
    | with_reducible refine Keeps.foldl_fst ?_ _ _ ?_
    | with_reducible refine Keeps.of_fst (by with_reducible assumption) ?_ | split

/-- State.memWrite keeps all. -/
theorem State.memWrite_keeps {s0 s : State} (l : List (Nat × Byte)) (hk : Keeps s0 s) : Keeps s0 (State.memWrite s l).1 := by
  unfold State.memWrite
  try dsimp only
  repeat'
    first
    | with_reducible assumption | intro _ | with_reducible apply Keeps.ite | with_reducible apply Keeps.ite_fst
    | with_reducible apply State.modCore_keeps | with_reducible apply State.drainLine_keeps
    | with_reducible apply State.hostBytes_keeps | with_reducible refine Keeps.foldl ?_ _ _ ?_
    | with_reducible refine Keeps.foldl_fst ?_ _ _ ?_
    | with_reducible refine Keeps.of_fst (by with_reducible assumption) ?_ | split

/-- State.serveLand keeps all. -/
theorem State.serveLand_keeps {s0 s : State} (g : CoreId) (td : Td) (sp : SpoolId) (seq : Dword) (off : Nat) (l : List Byte) (hk : Keeps s0 s) :
    Keeps s0 (State.serveLand s g td sp seq off l) := by
  unfold State.serveLand
  try dsimp only
  repeat'
    first
    | with_reducible assumption | intro _ | with_reducible apply Keeps.ite | with_reducible apply Keeps.ite_fst
    | with_reducible apply State.captureDiscard_keeps | with_reducible apply State.stageLine_keeps
    | with_reducible apply State.modBolt_keeps | with_reducible refine Keeps.foldl ?_ _ _ ?_
    | with_reducible refine Keeps.foldl_fst ?_ _ _ ?_
    | with_reducible refine Keeps.of_fst (by with_reducible assumption) ?_ | split

/-! ## Reed -/

/-- State.reed keeps all. -/
theorem State.reed_keeps {s0 s : State} (g : CoreId) (opcode : Nat) (hk : Keeps s0 s) :
    Keeps s0 (State.reed s g opcode) := by
  unfold State.reed
  cases s.nextOp g 3 opcode
  all_goals try dsimp only
  repeat'
    first
    | with_reducible assumption | intro _ | with_reducible apply Keeps.ite | with_reducible apply Keeps.ite_fst
    | with_reducible apply State.drop_keeps | with_reducible apply State.accept_keeps
    | with_reducible refine Keeps.foldl ?_ _ _ ?_ | with_reducible refine Keeps.foldl_fst ?_ _ _ ?_
    | with_reducible refine Keeps.of_fst (by with_reducible assumption) ?_ | split

end Sys2Proof.Machine
end

