-- ==== Sys2Proof/Laws/KeepsPicks.lean ====
section
/-! SUPPORT. That each operation of the model keeps what Laws/Keeps.lean lists: Vote, Picks. -/

namespace Sys2Proof.Machine

/-! ## Vote -/

/-- State.setWeft keeps all. -/
theorem State.setWeft_keeps {s0 s : State} (n : Nat) (hk : Keeps s0 s) : Keeps s0 (State.setWeft s n) := by
  unfold State.setWeft
  try dsimp only
  repeat'
    first
    | with_reducible assumption | intro _ | with_reducible apply Keeps.ite | with_reducible apply Keeps.ite_fst
    | with_reducible apply State.setReg_keeps

/-- State.modHeddle keeps all. -/
theorem State.modHeddle_keeps {s0 s : State} (f : Heddle → Heddle) (hk : Keeps s0 s) : Keeps s0 (State.modHeddle s f) := by
  unfold State.modHeddle
  try dsimp only
  repeat'
    first
    | with_reducible assumption | intro _ | with_reducible apply Keeps.ite | with_reducible apply Keeps.ite_fst
    | with_reducible refine Keeps.foldl ?_ _ _ ?_ | with_reducible refine Keeps.foldl_fst ?_ _ _ ?_
    | with_reducible refine Keeps.of_fst (by with_reducible assumption) ?_ | split
    | with_reducible refine Keeps.record ?_ rfl rfl rfl rfl rfl

/-- State.weftNs keeps all. -/
theorem State.weftNs_keeps {s0 s : State} (hk : Keeps s0 s) : Keeps s0 (State.weftNs s) := by
  unfold State.weftNs
  try dsimp only
  repeat'
    first
    | with_reducible assumption | intro _ | with_reducible apply Keeps.ite | with_reducible apply Keeps.ite_fst
    | with_reducible apply State.setWeft_keeps | with_reducible apply State.modHeddle_keeps

/-- State.refLost keeps all. -/
theorem State.refLost_keeps {s0 s : State} (hk : Keeps s0 s) : Keeps s0 (State.refLost s) := by
  unfold State.refLost
  try dsimp only
  repeat'
    first
    | with_reducible assumption | intro _ | with_reducible apply Keeps.ite | with_reducible apply Keeps.ite_fst
    | with_reducible apply State.modReg_keeps | with_reducible apply State.modHeddle_keeps
    | with_reducible apply State.logHdl_keeps

/-- State.refReturn keeps all. -/
theorem State.refReturn_keeps {s0 s : State} (err : Int) (hk : Keeps s0 s) : Keeps s0 (State.refReturn s err) := by
  unfold State.refReturn
  try dsimp only
  repeat'
    first
    | with_reducible assumption | intro _ | with_reducible apply Keeps.ite | with_reducible apply Keeps.ite_fst
    | with_reducible apply State.refLost_keeps | with_reducible apply State.modReg_keeps
    | with_reducible apply State.modHeddle_keeps | with_reducible apply State.logHdl_keeps

/-- State.sendCtrl keeps all. -/
theorem State.sendCtrl_keeps {s0 s : State} (p : PortId) (body : List Byte) (hk : Keeps s0 s) :
    Keeps s0 (State.sendCtrl s p body) := by
  unfold State.sendCtrl
  try dsimp only
  repeat'
    first
    | with_reducible assumption | intro _ | with_reducible apply Keeps.ite | with_reducible apply Keeps.ite_fst
    | with_reducible apply State.setPort_keeps

/-- State.toChildren keeps all. -/
theorem State.toChildren_keeps {s0 s : State} (body : List Byte) (hk : Keeps s0 s) : Keeps s0 (State.toChildren s body) := by
  unfold State.toChildren
  try dsimp only
  repeat'
    first
    | with_reducible assumption | intro _ | with_reducible apply Keeps.ite | with_reducible apply Keeps.ite_fst
    | with_reducible apply State.sendCtrl_keeps | with_reducible refine Keeps.foldl ?_ _ _ ?_

/-- State.commitCore keeps all. -/
theorem State.commitCore_keeps {s0 s : State} (g : CoreId) (hk : Keeps s0 s) : Keeps s0 (State.commitCore s g) := by
  unfold State.commitCore
  try dsimp only
  repeat'
    first
    | with_reducible assumption | intro _ | with_reducible apply Keeps.ite | with_reducible apply Keeps.ite_fst
    | with_reducible apply State.ccount_keeps | with_reducible apply State.modCore_keeps

/-- State.commit keeps all. -/
theorem State.commit_keeps {s0 s : State} (x : BitVec 256) (hk : Keeps s0 s) : Keeps s0 (State.commit s x) := by
  unfold State.commit
  try dsimp only
  repeat'
    first
    | with_reducible assumption | intro _ | with_reducible apply Keeps.ite | with_reducible apply Keeps.ite_fst
    | with_reducible apply State.setReg_keeps | with_reducible apply State.modReg_keeps
    | with_reducible apply State.modHeddle_keeps | with_reducible apply State.commitCore_keeps
    | with_reducible apply State.histAdd_keeps | with_reducible refine Keeps.foldl ?_ _ _ ?_

/-- State.selectDue keeps all. -/
theorem State.selectDue_keeps {s0 s : State} (g : CoreId) (hk : Keeps s0 s) : Keeps s0 (State.selectDue s g) := by
  unfold State.selectDue
  try dsimp only
  repeat'
    first
    | with_reducible assumption | intro _ | with_reducible apply Keeps.ite | with_reducible apply Keeps.ite_fst
    | with_reducible apply State.modCore_keeps

/-- State.finishDrain keeps all. -/
theorem State.finishDrain_keeps {s0 s : State} (g : CoreId) (hk : Keeps s0 s) : Keeps s0 (State.finishDrain s g) := by
  unfold State.finishDrain
  try dsimp only
  repeat'
    first
    | with_reducible assumption | intro _ | with_reducible apply Keeps.ite | with_reducible apply Keeps.ite_fst
    | with_reducible apply State.drainLineOf_keeps | with_reducible apply State.modCore_keeps
    | with_reducible apply State.fellUse_keeps | with_reducible apply State.boltsLanded_keeps
    | with_reducible apply State.selectDue_keeps | with_reducible refine Keeps.foldl ?_ _ _ ?_

/-- State.drainEnd keeps all. -/
theorem State.drainEnd_keeps {s0 s : State} (g : CoreId) (hk : Keeps s0 s) : Keeps s0 (State.drainEnd s g) := by
  unfold State.drainEnd
  try dsimp only
  repeat'
    first
    | with_reducible assumption | intro _ | with_reducible apply Keeps.ite | with_reducible apply Keeps.ite_fst
    | with_reducible apply State.finishDrain_keeps

/-- State.squashCore keeps all. -/
theorem State.squashCore_keeps {s0 s : State} (g : CoreId) (hk : Keeps s0 s) : Keeps s0 (State.squashCore s g) := by
  unfold State.squashCore
  try dsimp only
  repeat'
    first
    | with_reducible assumption | intro _ | with_reducible apply Keeps.ite | with_reducible apply Keeps.ite_fst
    | with_reducible apply State.freeTrk_keeps | with_reducible apply State.modCore_keeps
    | with_reducible apply State.undoStart_keeps | with_reducible refine Keeps.foldl ?_ _ _ ?_

/-- State.dropCore keeps all. -/
theorem State.dropCore_keeps {s0 s : State} (g : CoreId) (hk : Keeps s0 s) : Keeps s0 (State.dropCore s g) := by
  unfold State.dropCore
  try dsimp only
  repeat'
    first
    | with_reducible assumption | intro _ | with_reducible apply Keeps.ite | with_reducible apply Keeps.ite_fst
    | with_reducible apply State.modCore_keeps | with_reducible apply State.squashCore_keeps

/-- State.restoreKnots keeps all. -/
theorem State.restoreKnots_keeps {s0 s : State} (snap : List (Nat × Dword)) (hk : Keeps s0 s) :
    Keeps s0 (s.restoreKnots snap) := by
  unfold State.restoreKnots
  refine Keeps.foldl ?_ _ _ fun u x hu => State.setReg_keeps _ _ (State.setReg_keeps _ _ hu)
  exact Keeps.dropRegs hk _

/-- State.logDrop keeps all. -/
theorem State.logDrop_keeps {s0 s : State} (id : Nat) (data : Dword) (hk : Keeps s0 s) :
    Keeps s0 (State.logDrop s id data) := by
  unfold State.logDrop
  try dsimp only
  repeat'
    first
    | with_reducible assumption | intro _ | with_reducible apply Keeps.ite | with_reducible apply Keeps.ite_fst
    | with_reducible apply State.setLog_keeps

/-- State.reportFell keeps all. -/
theorem State.reportFell_keeps {s0 s : State} (id code pkg voter late card step : Nat) (bolt : Option (Td × Nat × Dword)) (hk : Keeps s0 s) :
    Keeps s0 (State.reportFell s id code pkg voter late card step bolt) := by
  unfold State.reportFell
  try dsimp only
  repeat'
    first
    | with_reducible assumption | intro _ | with_reducible apply Keeps.ite | with_reducible apply Keeps.ite_fst
    | with_reducible apply State.count_keeps | with_reducible apply State.setReg_keeps
    | with_reducible apply State.logDrop_keeps | with_reducible apply State.reportDrop_keeps

/-- State.drop keeps all. -/
theorem State.drop_keeps {s0 s : State} (code pkg voter late card step : Nat) (hk : Keeps s0 s) :
    Keeps s0 (State.drop s code pkg voter late card step) := by
  unfold State.drop
  try dsimp only
  repeat'
    first
    | with_reducible assumption | intro _ | with_reducible apply Keeps.ite | with_reducible apply Keeps.ite_fst
    | with_reducible apply State.setReg_keeps | with_reducible apply State.reportFell_keeps
    | with_reducible apply State.boltsDropped_keeps | with_reducible apply State.modHeddle_keeps
    | with_reducible apply State.dropCore_keeps | with_reducible apply State.restoreKnots_keeps
    | with_reducible apply State.histAdd_keeps | with_reducible refine Keeps.foldl ?_ _ _ ?_

/-- State.squashEnd keeps all. -/
theorem State.squashEnd_keeps {s0 s : State} (g : CoreId) (hk : Keeps s0 s) : Keeps s0 (State.squashEnd s g) := by
  unfold State.squashEnd
  try dsimp only
  repeat'
    first
    | with_reducible assumption | intro _ | with_reducible apply Keeps.ite | with_reducible apply Keeps.ite_fst
    | with_reducible apply State.modCore_keeps | with_reducible apply State.selectDue_keeps

/-- State.sendLate keeps all. -/
theorem State.sendLate_keeps {s0 s : State} (code voter late card step : Nat) (hk : Keeps s0 s) :
    Keeps s0 (State.sendLate s code voter late card step) := by
  unfold State.sendLate
  try dsimp only
  repeat'
    first
    | with_reducible assumption | intro _ | with_reducible apply Keeps.ite | with_reducible apply Keeps.ite_fst
    | with_reducible apply State.sendCtrl_keeps | with_reducible apply State.toChildren_keeps
    | with_reducible apply State.drop_keeps

/-- State.voteLate keeps all. -/
theorem State.voteLate_keeps {s0 s : State} (hk : Keeps s0 s) : Keeps s0 (State.voteLate s) := by
  unfold State.voteLate
  try dsimp only
  repeat'
    first
    | with_reducible assumption | intro _ | with_reducible apply Keeps.ite | with_reducible apply Keeps.ite_fst
    | with_reducible apply State.sendLate_keeps | with_reducible refine Keeps.foldl ?_ _ _ ?_
    | with_reducible refine Keeps.foldl_fst ?_ _ _ ?_
    | with_reducible refine Keeps.of_fst (by with_reducible assumption) ?_ | split

/-- State.decideCommit keeps all. -/
theorem State.decideCommit_keeps {s0 s : State} (x : BitVec 256) (hk : Keeps s0 s) : Keeps s0 (State.decideCommit s x) := by
  unfold State.decideCommit
  try dsimp only
  repeat'
    first
    | with_reducible assumption | intro _ | with_reducible apply Keeps.ite | with_reducible apply Keeps.ite_fst
    | with_reducible apply State.commit_keeps | with_reducible apply State.modHeddle_keeps

/-- State.tryReady keeps all. -/
theorem State.tryReady_keeps {s0 s : State} (hk : Keeps s0 s) : Keeps s0 (State.tryReady s) := by
  unfold State.tryReady
  try dsimp only
  repeat'
    first
    | with_reducible assumption | intro _ | with_reducible apply Keeps.ite | with_reducible apply Keeps.ite_fst
    | with_reducible apply State.toChildren_keeps | with_reducible apply State.decideCommit_keeps
    | with_reducible apply State.sendCtrl_keeps

/-- State.ledgerCheck keeps all. -/
theorem State.ledgerCheck_keeps {s0 s : State} (hk : Keeps s0 s) : Keeps s0 (State.ledgerCheck s) := by
  unfold State.ledgerCheck
  try dsimp only
  repeat'
    first
    | with_reducible assumption | intro _ | with_reducible apply Keeps.ite | with_reducible apply Keeps.ite_fst
    | with_reducible apply State.modHeddle_keeps | with_reducible apply State.tryReady_keeps
    | with_reducible apply State.setReg_keeps | with_reducible apply State.count_keeps
    | with_reducible apply State.logOvs_keeps | with_reducible apply State.sendLate_keeps
    | with_reducible refine Keeps.foldl ?_ _ _ ?_ | with_reducible refine Keeps.foldl_fst ?_ _ _ ?_
    | with_reducible refine Keeps.of_fst (by with_reducible assumption) ?_ | split

/-- State.windowOpen keeps all. -/
theorem State.windowOpen_keeps {s0 s : State} (hk : Keeps s0 s) : Keeps s0 (State.windowOpen s) := by
  unfold State.windowOpen
  try dsimp only
  repeat'
    first
    | with_reducible assumption | intro _ | with_reducible apply Keeps.ite | with_reducible apply Keeps.ite_fst
    | with_reducible apply State.modHeddle_keeps | with_reducible apply State.outsLate_keeps
    | with_reducible apply State.tallyWindow_keeps | with_reducible apply State.voteLate_keeps
    | with_reducible apply State.commit_keeps | with_reducible refine Keeps.foldl ?_ _ _ ?_
    | with_reducible refine Keeps.foldl_fst ?_ _ _ ?_
    | with_reducible refine Keeps.of_fst (by with_reducible assumption) ?_ | split

/-- State.unresolve keeps all. -/
theorem State.unresolve_keeps {s0 s : State} (hk : Keeps s0 s) : Keeps s0 (State.unresolve s) := by
  unfold State.unresolve
  try dsimp only
  repeat'
    first
    | with_reducible assumption | intro _ | with_reducible apply Keeps.ite | with_reducible apply Keeps.ite_fst
    | with_reducible apply State.setReg_keeps | with_reducible apply State.logHdl_keeps
    | with_reducible apply State.modHeddle_keeps | with_reducible apply State.nextFree_keeps
    | with_reducible apply State.modCore_keeps | with_reducible apply State.undoStart_keeps
    | with_reducible apply State.histAdd_keeps | with_reducible refine Keeps.foldl ?_ _ _ ?_

/-- State.decisionDeadline keeps all. -/
theorem State.decisionDeadline_keeps {s0 s : State} (hk : Keeps s0 s) : Keeps s0 (State.decisionDeadline s) := by
  unfold State.decisionDeadline
  try dsimp only
  repeat'
    first
    | with_reducible assumption | intro _ | with_reducible apply Keeps.ite | with_reducible apply Keeps.ite_fst
    | with_reducible apply State.toChildren_keeps | with_reducible apply State.drop_keeps
    | with_reducible apply State.unresolve_keeps

/-- What State.takeCtrl answers keeps all. -/
theorem State.takeCtrl_keeps {s0 s t : State} {p : PortId} {kind : Nat} {b : List Byte} (e : s.takeCtrl p kind = some (b, t))
    (hk : Keeps s0 s) : Keeps s0 t := by
  unfold State.takeCtrl at e
  split at e
  · split at e
    · cases e; exact State.setPort_keeps _ _ hk
    · cases e
  · cases e

/-- State.readyRecord keeps all. -/
theorem State.readyRecord_keeps {s0 s : State} (p : PortId) (hk : Keeps s0 s) : Keeps s0 (State.readyRecord s p) := by
  unfold State.readyRecord
  try dsimp only
  repeat'
    first
    | with_reducible assumption | intro _ | with_reducible apply Keeps.ite | with_reducible apply Keeps.ite_fst
    | with_reducible apply State.modHeddle_keeps | with_reducible apply State.tryReady_keeps
    | exact State.takeCtrl_keeps (by with_reducible assumption) (by with_reducible assumption)
    | with_reducible refine Keeps.foldl ?_ _ _ ?_ | with_reducible refine Keeps.foldl_fst ?_ _ _ ?_
    | with_reducible refine Keeps.of_fst (by with_reducible assumption) ?_ | split

/-- State.lateRecord keeps all. -/
theorem State.lateRecord_keeps {s0 s : State} (p : PortId) (hk : Keeps s0 s) : Keeps s0 (State.lateRecord s p) := by
  unfold State.lateRecord
  try dsimp only
  repeat'
    first
    | with_reducible assumption | intro _ | with_reducible apply Keeps.ite | with_reducible apply Keeps.ite_fst
    | with_reducible apply State.sendCtrl_keeps | with_reducible apply State.toChildren_keeps
    | with_reducible apply State.drop_keeps
    | exact State.takeCtrl_keeps (by with_reducible assumption) (by with_reducible assumption)
    | with_reducible refine Keeps.foldl ?_ _ _ ?_ | with_reducible refine Keeps.foldl_fst ?_ _ _ ?_
    | with_reducible refine Keeps.of_fst (by with_reducible assumption) ?_ | split

/-- State.decisionRecord keeps all. -/
theorem State.decisionRecord_keeps {s0 s : State} (p : PortId) (hk : Keeps s0 s) : Keeps s0 (State.decisionRecord s p) := by
  unfold State.decisionRecord
  try dsimp only
  repeat'
    first
    | with_reducible assumption | intro _ | with_reducible apply Keeps.ite | with_reducible apply Keeps.ite_fst
    | with_reducible apply State.toChildren_keeps | with_reducible apply State.decideCommit_keeps
    | with_reducible apply State.drop_keeps
    | exact State.takeCtrl_keeps (by with_reducible assumption) (by with_reducible assumption)
    | with_reducible refine Keeps.foldl ?_ _ _ ?_ | with_reducible refine Keeps.foldl_fst ?_ _ _ ?_
    | with_reducible refine Keeps.of_fst (by with_reducible assumption) ?_ | split

/-- State.resolveBolts keeps all. -/
theorem State.resolveBolts_keeps {s0 s : State} (id : Nat) (hk : Keeps s0 s) : Keeps s0 (State.resolveBolts s id) := by
  unfold State.resolveBolts
  try dsimp only
  repeat'
    first
    | with_reducible assumption | intro _ | with_reducible apply Keeps.ite | with_reducible apply Keeps.ite_fst
    | with_reducible apply State.finishBolt_keeps | with_reducible refine Keeps.foldl ?_ _ _ ?_

/-- State.resolveHist keeps all. -/
theorem State.resolveHist_keeps {s0 s : State} (out : Nat) (hk : Keeps s0 s) : Keeps s0 (State.resolveHist s out) := by
  unfold State.resolveHist
  try dsimp only
  repeat'
    first
    | with_reducible assumption | intro _ | with_reducible apply Keeps.ite | with_reducible apply Keeps.ite_fst
    | with_reducible refine Keeps.foldl ?_ _ _ ?_ | with_reducible refine Keeps.foldl_fst ?_ _ _ ?_
    | with_reducible refine Keeps.of_fst (by with_reducible assumption) ?_ | split
    | with_reducible refine Keeps.record ?_ rfl rfl rfl rfl rfl

/-- State.resolveCommit keeps all. -/
theorem State.resolveCommit_keeps {s0 s : State} (id : Nat) (hk : Keeps s0 s) : Keeps s0 (State.resolveCommit s id) := by
  unfold State.resolveCommit
  try dsimp only
  repeat'
    first
    | with_reducible assumption | intro _ | with_reducible apply Keeps.ite | with_reducible apply Keeps.ite_fst
    | with_reducible apply State.modReg_keeps | with_reducible apply State.modHeddle_keeps
    | with_reducible apply State.ccount_keeps | with_reducible apply State.modCore_keeps
    | with_reducible refine Keeps.foldl ?_ _ _ ?_

/-- State.resolveDrop keeps all. -/
theorem State.resolveDrop_keeps {s0 s : State} (id : Nat) (hk : Keeps s0 s) : Keeps s0 (State.resolveDrop s id) := by
  unfold State.resolveDrop
  try dsimp only
  repeat'
    first
    | with_reducible assumption | intro _ | with_reducible apply Keeps.ite | with_reducible apply Keeps.ite_fst
    | with_reducible apply State.resolveBolts_keeps | with_reducible apply State.restoreKnots_keeps
    | with_reducible apply State.modHeddle_keeps | with_reducible apply State.modCore_keeps
    | with_reducible apply State.reportFell_keeps | with_reducible refine Keeps.foldl ?_ _ _ ?_

/-- State.fellResolve keeps all. -/
theorem State.fellResolve_keeps {s0 s : State} (val : Dword) (hk : Keeps s0 s) : Keeps s0 (State.fellResolve s val) := by
  unfold State.fellResolve
  try dsimp only
  repeat'
    first
    | with_reducible assumption | intro _ | with_reducible apply Keeps.ite | with_reducible apply Keeps.ite_fst
    | with_reducible apply State.setReg_keeps | with_reducible apply State.modHeddle_keeps
    | with_reducible apply State.resolveHist_keeps | with_reducible apply State.resolveCommit_keeps
    | with_reducible apply State.resolveDrop_keeps | with_reducible apply State.logHdl_keeps

/-! ## Picks -/

/-- State.setProg keeps all. -/
theorem State.setProg_keeps {s0 s : State} (st : Nat) (hk : Keeps s0 s) : Keeps s0 (State.setProg s st) := by
  unfold State.setProg
  try dsimp only
  repeat'
    first
    | with_reducible assumption | intro _ | with_reducible apply Keeps.ite | with_reducible apply Keeps.ite_fst
    | with_reducible apply State.setReg_keeps | with_reducible apply State.logHdl_keeps

/-- State.setRefuse keeps all. -/
theorem State.setRefuse_keeps {s0 s : State} (n : Nat) (hk : Keeps s0 s) : Keeps s0 (State.setRefuse s n) := by
  unfold State.setRefuse
  try dsimp only
  repeat'
    first
    | with_reducible assumption | intro _ | with_reducible apply Keeps.ite | with_reducible apply Keeps.ite_fst
    | with_reducible apply State.modReg_keeps

/-- State.coreStop keeps all. -/
theorem State.coreStop_keeps {s0 s : State} (g : CoreId) (hk : Keeps s0 s) : Keeps s0 (State.coreStop s g) := by
  unfold State.coreStop
  try dsimp only
  repeat'
    first
    | with_reducible assumption | intro _ | with_reducible apply Keeps.ite | with_reducible apply Keeps.ite_fst
    | with_reducible apply State.drainEntry_keeps | with_reducible apply State.endLoads_keeps
    | with_reducible apply State.modCore_keeps | with_reducible refine Keeps.foldl ?_ _ _ ?_

/-- State.stopProgram keeps all. -/
theorem State.stopProgram_keeps {s0 s : State} (hk : Keeps s0 s) : Keeps s0 (State.stopProgram s) := by
  unfold State.stopProgram
  try dsimp only
  repeat'
    first
    | with_reducible assumption | intro _ | with_reducible apply Keeps.ite | with_reducible apply Keeps.ite_fst
    | with_reducible apply State.coreStop_keeps | with_reducible apply State.setSd_keeps
    | with_reducible apply State.setProg_keeps | with_reducible refine Keeps.foldl ?_ _ _ ?_

/-- State.coreStart keeps all. -/
theorem State.coreStart_keeps {s0 s : State} (g : CoreId) (hk : Keeps s0 s) : Keeps s0 (State.coreStart s g) := by
  unfold State.coreStart
  try dsimp only
  repeat'
    first
    | with_reducible assumption | intro _ | with_reducible apply Keeps.ite | with_reducible apply Keeps.ite_fst
    | with_reducible apply State.setCreg_keeps | with_reducible apply State.modCore_keeps
    | with_reducible refine Keeps.foldl ?_ _ _ ?_

/-- State.startProgram keeps all. -/
theorem State.startProgram_keeps {s0 s : State} (hk : Keeps s0 s) : Keeps s0 (State.startProgram s) := by
  unfold State.startProgram
  try dsimp only
  repeat'
    first
    | with_reducible assumption | intro _ | with_reducible apply Keeps.ite | with_reducible apply Keeps.ite_fst
    | with_reducible apply State.historyAppend_keeps | with_reducible apply State.setDigest_keeps
    | with_reducible apply State.coreStart_keeps | with_reducible apply State.setProg_keeps
    | with_reducible refine Keeps.foldl ?_ _ _ ?_ | with_reducible refine Keeps.foldl_fst ?_ _ _ ?_
    | with_reducible refine Keeps.of_fst (by with_reducible assumption) ?_ | split
    | with_reducible refine Keeps.record ?_ rfl rfl rfl rfl rfl

/-- State.endCheck keeps all. -/
theorem State.endCheck_keeps {s0 s : State} (hk : Keeps s0 s) : Keeps s0 (State.endCheck s) := by
  unfold State.endCheck
  try dsimp only
  repeat'
    first
    | with_reducible assumption | intro _ | with_reducible apply Keeps.ite | with_reducible apply Keeps.ite_fst
    | with_reducible apply State.setProg_keeps

/-- State.progAtStart keeps all. -/
theorem State.progAtStart_keeps {s0 s : State} (hk : Keeps s0 s) : Keeps s0 (State.progAtStart s) := by
  unfold State.progAtStart
  try dsimp only
  repeat'
    first
    | with_reducible assumption | intro _ | with_reducible apply Keeps.ite | with_reducible apply Keeps.ite_fst
    | with_reducible apply State.stopProgram_keeps | with_reducible apply State.startProgram_keeps
    | with_reducible apply State.setRefuse_keeps | with_reducible apply State.setProg_keeps
    | with_reducible apply State.endCheck_keeps

/-- State.progStart keeps all. -/
theorem State.progStart_keeps {s0 s : State} (hk : Keeps s0 s) : Keeps s0 (State.progStart s) := by
  unfold State.progStart
  try dsimp only
  repeat'
    first
    | with_reducible assumption | intro _ | with_reducible apply Keeps.ite | with_reducible apply Keeps.ite_fst
    | with_reducible apply State.setRefuse_keeps | with_reducible apply State.setProg_keeps

/-- State.progStopNow keeps all. -/
theorem State.progStopNow_keeps {s0 s : State} (hk : Keeps s0 s) : Keeps s0 (State.progStopNow s) := by
  unfold State.progStopNow
  try dsimp only
  repeat'
    first
    | with_reducible assumption | intro _ | with_reducible apply Keeps.ite | with_reducible apply Keeps.ite_fst
    | with_reducible apply State.setProg_keeps | with_reducible apply State.stopProgram_keeps
    | with_reducible refine Keeps.foldl ?_ _ _ ?_ | with_reducible refine Keeps.foldl_fst ?_ _ _ ?_
    | with_reducible refine Keeps.of_fst (by with_reducible assumption) ?_ | split

/-- State.progStop keeps all. -/
theorem State.progStop_keeps {s0 s : State} (hk : Keeps s0 s) : Keeps s0 (State.progStop s) := by
  unfold State.progStop
  try dsimp only
  repeat'
    first
    | with_reducible assumption | intro _ | with_reducible apply Keeps.ite | with_reducible apply Keeps.ite_fst
    | with_reducible apply State.progStopNow_keeps

/-- State.progMap keeps all. -/
theorem State.progMap_keeps {s0 s : State} (m : Nat) (val : Word) (hk : Keeps s0 s) : Keeps s0 (State.progMap s m val) := by
  unfold State.progMap
  try dsimp only
  repeat'
    first
    | with_reducible assumption | intro _ | with_reducible apply Keeps.ite | with_reducible apply Keeps.ite_fst
    | with_reducible apply State.setReg_keeps

/-- State.progEnd keeps all. -/
theorem State.progEnd_keeps {s0 s : State} (val : Dword) (hk : Keeps s0 s) : Keeps s0 (State.progEnd s val) := by
  unfold State.progEnd
  try dsimp only
  repeat'
    first
    | with_reducible assumption | intro _ | with_reducible apply Keeps.ite | with_reducible apply Keeps.ite_fst
    | with_reducible apply State.setReg_keeps | with_reducible apply State.endCheck_keeps

/-- State.runWith keeps all. -/
theorem State.runWith_keeps {s0 s : State} (skip : Nat) (hk : Keeps s0 s) : Keeps s0 (State.runWith s skip) := by
  unfold State.runWith
  try dsimp only
  repeat'
    first
    | with_reducible assumption | intro _ | with_reducible apply Keeps.ite | with_reducible apply Keeps.ite_fst
    | with_reducible apply State.setReg_keeps | with_reducible apply State.modReg_keeps
    | with_reducible apply State.modHeddle_keeps | with_reducible refine Keeps.foldl ?_ _ _ ?_
    | with_reducible refine Keeps.foldl_fst ?_ _ _ ?_
    | with_reducible refine Keeps.of_fst (by with_reducible assumption) ?_ | split

/-- State.pickRun keeps all. -/
theorem State.pickRun_keeps {s0 s : State} (hk : Keeps s0 s) : Keeps s0 (State.pickRun s) := by
  unfold State.pickRun
  try dsimp only
  repeat'
    first
    | with_reducible assumption | intro _ | with_reducible apply Keeps.ite | with_reducible apply Keeps.ite_fst
    | with_reducible apply State.runWith_keeps

/-- State.lateSelect keeps all. -/
theorem State.lateSelect_keeps {s0 s : State} (g : CoreId) (hk : Keeps s0 s) : Keeps s0 (State.lateSelect s g) := by
  unfold State.lateSelect
  try dsimp only
  repeat'
    first
    | with_reducible assumption | intro _ | with_reducible apply Keeps.ite | with_reducible apply Keeps.ite_fst
    | with_reducible apply State.shedSelect_keeps | with_reducible apply State.selected_keeps
    | with_reducible refine Keeps.foldl ?_ _ _ ?_ | with_reducible refine Keeps.foldl_fst ?_ _ _ ?_
    | with_reducible refine Keeps.of_fst (by with_reducible assumption) ?_ | split

/-- State.settleCore keeps all. -/
theorem State.settleCore_keeps {s0 s : State} (g : CoreId) (hk : Keeps s0 s) : Keeps s0 (State.settleCore s g) := by
  unfold State.settleCore
  try dsimp only
  repeat'
    first
    | with_reducible assumption | intro _ | with_reducible apply Keeps.ite | with_reducible apply Keeps.ite_fst
    | with_reducible apply State.finishDrain_keeps | with_reducible apply State.undoEnds_keeps
    | with_reducible apply State.squashEnd_keeps | with_reducible apply State.lateSelect_keeps

/-- State.settle keeps all. -/
theorem State.settle_keeps {s0 s : State} (hk : Keeps s0 s) : Keeps s0 (State.settle s) := by
  unfold State.settle
  try dsimp only
  repeat'
    first
    | with_reducible assumption | intro _ | with_reducible apply Keeps.ite | with_reducible apply Keeps.ite_fst
    | with_reducible apply State.settleCore_keeps | with_reducible refine Keeps.foldl ?_ _ _ ?_

/-- State.endPrologue keeps all. -/
theorem State.endPrologue_keeps {s0 s : State} (g : CoreId) (hk : Keeps s0 s) : Keeps s0 (State.endPrologue s g) := by
  unfold State.endPrologue
  try dsimp only
  repeat'
    first
    | with_reducible assumption | intro _ | with_reducible apply Keeps.ite | with_reducible apply Keeps.ite_fst
    | with_reducible apply State.endLoads_keeps | with_reducible apply State.setSpec_keeps
    | with_reducible apply State.modCore_keeps

/-- State.endPicks keeps all. -/
theorem State.endPicks_keeps {s0 s : State} (hk : Keeps s0 s) : Keeps s0 (State.endPicks s) := by
  unfold State.endPicks
  try dsimp only
  repeat'
    first
    | with_reducible assumption | intro _ | with_reducible apply Keeps.ite | with_reducible apply Keeps.ite_fst
    | with_reducible apply State.settle_keeps | with_reducible apply State.modReg_keeps
    | with_reducible apply State.setReg_keeps | with_reducible apply State.modHeddle_keeps
    | with_reducible apply State.abortAll_keeps | with_reducible apply State.endPrologue_keeps
    | with_reducible apply State.haltCore_keeps | with_reducible apply State.stopProgram_keeps
    | with_reducible refine Keeps.foldl ?_ _ _ ?_

/-- State.dropRun keeps all. -/
theorem State.dropRun_keeps {s0 s : State} (hk : Keeps s0 s) : Keeps s0 (State.dropRun s) := by
  unfold State.dropRun
  try dsimp only
  repeat'
    first
    | with_reducible assumption | intro _ | with_reducible apply Keeps.ite | with_reducible apply Keeps.ite_fst
    | with_reducible apply State.setReg_keeps | with_reducible apply State.endPicks_keeps

/-- State.pickStop keeps all. -/
theorem State.pickStop_keeps {s0 s : State} (hk : Keeps s0 s) : Keeps s0 (State.pickStop s) := by
  unfold State.pickStop
  try dsimp only
  repeat'
    first
    | with_reducible assumption | intro _ | with_reducible apply Keeps.ite | with_reducible apply Keeps.ite_fst
    | with_reducible apply State.dropRun_keeps

/-- State.weftTick keeps all. -/
theorem State.weftTick_keeps {s0 s : State} (hk : Keeps s0 s) : Keeps s0 (State.weftTick s) := by
  unfold State.weftTick
  try dsimp only
  repeat'
    first
    | with_reducible assumption | intro _ | with_reducible apply Keeps.ite | with_reducible apply Keeps.ite_fst
    | with_reducible apply State.weftNs_keeps | with_reducible apply State.endPicks_keeps

/-- State.loadWeft keeps all. -/
theorem State.loadWeft_keeps {s0 s : State} (v : Nat) (hk : Keeps s0 s) : Keeps s0 (State.loadWeft s v) := by
  unfold State.loadWeft
  try dsimp only
  repeat'
    first
    | with_reducible assumption | intro _ | with_reducible apply Keeps.ite | with_reducible apply Keeps.ite_fst
    | with_reducible apply State.modReg_keeps | with_reducible apply State.setReg_keeps
    | with_reducible apply State.setWeft_keeps

/-- State.clearLow keeps all. -/
theorem State.clearLow_keeps {s0 s : State} (req : Requester) (a : Nat) (hk : Keeps s0 s) :
    Keeps s0 (State.clearLow s req a) := by
  unfold State.clearLow
  try dsimp only
  repeat'
    first
    | with_reducible assumption | intro _ | with_reducible apply Keeps.ite | with_reducible apply Keeps.ite_fst
    | with_reducible refine Keeps.foldl ?_ _ _ ?_ | with_reducible refine Keeps.foldl_fst ?_ _ _ ?_
    | with_reducible refine Keeps.of_fst (by with_reducible assumption) ?_ | split
    | with_reducible refine Keeps.record ?_ rfl rfl rfl rfl rfl

/-- State.weftSet keeps all. -/
theorem State.weftSet_keeps {s0 s : State} (req : Requester) (hi : Word) (hk : Keeps s0 s) :
    Keeps s0 (State.weftSet s req hi) := by
  unfold State.weftSet
  try dsimp only
  repeat'
    first
    | with_reducible assumption | intro _ | with_reducible apply Keeps.ite | with_reducible apply Keeps.ite_fst
    | with_reducible apply State.loadWeft_keeps | with_reducible apply State.clearLow_keeps

/-- State.periodWrite keeps all. -/
theorem State.periodWrite_keeps {s0 s : State} (val : Word) (hk : Keeps s0 s) : Keeps s0 (State.periodWrite s val) := by
  unfold State.periodWrite
  try dsimp only
  repeat'
    first
    | with_reducible assumption | intro _ | with_reducible apply Keeps.ite | with_reducible apply Keeps.ite_fst
    | with_reducible apply State.setReg_keeps

/-- State.reserveWrite keeps all. -/
theorem State.reserveWrite_keeps {s0 s : State} (val : Word) (hk : Keeps s0 s) : Keeps s0 (State.reserveWrite s val) := by
  unfold State.reserveWrite
  try dsimp only
  repeat'
    first
    | with_reducible assumption | intro _ | with_reducible apply Keeps.ite | with_reducible apply Keeps.ite_fst
    | with_reducible apply State.setReg_keeps

/-- State.hopsWrite keeps all. -/
theorem State.hopsWrite_keeps {s0 s : State} (val : Word) (hk : Keeps s0 s) : Keeps s0 (State.hopsWrite s val) := by
  unfold State.hopsWrite
  try dsimp only
  repeat'
    first
    | with_reducible assumption | intro _ | with_reducible apply Keeps.ite | with_reducible apply Keeps.ite_fst
    | with_reducible apply State.setReg_keeps

/-- State.timeoutWrite keeps all. -/
theorem State.timeoutWrite_keeps {s0 s : State} (val : Word) (hk : Keeps s0 s) : Keeps s0 (State.timeoutWrite s val) := by
  unfold State.timeoutWrite
  try dsimp only
  repeat'
    first
    | with_reducible assumption | intro _ | with_reducible apply Keeps.ite | with_reducible apply Keeps.ite_fst
    | with_reducible apply State.setReg_keeps

/-- State.kpairWrite keeps all. -/
theorem State.kpairWrite_keeps {s0 s : State} (n : Nat) (val : Dword) (hk : Keeps s0 s) :
    Keeps s0 (State.kpairWrite s n val) := by
  unfold State.kpairWrite
  try dsimp only
  repeat'
    first
    | with_reducible assumption | intro _ | with_reducible apply Keeps.ite | with_reducible apply Keeps.ite_fst
    | with_reducible apply State.setReg_keeps

/-- State.snapKnots keeps all. -/
theorem State.snapKnots_keeps {s0 s : State} (hk : Keeps s0 s) : Keeps s0 s.snapKnots := by
  unfold State.snapKnots
  refine State.modHeddle_keeps _ (Keeps.foldl ?_ _ _ fun u x hu => State.setReg_keeps _ _ hu)
  exact Keeps.dropRegs hk _

/-- State.undefAtStart keeps all. -/
theorem State.undefAtStart_keeps {s0 s : State} (hk : Keeps s0 s) : Keeps s0 (State.undefAtStart s) := by
  unfold State.undefAtStart
  try dsimp only
  repeat'
    first
    | with_reducible assumption | intro _ | with_reducible apply Keeps.ite | with_reducible apply Keeps.ite_fst
    | with_reducible refine Keeps.foldl ?_ _ _ ?_ | with_reducible refine Keeps.foldl_fst ?_ _ _ ?_
    | with_reducible refine Keeps.of_fst (by with_reducible assumption) ?_ | split
    | with_reducible refine Keeps.record ?_ rfl rfl rfl rfl rfl

/-- State.clearPick keeps all. -/
theorem State.clearPick_keeps {s0 s : State} (g : CoreId) (hk : Keeps s0 s) : Keeps s0 (State.clearPick s g) := by
  unfold State.clearPick
  try dsimp only
  repeat'
    first
    | with_reducible assumption | intro _ | with_reducible apply Keeps.ite | with_reducible apply Keeps.ite_fst
    | with_reducible apply State.setCreg_keeps | with_reducible apply State.trackHigh_keeps
    | with_reducible apply State.modCore_keeps | with_reducible refine Keeps.foldl ?_ _ _ ?_

/-- State.corePickStart keeps all. -/
theorem State.corePickStart_keeps {s0 s : State} (g : CoreId) (hk : Keeps s0 s) : Keeps s0 (State.corePickStart s g) := by
  unfold State.corePickStart
  try dsimp only
  repeat'
    first
    | with_reducible assumption | intro _ | with_reducible apply Keeps.ite | with_reducible apply Keeps.ite_fst
    | with_reducible apply State.clearPick_keeps | with_reducible apply State.modCore_keeps
    | with_reducible apply State.curVariant_keeps | with_reducible apply State.knotClk_keeps
    | with_reducible apply State.sourceError_keeps | with_reducible refine Keeps.foldl ?_ _ _ ?_

/-- State.ovsPickStart keeps all. -/
theorem State.ovsPickStart_keeps {s0 s : State} (hk : Keeps s0 s) : Keeps s0 (State.ovsPickStart s) := by
  unfold State.ovsPickStart
  try dsimp only
  repeat'
    first
    | with_reducible assumption | intro _ | with_reducible apply Keeps.ite | with_reducible apply Keeps.ite_fst
    | with_reducible apply State.modReg_keeps | with_reducible refine Keeps.foldl ?_ _ _ ?_
    | with_reducible refine Keeps.foldl_fst ?_ _ _ ?_
    | with_reducible refine Keeps.of_fst (by with_reducible assumption) ?_ | split
    | with_reducible refine Keeps.record ?_ rfl rfl rfl rfl rfl

/-- State.nextIdentity keeps all. -/
theorem State.nextIdentity_keeps {s0 s : State} (hk : Keeps s0 s) : Keeps s0 (State.nextIdentity s) := by
  unfold State.nextIdentity
  try dsimp only
  repeat'
    first
    | with_reducible assumption | intro _ | with_reducible apply Keeps.ite | with_reducible apply Keeps.ite_fst
    | with_reducible apply State.setReg_keeps

/-- State.startPick keeps all. -/
theorem State.startPick_keeps {s0 s : State} (hk : Keeps s0 s) : Keeps s0 (State.startPick s) := by
  unfold State.startPick
  try dsimp only
  repeat'
    first
    | with_reducible assumption | intro _ | with_reducible apply Keeps.ite | with_reducible apply Keeps.ite_fst
    | with_reducible apply State.settle_keeps | with_reducible apply State.nextIdentity_keeps
    | with_reducible apply State.modHeddle_keeps | with_reducible apply State.modCore_keeps
    | with_reducible apply State.progAtStart_keeps | with_reducible apply State.ovsPickStart_keeps
    | with_reducible apply State.undefAtStart_keeps | with_reducible apply State.snapKnots_keeps
    | with_reducible apply State.setSd_keeps | with_reducible apply State.setTd_keeps
    | with_reducible apply State.corePickStart_keeps | with_reducible apply State.tallyPickStart_keeps
    | with_reducible refine Keeps.foldl ?_ _ _ ?_

/-- State.pickStart keeps all. -/
theorem State.pickStart_keeps {s0 s : State} (hk : Keeps s0 s) : Keeps s0 (State.pickStart s) := by
  unfold State.pickStart
  try dsimp only
  repeat'
    first
    | with_reducible assumption | intro _ | with_reducible apply Keeps.ite | with_reducible apply Keeps.ite_fst
    | with_reducible apply State.startPick_keeps | with_reducible apply State.endPicks_keeps

/-- State.ackTimeout keeps all. -/
theorem State.ackTimeout_keeps {s0 s : State} (g : CoreId) (hk : Keeps s0 s) : Keeps s0 (State.ackTimeout s g) := by
  unfold State.ackTimeout
  try dsimp only
  repeat'
    first
    | with_reducible assumption | intro _ | with_reducible apply Keeps.ite | with_reducible apply Keeps.ite_fst
    | with_reducible apply State.halt_keeps

end Sys2Proof.Machine
end

