-- ==== Sys2Proof/Laws/KeepsLinks.lean ====
section
/-! SUPPORT. That each operation of the model keeps what Laws/Keeps.lean lists: Link, Remote, Launch, HostPort. -/

namespace Sys2Proof.Machine

/-! ## Link -/

/-- State.portField keeps all. -/
theorem State.portField_keeps {s0 s : State} (p : PortId) (hi lo x : Nat) (hk : Keeps s0 s) :
    Keeps s0 (State.portField s p hi lo x) := by
  unfold State.portField
  try dsimp only
  repeat'
    first
    | with_reducible assumption | intro _ | with_reducible apply Keeps.ite | with_reducible apply Keeps.ite_fst
    | with_reducible apply State.modReg_keeps

/-- State.modPort keeps all. -/
theorem State.modPort_keeps {s0 s : State} (p : PortId) (f : Port → Port) (hk : Keeps s0 s) :
    Keeps s0 (State.modPort s p f) := by
  unfold State.modPort
  try dsimp only
  repeat'
    first
    | with_reducible assumption | intro _ | with_reducible apply Keeps.ite | with_reducible apply Keeps.ite_fst
    | with_reducible apply State.setPort_keeps

/-- State.toDetect keeps all. -/
theorem State.toDetect_keeps {s0 s : State} (p : PortId) (hk : Keeps s0 s) : Keeps s0 (State.toDetect s p) := by
  unfold State.toDetect
  try dsimp only
  repeat'
    first
    | with_reducible assumption | intro _ | with_reducible apply Keeps.ite | with_reducible apply Keeps.ite_fst
    | with_reducible apply State.portField_keeps | with_reducible apply State.setPort_keeps

/-- State.markDown keeps all. -/
theorem State.markDown_keeps {s0 s : State} (p : PortId) (hk : Keeps s0 s) : Keeps s0 (State.markDown s p) := by
  unfold State.markDown
  try dsimp only
  repeat'
    first
    | with_reducible assumption | intro _ | with_reducible apply Keeps.ite | with_reducible apply Keeps.ite_fst
    | with_reducible apply State.modReg_keeps | with_reducible refine Keeps.foldl ?_ _ _ ?_

/-- State.linkLost keeps all. -/
theorem State.linkLost_keeps {s0 s : State} (p : PortId) (hk : Keeps s0 s) : Keeps s0 (State.linkLost s p) := by
  unfold State.linkLost
  try dsimp only
  repeat'
    first
    | with_reducible assumption | intro _ | with_reducible apply Keeps.ite | with_reducible apply Keeps.ite_fst
    | with_reducible apply State.setSd_keeps | with_reducible apply State.linkFailed_keeps
    | with_reducible refine Keeps.foldl ?_ _ _ ?_

/-- State.portDown keeps all. -/
theorem State.portDown_keeps {s0 s : State} (p : PortId) (cause to' : Nat) (hk : Keeps s0 s) :
    Keeps s0 (State.portDown s p cause to') := by
  unfold State.portDown
  try dsimp only
  repeat'
    first
    | with_reducible assumption | intro _ | with_reducible apply Keeps.ite | with_reducible apply Keeps.ite_fst
    | with_reducible apply State.portField_keeps | with_reducible apply State.count_keeps
    | with_reducible apply State.logSd_keeps | with_reducible apply State.markDown_keeps
    | with_reducible apply State.setPort_keeps | with_reducible apply State.linkLost_keeps
    | with_reducible apply State.setSd_keeps | with_reducible apply State.sdCause_keeps

/-- State.portFault keeps all. -/
theorem State.portFault_keeps {s0 s : State} (p : PortId) (cause : Nat) (hk : Keeps s0 s) :
    Keeps s0 (State.portFault s p cause) := by
  unfold State.portFault
  try dsimp only
  repeat'
    first
    | with_reducible assumption | intro _ | with_reducible apply Keeps.ite | with_reducible apply Keeps.ite_fst
    | with_reducible apply State.portField_keeps | with_reducible apply State.setPort_keeps
    | with_reducible apply State.logSd_keeps

/-- State.portOff keeps all. -/
theorem State.portOff_keeps {s0 s : State} (p : PortId) (hk : Keeps s0 s) : Keeps s0 (State.portOff s p) := by
  unfold State.portOff
  try dsimp only
  repeat'
    first
    | with_reducible assumption | intro _ | with_reducible apply Keeps.ite | with_reducible apply Keeps.ite_fst
    | with_reducible apply State.portDown_keeps | with_reducible apply State.portField_keeps
    | with_reducible apply State.setPort_keeps

/-- State.portRst keeps all. -/
theorem State.portRst_keeps {s0 s : State} (p : PortId) (hk : Keeps s0 s) : Keeps s0 (State.portRst s p) := by
  unfold State.portRst
  try dsimp only
  repeat'
    first
    | with_reducible assumption | intro _ | with_reducible apply Keeps.ite | with_reducible apply Keeps.ite_fst
    | with_reducible apply State.portField_keeps | with_reducible apply State.toDetect_keeps

/-- State.portCtrl keeps all. -/
theorem State.portCtrl_keeps {s0 s : State} (p : PortId) (val : Word) (hk : Keeps s0 s) :
    Keeps s0 (State.portCtrl s p val) := by
  unfold State.portCtrl
  try dsimp only
  repeat'
    first
    | with_reducible assumption | intro _ | with_reducible apply Keeps.ite | with_reducible apply Keeps.ite_fst
    | with_reducible apply State.setReg_keeps | with_reducible apply State.portField_keeps
    | with_reducible apply State.portOff_keeps | with_reducible apply State.portRst_keeps
    | with_reducible apply State.toDetect_keeps

/-- State.portCred keeps all. -/
theorem State.portCred_keeps {s0 s : State} (p : PortId) (val : Word) (hk : Keeps s0 s) :
    Keeps s0 (State.portCred s p val) := by
  unfold State.portCred
  try dsimp only
  repeat'
    first
    | with_reducible assumption | intro _ | with_reducible apply Keeps.ite | with_reducible apply Keeps.ite_fst
    | with_reducible apply State.setReg_keeps

/-- State.detectRound keeps all. -/
theorem State.detectRound_keeps {s0 s : State} (p : PortId) (hk : Keeps s0 s) : Keeps s0 (State.detectRound s p) := by
  unfold State.detectRound
  try dsimp only
  repeat'
    first
    | with_reducible assumption | intro _ | with_reducible apply Keeps.ite | with_reducible apply Keeps.ite_fst
    | with_reducible apply State.setPort_keeps

/-- State.detectEnd keeps all. -/
theorem State.detectEnd_keeps {s0 s : State} (p : PortId) (hk : Keeps s0 s) : Keeps s0 (State.detectEnd s p) := by
  unfold State.detectEnd
  try dsimp only
  repeat'
    first
    | with_reducible assumption | intro _ | with_reducible apply Keeps.ite | with_reducible apply Keeps.ite_fst
    | with_reducible apply State.modPort_keeps | with_reducible apply State.portField_keeps
    | with_reducible refine Keeps.foldl ?_ _ _ ?_ | with_reducible refine Keeps.foldl_fst ?_ _ _ ?_
    | with_reducible refine Keeps.of_fst (by with_reducible assumption) ?_ | split

/-- State.signalDetect keeps all. -/
theorem State.signalDetect_keeps {s0 s : State} (p : PortId) (hk : Keeps s0 s) : Keeps s0 (State.signalDetect s p) := by
  unfold State.signalDetect
  try dsimp only
  repeat'
    first
    | with_reducible assumption | intro _ | with_reducible apply Keeps.ite | with_reducible apply Keeps.ite_fst
    | with_reducible apply State.portField_keeps | with_reducible apply State.modPort_keeps

/-- State.trainDone keeps all. -/
theorem State.trainDone_keeps {s0 s : State} (p : PortId) (hk : Keeps s0 s) : Keeps s0 (State.trainDone s p) := by
  unfold State.trainDone
  try dsimp only
  repeat'
    first
    | with_reducible assumption | intro _ | with_reducible apply Keeps.ite | with_reducible apply Keeps.ite_fst
    | with_reducible apply State.portField_keeps | with_reducible apply State.modPort_keeps

/-- State.alignDone keeps all. -/
theorem State.alignDone_keeps {s0 s : State} (p : PortId) (hk : Keeps s0 s) : Keeps s0 (State.alignDone s p) := by
  unfold State.alignDone
  try dsimp only
  repeat'
    first
    | with_reducible assumption | intro _ | with_reducible apply Keeps.ite | with_reducible apply Keeps.ite_fst
    | with_reducible apply State.portField_keeps | with_reducible apply State.modPort_keeps

/-- State.probeRecord keeps all. -/
theorem State.probeRecord_keeps {s0 s : State} (p : PortId) (hk : Keeps s0 s) : Keeps s0 (State.probeRecord s p) := by
  unfold State.probeRecord
  try dsimp only
  repeat'
    first
    | with_reducible assumption | intro _ | with_reducible apply Keeps.ite | with_reducible apply Keeps.ite_fst
    | with_reducible apply State.sendCtrl_keeps
    | exact State.takeCtrl_keeps (by with_reducible assumption) (by with_reducible assumption)
    | with_reducible refine Keeps.foldl ?_ _ _ ?_ | with_reducible refine Keeps.foldl_fst ?_ _ _ ?_
    | with_reducible refine Keeps.of_fst (by with_reducible assumption) ?_ | split

/-- State.echoRecord keeps all. -/
theorem State.echoRecord_keeps {s0 s : State} (p : PortId) (rtt : Nat) (hk : Keeps s0 s) :
    Keeps s0 (State.echoRecord s p rtt) := by
  unfold State.echoRecord
  try dsimp only
  repeat'
    first
    | with_reducible assumption | intro _ | with_reducible apply Keeps.ite | with_reducible apply Keeps.ite_fst
    | with_reducible apply State.modPort_keeps
    | exact State.takeCtrl_keeps (by with_reducible assumption) (by with_reducible assumption)
    | with_reducible refine Keeps.foldl ?_ _ _ ?_ | with_reducible refine Keeps.foldl_fst ?_ _ _ ?_
    | with_reducible refine Keeps.of_fst (by with_reducible assumption) ?_ | split

/-- State.measureDone keeps all. -/
theorem State.measureDone_keeps {s0 s : State} (p : PortId) (meas min' : Nat) (hk : Keeps s0 s) :
    Keeps s0 (State.measureDone s p meas min') := by
  unfold State.measureDone
  try dsimp only
  repeat'
    first
    | with_reducible assumption | intro _ | with_reducible apply Keeps.ite | with_reducible apply Keeps.ite_fst
    | with_reducible apply State.setReg_keeps | with_reducible apply State.portFault_keeps
    | with_reducible apply State.portField_keeps | with_reducible apply State.modPort_keeps
    | with_reducible apply State.logSd_keeps | with_reducible refine Keeps.foldl ?_ _ _ ?_
    | with_reducible refine Keeps.foldl_fst ?_ _ _ ?_
    | with_reducible refine Keeps.of_fst (by with_reducible assumption) ?_ | split

/-- State.attemptTimeout keeps all. -/
theorem State.attemptTimeout_keeps {s0 s : State} (p : PortId) (hk : Keeps s0 s) : Keeps s0 (State.attemptTimeout s p) := by
  unfold State.attemptTimeout
  try dsimp only
  repeat'
    first
    | with_reducible assumption | intro _ | with_reducible apply Keeps.ite | with_reducible apply Keeps.ite_fst
    | with_reducible apply State.portFault_keeps | with_reducible apply State.markDown_keeps
    | with_reducible apply State.toDetect_keeps

/-- State.lockLost keeps all. -/
theorem State.lockLost_keeps {s0 s : State} (p : PortId) (hk : Keeps s0 s) : Keeps s0 (State.lockLost s p) := by
  unfold State.lockLost
  try dsimp only
  repeat'
    first
    | with_reducible assumption | intro _ | with_reducible apply Keeps.ite | with_reducible apply Keeps.ite_fst
    | with_reducible apply State.portDown_keeps

/-- State.signalGone keeps all. -/
theorem State.signalGone_keeps {s0 s : State} (p : PortId) (hk : Keeps s0 s) : Keeps s0 (State.signalGone s p) := by
  unfold State.signalGone
  try dsimp only
  repeat'
    first
    | with_reducible assumption | intro _ | with_reducible apply Keeps.ite | with_reducible apply Keeps.ite_fst
    | with_reducible apply State.portField_keeps | with_reducible apply State.portDown_keeps

/-- State.putFlit keeps all. -/
theorem State.putFlit_keeps {s0 s : State} (p : PortId) (x : Port) (type vc seq : Nat) (body : List Byte) (hk : Keeps s0 s) :
    Keeps s0 (State.putFlit s p x type vc seq body) := by
  unfold State.putFlit
  try dsimp only
  repeat'
    first
    | with_reducible assumption | intro _ | with_reducible apply Keeps.ite | with_reducible apply Keeps.ite_fst
    | with_reducible apply State.setPort_keeps | with_reducible apply State.emit_keeps

/-- State.newFlit keeps all. -/
theorem State.newFlit_keeps {s0 s : State} (p : PortId) (x : Port) (type vc : Nat) (body : List Byte) (hk : Keeps s0 s) :
    Keeps s0 (State.newFlit s p x type vc body) := by
  unfold State.newFlit
  try dsimp only
  repeat'
    first
    | with_reducible assumption | intro _ | with_reducible apply Keeps.ite | with_reducible apply Keeps.ite_fst
    | with_reducible apply State.putFlit_keeps

/-- State.flitSend keeps all. -/
theorem State.flitSend_keeps {s0 s : State} (p : PortId) (hk : Keeps s0 s) : Keeps s0 (State.flitSend s p) := by
  unfold State.flitSend
  try dsimp only
  repeat'
    first
    | with_reducible assumption | intro _ | with_reducible apply Keeps.ite | with_reducible apply Keeps.ite_fst
    | with_reducible apply State.putFlit_keeps | with_reducible apply State.drop_keeps
    | with_reducible apply State.newFlit_keeps | with_reducible refine Keeps.foldl ?_ _ _ ?_
    | with_reducible refine Keeps.foldl_fst ?_ _ _ ?_
    | with_reducible refine Keeps.of_fst (by with_reducible assumption) ?_ | split

/-- State.replayStart keeps all. -/
theorem State.replayStart_keeps {s0 s : State} (p : PortId) (hk : Keeps s0 s) : Keeps s0 (State.replayStart s p) := by
  unfold State.replayStart
  try dsimp only
  repeat'
    first
    | with_reducible assumption | intro _ | with_reducible apply Keeps.ite | with_reducible apply Keeps.ite_fst
    | with_reducible apply State.portDown_keeps | with_reducible apply State.setPort_keeps
    | with_reducible apply State.count_keeps

/-- State.replayTimeout keeps all. -/
theorem State.replayTimeout_keeps {s0 s : State} (p : PortId) (hk : Keeps s0 s) : Keeps s0 (State.replayTimeout s p) := by
  unfold State.replayTimeout
  try dsimp only
  repeat'
    first
    | with_reducible assumption | intro _ | with_reducible apply Keeps.ite | with_reducible apply Keeps.ite_fst
    | with_reducible apply State.replayStart_keeps | with_reducible refine Keeps.foldl ?_ _ _ ?_
    | with_reducible refine Keeps.foldl_fst ?_ _ _ ?_
    | with_reducible refine Keeps.of_fst (by with_reducible assumption) ?_ | split

/-- State.acceptFlit keeps all. -/
theorem State.acceptFlit_keeps {s0 s : State} (p : PortId) (x : Port) (type vc : Nat) (body : List Byte) (hk : Keeps s0 s) :
    Keeps s0 (State.acceptFlit s p x type vc body) := by
  unfold State.acceptFlit
  try dsimp only
  repeat'
    first
    | with_reducible assumption | intro _ | with_reducible apply Keeps.ite | with_reducible apply Keeps.ite_fst
    | with_reducible apply State.setPort_keeps | with_reducible apply State.count_keeps

/-- State.badFlit keeps all. -/
theorem State.badFlit_keeps {s0 s : State} (p : PortId) (x : Port) (crc : Bool) (hk : Keeps s0 s) :
    Keeps s0 (State.badFlit s p x crc) := by
  unfold State.badFlit
  try dsimp only
  repeat'
    first
    | with_reducible assumption | intro _ | with_reducible apply Keeps.ite | with_reducible apply Keeps.ite_fst
    | with_reducible apply State.setPort_keeps | with_reducible apply State.count_keeps
    | with_reducible apply State.portDown_keeps

/-- State.flitReceive keeps all. -/
theorem State.flitReceive_keeps {s0 s : State} (p : PortId) (flit : List Byte) (hk : Keeps s0 s) :
    Keeps s0 (State.flitReceive s p flit) := by
  unfold State.flitReceive
  try dsimp only
  repeat'
    first
    | with_reducible assumption | intro _ | with_reducible apply Keeps.ite | with_reducible apply Keeps.ite_fst
    | with_reducible apply State.badFlit_keeps | with_reducible apply State.setPort_keeps
    | with_reducible apply State.acceptFlit_keeps | with_reducible apply State.count_keeps
    | with_reducible apply State.replayStart_keeps

/-- State.malformedPacket keeps all. -/
theorem State.malformedPacket_keeps {s0 s : State} (p : PortId) (vc : Fin 2) (hk : Keeps s0 s) :
    Keeps s0 (State.malformedPacket s p vc) := by
  unfold State.malformedPacket
  try dsimp only
  repeat'
    first
    | with_reducible assumption | intro _ | with_reducible apply Keeps.ite | with_reducible apply Keeps.ite_fst
    | with_reducible apply State.portDown_keeps

/-! ## Remote -/

/-- What State.takePacket answers keeps all. -/
theorem State.takePacket_keeps {s0 s t : State} {p : PortId} {vc : Fin 2} {type : Nat} {h : Header} {b : List Byte}
    (e : s.takePacket p vc type = some (h, b, t)) (hk : Keeps s0 s) : Keeps s0 t := by
  unfold State.takePacket at e
  have e' : s.setPort p _ = t := congrArg (fun x => x.2.2) (of_ite_none e)
  rw [← e']; exact State.setPort_keeps _ _ hk

/-- State.countStale keeps all. -/
theorem State.countStale_keeps {s0 s : State} (n : Sd) (hk : Keeps s0 s) : Keeps s0 (State.countStale s n) := by
  unfold State.countStale
  try dsimp only
  repeat'
    first
    | with_reducible assumption | intro _ | with_reducible apply Keeps.ite | with_reducible apply Keeps.ite_fst
    | with_reducible apply State.count_keeps

/-- State.answerPacket keeps all. -/
theorem State.answerPacket_keeps {s0 s : State} (n : Sd) (h : Header) (type nl : Nat) (data : List Byte) (hk : Keeps s0 s) :
    Keeps s0 (State.answerPacket s n h type nl data) := by
  unfold State.answerPacket
  try dsimp only
  repeat'
    first
    | with_reducible assumption | intro _ | with_reducible apply Keeps.ite | with_reducible apply Keeps.ite_fst
    | with_reducible apply State.sendPacket_keeps

/-- State.remoteCarry keeps all. -/
theorem State.remoteCarry_keeps {s0 s : State} (a : Nat) (hk : Keeps s0 s) : Keeps s0 (State.remoteCarry s a) := by
  unfold State.remoteCarry
  try dsimp only
  repeat'
    first
    | with_reducible assumption | intro _ | with_reducible apply Keeps.ite | with_reducible apply Keeps.ite_fst
    | with_reducible apply State.ccount_keeps | with_reducible apply State.logCore_keeps
    | with_reducible apply State.cause_keeps

/-- State.deliverWrite keeps all. -/
theorem State.deliverWrite_keeps {s0 s : State} (n : Sd) (h : Header) (data : List Byte) (hk : Keeps s0 s) :
    Keeps s0 (State.deliverWrite s n h data) := by
  unfold State.deliverWrite
  try dsimp only
  repeat'
    first
    | with_reducible assumption | intro _ | with_reducible apply Keeps.ite | with_reducible apply Keeps.ite_fst
    | with_reducible apply State.modCore_keeps | with_reducible apply State.setSd_keeps

/-- State.deliverRead keeps all. -/
theorem State.deliverRead_keeps {s0 s : State} (n : Sd) (h : Header) (hk : Keeps s0 s) :
    Keeps s0 (State.deliverRead s n h) := by
  unfold State.deliverRead
  try dsimp only
  repeat'
    first
    | with_reducible assumption | intro _ | with_reducible apply Keeps.ite | with_reducible apply Keeps.ite_fst
    | with_reducible apply State.addRun_keeps

/-- State.writePacket keeps all. -/
theorem State.writePacket_keeps {s0 s : State} (p : PortId) (hk : Keeps s0 s) : Keeps s0 (State.writePacket s p) := by
  unfold State.writePacket
  try dsimp only
  repeat'
    first
    | with_reducible assumption | intro _ | with_reducible apply Keeps.ite | with_reducible apply Keeps.ite_fst
    | with_reducible apply State.sendPacket_keeps | with_reducible apply State.countStale_keeps
    | with_reducible apply State.answerPacket_keeps | with_reducible apply State.remoteCarry_keeps
    | with_reducible apply State.deliverWrite_keeps
    | exact State.takePacket_keeps (by with_reducible assumption) (by with_reducible assumption)
    | with_reducible refine Keeps.foldl ?_ _ _ ?_ | with_reducible refine Keeps.foldl_fst ?_ _ _ ?_
    | with_reducible refine Keeps.of_fst (by with_reducible assumption) ?_ | split

/-- State.readReq keeps all. -/
theorem State.readReq_keeps {s0 s : State} (p : PortId) (hk : Keeps s0 s) : Keeps s0 (State.readReq s p) := by
  unfold State.readReq
  try dsimp only
  repeat'
    first
    | with_reducible assumption | intro _ | with_reducible apply Keeps.ite | with_reducible apply Keeps.ite_fst
    | with_reducible apply State.sendPacket_keeps | with_reducible apply State.countStale_keeps
    | with_reducible apply State.answerPacket_keeps | with_reducible apply State.deliverRead_keeps
    | exact State.takePacket_keeps (by with_reducible assumption) (by with_reducible assumption)
    | with_reducible refine Keeps.foldl ?_ _ _ ?_ | with_reducible refine Keeps.foldl_fst ?_ _ _ ?_
    | with_reducible refine Keeps.of_fst (by with_reducible assumption) ?_ | split

/-- State.signalPacket keeps all. -/
theorem State.signalPacket_keeps {s0 s : State} (p : PortId) (hk : Keeps s0 s) : Keeps s0 (State.signalPacket s p) := by
  unfold State.signalPacket
  try dsimp only
  repeat'
    first
    | with_reducible assumption | intro _ | with_reducible apply Keeps.ite | with_reducible apply Keeps.ite_fst
    | with_reducible apply State.sendPacket_keeps | with_reducible apply State.countStale_keeps
    | with_reducible apply State.answerPacket_keeps | with_reducible apply State.modCore_keeps
    | exact State.takePacket_keeps (by with_reducible assumption) (by with_reducible assumption)
    | with_reducible refine Keeps.foldl ?_ _ _ ?_ | with_reducible refine Keeps.foldl_fst ?_ _ _ ?_
    | with_reducible refine Keeps.of_fst (by with_reducible assumption) ?_ | split

/-- State.answered keeps all. -/
theorem State.answered_keeps {s0 s : State} (n : Sd) (a : AckTo) (hk : Keeps s0 s) : Keeps s0 (State.answered s n a).1 := by
  unfold State.answered
  try dsimp only
  repeat'
    first
    | with_reducible assumption | intro _ | with_reducible apply Keeps.ite | with_reducible apply Keeps.ite_fst
    | with_reducible apply State.setSd_keeps | with_reducible refine Keeps.foldl ?_ _ _ ?_
    | with_reducible refine Keeps.foldl_fst ?_ _ _ ?_
    | with_reducible refine Keeps.of_fst (by with_reducible assumption) ?_ | split

/-- State.staleAt keeps all. -/
theorem State.staleAt_keeps {s0 s : State} (g : CoreId) (hk : Keeps s0 s) : Keeps s0 (State.staleAt s g) := by
  unfold State.staleAt
  try dsimp only
  repeat'
    first
    | with_reducible assumption | intro _ | with_reducible apply Keeps.ite | with_reducible apply Keeps.ite_fst
    | with_reducible apply State.ccount_keeps

/-- State.response keeps all. -/
theorem State.response_keeps {s0 s : State} (p : PortId) (type : Nat) (f : State → AckTo → List Byte → State) (hff : ∀ y0 y1 y2, Keeps s0 y0 → Keeps s0 (f y0 y1 y2)) (hk : Keeps s0 s) :
    Keeps s0 (State.response s p type f) := by
  unfold State.response
  try dsimp only
  repeat'
    first
    | with_reducible assumption | intro _ | with_reducible apply Keeps.ite | with_reducible apply Keeps.ite_fst
    | with_reducible apply hff | with_reducible apply State.sendPacket_keeps | with_reducible apply State.answered_keeps
    | exact State.takePacket_keeps (by with_reducible assumption) (by with_reducible assumption)
    | with_reducible refine Keeps.foldl ?_ _ _ ?_ | with_reducible refine Keeps.foldl_fst ?_ _ _ ?_
    | with_reducible refine Keeps.of_fst (by with_reducible assumption) ?_ | split

/-- State.readLine keeps all. -/
theorem State.readLine_keeps {s0 s : State} (n : Sd) (a : AckTo) (line : List Byte) (hk : Keeps s0 s) :
    Keeps s0 (State.readLine s n a line) := by
  unfold State.readLine
  try dsimp only
  repeat'
    first
    | with_reducible assumption | intro _ | with_reducible apply Keeps.ite | with_reducible apply Keeps.ite_fst
    | with_reducible apply State.count_keeps | with_reducible apply State.modCore_keeps
    | with_reducible apply State.modTr_keeps | with_reducible refine Keeps.foldl ?_ _ _ ?_
    | with_reducible refine Keeps.foldl_fst ?_ _ _ ?_
    | with_reducible refine Keeps.of_fst (by with_reducible assumption) ?_ | split

/-- State.readData keeps all. -/
theorem State.readData_keeps {s0 s : State} (p : PortId) (hk : Keeps s0 s) : Keeps s0 (State.readData s p) := by
  unfold State.readData
  try dsimp only
  repeat'
    first
    | with_reducible assumption | intro _ | with_reducible apply Keeps.ite | with_reducible apply Keeps.ite_fst
    | with_reducible apply State.response_keeps | with_reducible apply State.readLine_keeps
    | with_reducible apply State.staleAt_keeps | with_reducible refine Keeps.foldl ?_ _ _ ?_

/-- State.writeAck keeps all. -/
theorem State.writeAck_keeps {s0 s : State} (p : PortId) (hk : Keeps s0 s) : Keeps s0 (State.writeAck s p) := by
  unfold State.writeAck
  try dsimp only
  repeat'
    first
    | with_reducible assumption | intro _ | with_reducible apply Keeps.ite | with_reducible apply Keeps.ite_fst
    | with_reducible apply State.response_keeps | with_reducible apply State.modCore_keeps

/-- State.signalAck keeps all. -/
theorem State.signalAck_keeps {s0 s : State} (p : PortId) (hk : Keeps s0 s) : Keeps s0 (State.signalAck s p) := by
  unfold State.signalAck
  try dsimp only
  repeat'
    first
    | with_reducible assumption | intro _ | with_reducible apply Keeps.ite | with_reducible apply Keeps.ite_fst
    | with_reducible apply State.response_keeps | with_reducible apply State.cross_keeps

/-- State.refusedPacket keeps all. -/
theorem State.refusedPacket_keeps {s0 s : State} (p : PortId) (hk : Keeps s0 s) : Keeps s0 (State.refusedPacket s p) := by
  unfold State.refusedPacket
  try dsimp only
  repeat'
    first
    | with_reducible assumption | intro _ | with_reducible apply Keeps.ite | with_reducible apply Keeps.ite_fst
    | with_reducible apply State.response_keeps | with_reducible apply State.cross_keeps

/-- State.lineWritten keeps all. -/
theorem State.lineWritten_keeps {s0 s : State} (n : Sd) (header : List Byte) (hk : Keeps s0 s) :
    Keeps s0 (State.lineWritten s n header) := by
  unfold State.lineWritten
  try dsimp only
  repeat'
    first
    | with_reducible assumption | intro _ | with_reducible apply Keeps.ite | with_reducible apply Keeps.ite_fst
    | with_reducible apply State.setSd_keeps | with_reducible apply State.answerPacket_keeps
    | with_reducible refine Keeps.foldl ?_ _ _ ?_ | with_reducible refine Keeps.foldl_fst ?_ _ _ ?_
    | with_reducible refine Keeps.of_fst (by with_reducible assumption) ?_ | split

/-- State.arrived keeps all. -/
theorem State.arrived_keeps {s0 s : State} (n : Sd) (m : SdMsg) (hk : Keeps s0 s) : Keeps s0 (State.arrived s n m) := by
  unfold State.arrived
  try dsimp only
  repeat'
    first
    | with_reducible assumption | intro _ | with_reducible apply Keeps.ite | with_reducible apply Keeps.ite_fst
    | with_reducible apply State.request_keeps | with_reducible apply State.launch_keeps
    | with_reducible apply State.sendPacket_keeps | with_reducible apply State.lineWritten_keeps
    | with_reducible apply State.signalAck_keeps | with_reducible apply State.retireTransfer_keeps
    | with_reducible apply State.staleAt_keeps | with_reducible apply State.linkFailed_keeps
    | with_reducible refine Keeps.foldl ?_ _ _ ?_ | with_reducible refine Keeps.foldl_fst ?_ _ _ ?_
    | with_reducible refine Keeps.of_fst (by with_reducible assumption) ?_ | split

/-- State.crossClk keeps all. -/
theorem State.crossClk_keeps {s0 s : State} (n : Sd) (hk : Keeps s0 s) : Keeps s0 (State.crossClk s n) := by
  unfold State.crossClk
  try dsimp only
  repeat'
    first
    | with_reducible assumption | intro _ | with_reducible apply Keeps.ite | with_reducible apply Keeps.ite_fst
    | with_reducible apply State.arrived_keeps | with_reducible apply State.setSd_keeps
    | with_reducible refine Keeps.foldl ?_ _ _ ?_

/-- State.routeClear keeps all. -/
theorem State.routeClear_keeps {s0 s : State} (n : Sd) (pkg : Nat) (hk : Keeps s0 s) :
    Keeps s0 (State.routeClear s n pkg) := by
  unfold State.routeClear
  try dsimp only
  repeat'
    first
    | with_reducible assumption | intro _ | with_reducible apply Keeps.ite | with_reducible apply Keeps.ite_fst
    | with_reducible apply State.setReg_keeps

/-! ## Launch -/

/-- State.timeSend keeps all. -/
theorem State.timeSend_keeps {s0 s : State} (p : PortId) (hk : Keeps s0 s) : Keeps s0 (State.timeSend s p) := by
  unfold State.timeSend
  try dsimp only
  repeat'
    first
    | with_reducible assumption | intro _ | with_reducible apply Keeps.ite | with_reducible apply Keeps.ite_fst
    | with_reducible apply State.setPort_keeps

/-- State.setTime keeps all. -/
theorem State.setTime_keeps {s0 s : State} (v : Dword) (hk : Keeps s0 s) : Keeps s0 (State.setTime s v) := by
  unfold State.setTime
  try dsimp only
  repeat'
    first
    | with_reducible assumption | intro _ | with_reducible apply Keeps.ite | with_reducible apply Keeps.ite_fst
    | with_reducible apply State.setReg_keeps | with_reducible apply State.logHdl_keeps

/-- State.timeRecord keeps all. -/
theorem State.timeRecord_keeps {s0 s : State} (p : PortId) (hk : Keeps s0 s) : Keeps s0 (State.timeRecord s p) := by
  unfold State.timeRecord
  try dsimp only
  repeat'
    first
    | with_reducible assumption | intro _ | with_reducible apply Keeps.ite | with_reducible apply Keeps.ite_fst
    | with_reducible apply State.modHeddle_keeps | with_reducible apply State.setTime_keeps
    | exact State.takeCtrl_keeps (by with_reducible assumption) (by with_reducible assumption)
    | with_reducible refine Keeps.foldl ?_ _ _ ?_ | with_reducible refine Keeps.foldl_fst ?_ _ _ ?_
    | with_reducible refine Keeps.of_fst (by with_reducible assumption) ?_ | split

/-- State.timeHoldover keeps all. -/
theorem State.timeHoldover_keeps {s0 s : State} (hk : Keeps s0 s) : Keeps s0 (State.timeHoldover s) := by
  unfold State.timeHoldover
  try dsimp only
  repeat'
    first
    | with_reducible assumption | intro _ | with_reducible apply Keeps.ite | with_reducible apply Keeps.ite_fst
    | with_reducible apply State.setTime_keeps

/-- State.timeCfg keeps all. -/
theorem State.timeCfg_keeps {s0 s : State} (val : Word) (hk : Keeps s0 s) : Keeps s0 (State.timeCfg s val) := by
  unfold State.timeCfg
  try dsimp only
  repeat'
    first
    | with_reducible assumption | intro _ | with_reducible apply Keeps.ite | with_reducible apply Keeps.ite_fst
    | with_reducible apply State.setReg_keeps | with_reducible apply State.setTime_keeps
    | with_reducible apply State.modHeddle_keeps

/-- State.barrierCfg keeps all. -/
theorem State.barrierCfg_keeps {s0 s : State} (val : Word) (hk : Keeps s0 s) : Keeps s0 (State.barrierCfg s val) := by
  unfold State.barrierCfg
  try dsimp only
  repeat'
    first
    | with_reducible assumption | intro _ | with_reducible apply Keeps.ite | with_reducible apply Keeps.ite_fst
    | with_reducible apply State.setReg_keeps

/-- State.barrierGo keeps all. -/
theorem State.barrierGo_keeps {s0 s : State} (val : Word) (hk : Keeps s0 s) : Keeps s0 (State.barrierGo s val) := by
  unfold State.barrierGo
  try dsimp only
  repeat'
    first
    | with_reducible assumption | intro _ | with_reducible apply Keeps.ite | with_reducible apply Keeps.ite_fst
    | with_reducible apply State.toChildren_keeps | with_reducible apply State.modHeddle_keeps

/-- State.fire keeps all. -/
theorem State.fire_keeps {s0 s : State} (b : Barrier) (hk : Keeps s0 s) : Keeps s0 (State.fire s b) := by
  unfold State.fire
  try dsimp only
  repeat'
    first
    | with_reducible assumption | intro _ | with_reducible apply Keeps.ite | with_reducible apply Keeps.ite_fst
    | with_reducible apply State.modHeddle_keeps | with_reducible apply State.modReg_keeps
    | with_reducible apply State.setWeft_keeps | with_reducible apply State.setReg_keeps
    | with_reducible apply State.runWith_keeps | with_reducible apply State.logHdl_keeps

/-- State.barrierFire keeps all. -/
theorem State.barrierFire_keeps {s0 s : State} (hk : Keeps s0 s) : Keeps s0 (State.barrierFire s) := by
  unfold State.barrierFire
  try dsimp only
  repeat'
    first
    | with_reducible assumption | intro _ | with_reducible apply Keeps.ite | with_reducible apply Keeps.ite_fst
    | with_reducible apply State.fire_keeps | with_reducible refine Keeps.foldl ?_ _ _ ?_
    | with_reducible refine Keeps.foldl_fst ?_ _ _ ?_
    | with_reducible refine Keeps.of_fst (by with_reducible assumption) ?_ | split

/-- State.barrierRecord keeps all. -/
theorem State.barrierRecord_keeps {s0 s : State} (p : PortId) (hk : Keeps s0 s) : Keeps s0 (State.barrierRecord s p) := by
  unfold State.barrierRecord
  try dsimp only
  repeat'
    first
    | with_reducible assumption | intro _ | with_reducible apply Keeps.ite | with_reducible apply Keeps.ite_fst
    | with_reducible apply State.toChildren_keeps | with_reducible apply State.fire_keeps
    | with_reducible apply State.modHeddle_keeps
    | exact State.takeCtrl_keeps (by with_reducible assumption) (by with_reducible assumption)
    | with_reducible refine Keeps.foldl ?_ _ _ ?_ | with_reducible refine Keeps.foldl_fst ?_ _ _ ?_
    | with_reducible refine Keeps.of_fst (by with_reducible assumption) ?_ | split

/-! ## HostPort -/

/-- State.modFn keeps all. -/
theorem State.modFn_keeps {s0 s : State} (td : Td) (f : Fn) (g : PcieFn → PcieFn) (hk : Keeps s0 s) :
    Keeps s0 (State.modFn s td f g) := by
  unfold State.modFn
  try dsimp only
  repeat'
    first
    | with_reducible assumption | intro _ | with_reducible apply Keeps.ite | with_reducible apply Keeps.ite_fst
    | with_reducible apply State.setFn_keeps

/-- State.detachSpool keeps all. -/
theorem State.detachSpool_keeps {s0 s : State} (td : Td) (cause : Nat) (sp : SpoolId) (hk : Keeps s0 s) :
    Keeps s0 (State.detachSpool s td cause sp) := by
  unfold State.detachSpool
  try dsimp only
  repeat'
    first
    | with_reducible assumption | intro _ | with_reducible apply Keeps.ite | with_reducible apply Keeps.ite_fst
    | with_reducible apply State.setSreg_keeps | with_reducible apply State.modSpool_keeps
    | with_reducible apply State.abortWaiting_keeps | with_reducible apply State.endOut_keeps
    | with_reducible apply State.failLand_keeps | with_reducible apply State.ticketWrite_keeps
    | with_reducible apply State.modReg_keeps | with_reducible refine Keeps.foldl ?_ _ _ ?_

/-- State.detach keeps all. -/
theorem State.detach_keeps {s0 s : State} (td : Td) (f : Fn) (cause : Nat) (hk : Keeps s0 s) :
    Keeps s0 (State.detach s td f cause) := by
  unfold State.detach
  try dsimp only
  repeat'
    first
    | with_reducible assumption | intro _ | with_reducible apply Keeps.ite | with_reducible apply Keeps.ite_fst
    | with_reducible apply State.detachSpool_keeps | with_reducible apply State.logTd_keeps
    | with_reducible refine Keeps.foldl ?_ _ _ ?_

/-- State.linkDown keeps all. -/
theorem State.linkDown_keeps {s0 s : State} (td : Td) (f : Fn) (hk : Keeps s0 s) : Keeps s0 (State.linkDown s td f) := by
  unfold State.linkDown
  try dsimp only
  repeat'
    first
    | with_reducible assumption | intro _ | with_reducible apply Keeps.ite | with_reducible apply Keeps.ite_fst
    | with_reducible apply State.modFn_keeps | with_reducible apply State.detach_keeps

/-- State.resetFn keeps all. -/
theorem State.resetFn_keeps {s0 s : State} (td : Td) (f : Fn) (hk : Keeps s0 s) : Keeps s0 (s.resetFn td f) := by
  unfold State.resetFn
  refine Keeps.dropRegs (State.setReg_keeps _ _ (Keeps.foldl (State.setFn_keeps _ _ _ hk) _ _ fun u x hu => ?_)) _
  exact Keeps.foldl hu _ _ fun v o hv => State.setReg_keeps _ _ hv

/-- State.resetDetach keeps all. -/
theorem State.resetDetach_keeps {s0 s : State} (td : Td) (f : Fn) (cause : Nat) (hk : Keeps s0 s) :
    Keeps s0 (State.resetDetach s td f cause) := by
  unfold State.resetDetach
  try dsimp only
  repeat'
    first
    | with_reducible assumption | intro _ | with_reducible apply Keeps.ite | with_reducible apply Keeps.ite_fst
    | with_reducible apply State.modFn_keeps | with_reducible apply State.detach_keeps
    | with_reducible apply State.resetFn_keeps

/-- State.setPerst keeps all. -/
theorem State.setPerst_keeps {s0 s : State} (td : Td) (high : Bool) (hk : Keeps s0 s) :
    Keeps s0 (State.setPerst s td high) := by
  unfold State.setPerst
  try dsimp only
  repeat'
    first
    | with_reducible assumption | intro _ | with_reducible apply Keeps.ite | with_reducible apply Keeps.ite_fst
    | with_reducible refine Keeps.foldl ?_ _ _ ?_ | with_reducible refine Keeps.foldl_fst ?_ _ _ ?_
    | with_reducible refine Keeps.of_fst (by with_reducible assumption) ?_ | split
    | with_reducible refine Keeps.record ?_ rfl rfl rfl rfl rfl

/-- State.fundamentalReset keeps all. -/
theorem State.fundamentalReset_keeps {s0 s : State} (td : Td) (hk : Keeps s0 s) :
    Keeps s0 (State.fundamentalReset s td) := by
  unfold State.fundamentalReset
  try dsimp only
  repeat'
    first
    | with_reducible assumption | intro _ | with_reducible apply Keeps.ite | with_reducible apply Keeps.ite_fst
    | with_reducible apply State.resetDetach_keeps | with_reducible apply State.setPerst_keeps
    | with_reducible refine Keeps.foldl ?_ _ _ ?_

/-- State.linkUp keeps all. -/
theorem State.linkUp_keeps {s0 s : State} (td : Td) (f : Fn) (rate : Nat) (width : BitVec 5) (hk : Keeps s0 s) :
    Keeps s0 (State.linkUp s td f rate width) := by
  unfold State.linkUp
  try dsimp only
  repeat'
    first
    | with_reducible assumption | intro _ | with_reducible apply Keeps.ite | with_reducible apply Keeps.ite_fst
    | with_reducible apply State.modFn_keeps

/-- State.flushMsix keeps all. -/
theorem State.flushMsix_keeps {s0 s : State} (td : Td) (f : Fn) (op : ConfigOp) (hk : Keeps s0 s) : Keeps s0 (State.flushMsix s td f op) := by
  unfold State.flushMsix
  split
  · exact Keeps.foldl hk _ _ fun _ _ h => State.unmask_keeps td f _ h
  · exact hk

/-- State.configRequest keeps all. -/
theorem State.configRequest_keeps {s0 s : State} (td : Td) (f : Fn) (op : ConfigOp) (hk : Keeps s0 s) :
    Keeps s0 (State.configRequest s td f op) := by
  unfold State.configRequest
  try dsimp only
  repeat'
    first
    | with_reducible assumption | intro _ | with_reducible apply Keeps.ite | with_reducible apply Keeps.ite_fst
    | with_reducible apply State.emit_keeps | with_reducible apply State.modFn_keeps
    | with_reducible apply State.flushMsix_keeps

/-- State.busMasterClear keeps all. -/
theorem State.busMasterClear_keeps {s0 s : State} (td : Td) (f : Fn) (hk : Keeps s0 s) :
    Keeps s0 (State.busMasterClear s td f) := by
  unfold State.busMasterClear
  try dsimp only
  repeat'
    first
    | with_reducible assumption | intro _ | with_reducible apply Keeps.ite | with_reducible apply Keeps.ite_fst
    | with_reducible apply State.modFn_keeps | with_reducible apply State.detach_keeps

/-- State.poisonedWrite keeps all. -/
theorem State.poisonedWrite_keeps {s0 s : State} (td : Td) (f : Fn) (hk : Keeps s0 s) :
    Keeps s0 (State.poisonedWrite s td f) := by
  unfold State.poisonedWrite
  try dsimp only
  repeat'
    first
    | with_reducible assumption | intro _ | with_reducible apply Keeps.ite | with_reducible apply Keeps.ite_fst
    | with_reducible apply State.aerReport_keeps | with_reducible apply State.logTd_keeps

end Sys2Proof.Machine
end

