-- ==== Sys2Proof/Laws/KeepsPower.lean ====
section
/-! SUPPORT. That each operation of the model keeps what Laws/Keeps.lean lists: Overseer, Temple, Power, Sideband, HostWrite, Slot, Tick. -/

namespace Sys2Proof.Machine

/-! ## Temple -/

/-- State.setFlash keeps all. -/
theorem State.setFlash_keeps {s0 s : State} (a : Nat) (b : Byte) (hk : Keeps s0 s) : Keeps s0 (State.setFlash s a b) := by
  unfold State.setFlash
  try dsimp only
  repeat'
    first
    | with_reducible assumption | intro _ | with_reducible apply Keeps.ite | with_reducible apply Keeps.ite_fst
    | with_reducible refine Keeps.foldl ?_ _ _ ?_ | with_reducible refine Keeps.foldl_fst ?_ _ _ ?_
    | with_reducible refine Keeps.of_fst (by with_reducible assumption) ?_ | split
    | with_reducible refine Keeps.record ?_ rfl rfl rfl rfl rfl

/-- State.freeFlash keeps all. -/
theorem State.freeFlash_keeps {s0 s : State} (a n : Nat) (hk : Keeps s0 s) : Keeps s0 (State.freeFlash s a n) := by
  unfold State.freeFlash
  try dsimp only
  repeat'
    first
    | with_reducible assumption | intro _ | with_reducible apply Keeps.ite | with_reducible apply Keeps.ite_fst
    | with_reducible apply State.setFlash_keeps | with_reducible refine Keeps.foldl ?_ _ _ ?_
    | with_reducible refine Keeps.foldl_fst ?_ _ _ ?_
    | with_reducible refine Keeps.of_fst (by with_reducible assumption) ?_ | split
    | with_reducible refine Keeps.record ?_ rfl rfl rfl rfl rfl

/-- State.flashGo keeps all. -/
theorem State.flashGo_keeps {s0 s : State} (op : Nat) (hk : Keeps s0 s) : Keeps s0 (State.flashGo s op) := by
  unfold State.flashGo
  try dsimp only
  repeat'
    first
    | with_reducible assumption | intro _ | with_reducible apply Keeps.ite | with_reducible apply Keeps.ite_fst
    | with_reducible apply State.modReg_keeps | with_reducible refine Keeps.foldl ?_ _ _ ?_
    | with_reducible refine Keeps.foldl_fst ?_ _ _ ?_
    | with_reducible refine Keeps.of_fst (by with_reducible assumption) ?_ | split
    | with_reducible refine Keeps.record ?_ rfl rfl rfl rfl rfl

/-- State.flashEffect keeps all. -/
theorem State.flashEffect_keeps {s0 s : State} (x : FlashOp) (fail : Bool) (hk : Keeps s0 s) :
    Keeps s0 (State.flashEffect s x fail) := by
  unfold State.flashEffect
  try dsimp only
  repeat'
    first
    | with_reducible assumption | intro _ | with_reducible apply Keeps.ite | with_reducible apply Keeps.ite_fst
    | with_reducible apply State.setByte_keeps | with_reducible apply State.freeFlash_keeps
    | with_reducible apply State.setFlash_keeps | with_reducible refine Keeps.foldl ?_ _ _ ?_
    | with_reducible refine Keeps.foldl_fst ?_ _ _ ?_
    | with_reducible refine Keeps.of_fst (by with_reducible assumption) ?_ | split
    | with_reducible refine Keeps.record ?_ rfl rfl rfl rfl rfl

/-- State.flashErr keeps all. -/
theorem State.flashErr_keeps {s0 s : State} (hk : Keeps s0 s) : Keeps s0 (State.flashErr s) := by
  unfold State.flashErr
  try dsimp only
  repeat'
    first
    | with_reducible assumption | intro _ | with_reducible apply Keeps.ite | with_reducible apply Keeps.ite_fst
    | with_reducible apply State.modReg_keeps | with_reducible apply State.logTpl_keeps

/-- State.flashDone keeps all. -/
theorem State.flashDone_keeps {s0 s : State} (fail : Bool) (hk : Keeps s0 s) : Keeps s0 (State.flashDone s fail) := by
  unfold State.flashDone
  try dsimp only
  repeat'
    first
    | with_reducible assumption | intro _ | with_reducible apply Keeps.ite | with_reducible apply Keeps.ite_fst
    | with_reducible apply State.flashEffect_keeps | with_reducible apply State.flashErr_keeps
    | with_reducible apply State.modReg_keeps | with_reducible refine Keeps.foldl ?_ _ _ ?_
    | with_reducible refine Keeps.foldl_fst ?_ _ _ ?_
    | with_reducible refine Keeps.of_fst (by with_reducible assumption) ?_ | split
    | with_reducible refine Keeps.record ?_ rfl rfl rfl rfl rfl

/-- The end of a flash operation keeps all. Stated for any state, so that no proof evaluates the bytes an erase freed. -/
theorem Keeps.busyEnds {s t : State} (h : Keeps s t) : Keeps s { t with temple := { t.temple with busy := none } } :=
  h.of rfl rfl rfl rfl rfl

/-- State.flashStop keeps all. -/
theorem State.flashStop_keeps {s0 s : State} (hk : Keeps s0 s) : Keeps s0 (State.flashStop s) := by
  unfold State.flashStop
  split
  · next x _ =>
    split
    · exact Keeps.busyEnds (State.modReg_keeps _ _ (State.freeFlash_keeps x.addr 0x10000 hk))
    · exact hk
  · exact hk

/-- State.logCopies keeps all. -/
theorem State.logCopies_keeps {s0 s : State} (sel : Option Bool) (a b : Nat) (hk : Keeps s0 s) :
    Keeps s0 (State.logCopies s sel a b) := by
  unfold State.logCopies
  try dsimp only
  repeat'
    first
    | with_reducible assumption | intro _ | with_reducible apply Keeps.ite | with_reducible apply Keeps.ite_fst
    | with_reducible apply State.logTpl_keeps | with_reducible refine Keeps.foldl ?_ _ _ ?_

/-- State.selectCopy keeps all. -/
theorem State.selectCopy_keeps {s0 s : State} (hk : Keeps s0 s) : Keeps s0 (State.selectCopy s) := by
  unfold State.selectCopy
  try dsimp only
  repeat'
    first
    | with_reducible assumption | intro _ | with_reducible apply Keeps.ite | with_reducible apply Keeps.ite_fst
    | with_reducible apply State.setReg_keeps | with_reducible apply State.logCopies_keeps
    | with_reducible refine Keeps.foldl ?_ _ _ ?_ | with_reducible refine Keeps.foldl_fst ?_ _ _ ?_
    | with_reducible refine Keeps.of_fst (by with_reducible assumption) ?_ | split
    | with_reducible refine Keeps.record ?_ rfl rfl rfl rfl rfl

/-! ## Overseer -/

/-- State.ovsState keeps all. -/
theorem State.ovsState_keeps {s0 s : State} (n : Nat) (hk : Keeps s0 s) : Keeps s0 (State.ovsState s n) := by
  unfold State.ovsState
  try dsimp only
  repeat'
    first
    | with_reducible assumption | intro _ | with_reducible apply Keeps.ite | with_reducible apply Keeps.ite_fst
    | with_reducible apply State.modReg_keeps

/-- State.ovsRecord keeps all. -/
theorem State.ovsRecord_keeps {s0 s : State} (kind b : Nat) (hk : Keeps s0 s) : Keeps s0 (State.ovsRecord s kind b) := by
  unfold State.ovsRecord
  try dsimp only
  repeat'
    first
    | with_reducible assumption | intro _ | with_reducible apply Keeps.ite | with_reducible apply Keeps.ite_fst
    | with_reducible apply State.modReg_keeps | with_reducible apply State.setReg_keeps
    | with_reducible apply State.count_keeps | with_reducible apply State.logOvs_keeps

/-- State.enterSafe keeps all. -/
theorem State.enterSafe_keeps {s0 s : State} (again : Bool) (hk : Keeps s0 s) : Keeps s0 (State.enterSafe s again) := by
  unfold State.enterSafe
  try dsimp only
  repeat'
    first
    | with_reducible assumption | intro _ | with_reducible apply Keeps.ite | with_reducible apply Keeps.ite_fst
    | with_reducible apply State.ovsState_keeps | with_reducible apply State.logOvs_keeps
    | with_reducible apply State.setReg_keeps | with_reducible apply State.endPicks_keeps
    | with_reducible refine Keeps.foldl ?_ _ _ ?_ | with_reducible refine Keeps.foldl_fst ?_ _ _ ?_
    | with_reducible refine Keeps.of_fst (by with_reducible assumption) ?_ | split

/-- State.ovsFault keeps all. -/
theorem State.ovsFault_keeps {s0 s : State} (kind b : Nat) (hk : Keeps s0 s) : Keeps s0 (State.ovsFault s kind b) := by
  unfold State.ovsFault
  try dsimp only
  repeat'
    first
    | with_reducible assumption | intro _ | with_reducible apply Keeps.ite | with_reducible apply Keeps.ite_fst
    | with_reducible apply State.ovsRecord_keeps | with_reducible apply State.drop_keeps
    | with_reducible apply State.modReg_keeps | with_reducible apply State.ovsState_keeps
    | with_reducible apply State.voteLate_keeps | with_reducible apply State.enterSafe_keeps
    | with_reducible refine Keeps.foldl ?_ _ _ ?_ | with_reducible refine Keeps.foldl_fst ?_ _ _ ?_
    | with_reducible refine Keeps.of_fst (by with_reducible assumption) ?_ | split
    | with_reducible refine Keeps.record ?_ rfl rfl rfl rfl rfl

/-- State.ovsRelease keeps all. -/
theorem State.ovsRelease_keeps {s0 s : State} (out : BitVec 256) (hk : Keeps s0 s) : Keeps s0 (State.ovsRelease s out) := by
  unfold State.ovsRelease
  dsimp only
  split
  · exact ⟨hk.pending, hk.out, hk.fuses, hk.regs, hk.mem⟩
  · exact ⟨hk.pending, hk.out.trans (List.prefix_append _ _), hk.fuses, hk.regs, hk.mem⟩

/-- State.compare keeps all. -/
theorem State.compare_keeps {s0 s : State} (oa ob : BitVec 256) (bad : Option Byte) (hk : Keeps s0 s) :
    Keeps s0 (State.compare s oa ob bad) := by
  unfold State.compare
  try dsimp only
  repeat'
    first
    | with_reducible assumption | intro _ | with_reducible apply Keeps.ite | with_reducible apply Keeps.ite_fst
    | with_reducible apply State.drop_keeps | with_reducible apply State.ovsFault_keeps
    | with_reducible apply State.ovsRelease_keeps | with_reducible refine Keeps.foldl ?_ _ _ ?_
    | with_reducible refine Keeps.foldl_fst ?_ _ _ ?_
    | with_reducible refine Keeps.of_fst (by with_reducible assumption) ?_ | split
    | with_reducible refine Keeps.record ?_ rfl rfl rfl rfl rfl

/-- State.resyncEnd keeps all. -/
theorem State.resyncEnd_keeps {s0 s : State} (bad : Bool) (hk : Keeps s0 s) : Keeps s0 (State.resyncEnd s bad) := by
  unfold State.resyncEnd
  try dsimp only
  repeat'
    first
    | with_reducible assumption | intro _ | with_reducible apply Keeps.ite | with_reducible apply Keeps.ite_fst
    | with_reducible apply State.unresolve_keeps | with_reducible apply State.enterSafe_keeps
    | with_reducible refine Keeps.foldl ?_ _ _ ?_ | with_reducible refine Keeps.foldl_fst ?_ _ _ ?_
    | with_reducible refine Keeps.of_fst (by with_reducible assumption) ?_ | split
    | with_reducible refine Keeps.record ?_ rfl rfl rfl rfl rfl

/-- State.selftest keeps all. -/
theorem State.selftest_keeps {s0 s : State} (reported : BitVec 256) (hk : Keeps s0 s) :
    Keeps s0 (State.selftest s reported) := by
  unfold State.selftest
  try dsimp only
  repeat'
    first
    | with_reducible assumption | intro _ | with_reducible apply Keeps.ite | with_reducible apply Keeps.ite_fst
    | with_reducible apply State.countWrap_keeps | with_reducible apply State.ovsRecord_keeps
    | with_reducible apply State.enterSafe_keeps | with_reducible apply State.ovsFault_keeps
    | with_reducible refine Keeps.record ?_ rfl rfl rfl rfl rfl

/-- State.ovsHalt keeps all. -/
theorem State.ovsHalt_keeps {s0 s : State} (val : Word) (hk : Keeps s0 s) : Keeps s0 (State.ovsHalt s val) := by
  unfold State.ovsHalt
  try dsimp only
  repeat'
    first
    | with_reducible assumption | intro _ | with_reducible apply Keeps.ite | with_reducible apply Keeps.ite_fst
    | with_reducible apply State.halt_keeps

/-- State.logEnter keeps all. -/
theorem State.logEnter_keeps {s0 s : State} (d : LogDie) (hk : Keeps s0 s) : Keeps s0 (State.logEnter s d) := by
  unfold State.logEnter
  try dsimp only
  repeat'
    first
    | with_reducible assumption | intro _ | with_reducible apply Keeps.ite | with_reducible apply Keeps.ite_fst
    | with_reducible apply State.setLog_keeps | with_reducible apply State.count_keeps

/-- State.logWrite keeps all. -/
theorem State.logWrite_keeps {s0 s : State} (d : LogDie) (hk : Keeps s0 s) : Keeps s0 (State.logWrite s d) := by
  unfold State.logWrite
  try dsimp only
  repeat'
    first
    | with_reducible assumption | intro _ | with_reducible apply Keeps.ite | with_reducible apply Keeps.ite_fst
    | with_reducible apply State.setBytes_keeps | with_reducible apply State.count_keeps
    | with_reducible apply State.countWrap_keeps | with_reducible apply State.setLog_keeps
    | with_reducible refine Keeps.foldl ?_ _ _ ?_ | with_reducible refine Keeps.foldl_fst ?_ _ _ ?_
    | with_reducible refine Keeps.of_fst (by with_reducible assumption) ?_ | split
    | with_reducible refine Keeps.record ?_ rfl rfl rfl rfl rfl

/-- State.errorInterrupt keeps all. -/
theorem State.errorInterrupt_keeps {s0 s : State} (hk : Keeps s0 s) : Keeps s0 (State.errorInterrupt s) := by
  unfold State.errorInterrupt
  try dsimp only
  repeat'
    first
    | with_reducible assumption | intro _ | with_reducible apply Keeps.ite | with_reducible apply Keeps.ite_fst
    | with_reducible apply State.sendMsix_keeps | with_reducible refine Keeps.foldl ?_ _ _ ?_

/-- State.errorSet keeps all. -/
theorem State.errorSet_keeps {s0 s : State} (hk : Keeps s0 s) : Keeps s0 (State.errorSet s) := by
  unfold State.errorSet
  try dsimp only
  repeat'
    first
    | with_reducible assumption | intro _ | with_reducible apply Keeps.ite | with_reducible apply Keeps.ite_fst
    | with_reducible apply State.modReg_keeps | with_reducible apply State.errorInterrupt_keeps
    | with_reducible refine Keeps.foldl ?_ _ _ ?_ | with_reducible refine Keeps.foldl_fst ?_ _ _ ?_
    | with_reducible refine Keeps.of_fst (by with_reducible assumption) ?_ | split
    | with_reducible refine Keeps.record ?_ rfl rfl rfl rfl rfl

/-- State.errEnable keeps all. -/
theorem State.errEnable_keeps {s0 s : State} (val : Dword) (hk : Keeps s0 s) : Keeps s0 (State.errEnable s val) := by
  unfold State.errEnable
  try dsimp only
  repeat'
    first
    | with_reducible assumption | intro _ | with_reducible apply Keeps.ite | with_reducible apply Keeps.ite_fst
    | with_reducible apply State.setReg_keeps | with_reducible apply State.errorInterrupt_keeps

/-! ## Power -/

/-- State.modPower keeps all. -/
theorem State.modPower_keeps {s0 s : State} (f : Power → Power) (hk : Keeps s0 s) : Keeps s0 (State.modPower s f) := by
  unfold State.modPower
  try dsimp only
  repeat'
    first
    | with_reducible assumption | intro _ | with_reducible apply Keeps.ite | with_reducible apply Keeps.ite_fst
    | with_reducible refine Keeps.foldl ?_ _ _ ?_ | with_reducible refine Keeps.foldl_fst ?_ _ _ ?_
    | with_reducible refine Keeps.of_fst (by with_reducible assumption) ?_ | split
    | with_reducible refine Keeps.record ?_ rfl rfl rfl rfl rfl

/-- State.pwrField keeps all. -/
theorem State.pwrField_keeps {s0 s : State} (hi lo x : Nat) (hk : Keeps s0 s) : Keeps s0 (State.pwrField s hi lo x) := by
  unfold State.pwrField
  try dsimp only
  repeat'
    first
    | with_reducible assumption | intro _ | with_reducible apply Keeps.ite | with_reducible apply Keeps.ite_fst
    | with_reducible apply State.modReg_keeps

/-- State.alert keeps all. -/
theorem State.alert_keeps {s0 s : State} (i : Nat) (hk : Keeps s0 s) : Keeps s0 (State.alert s i) := by
  unfold State.alert
  try dsimp only
  repeat'
    first
    | with_reducible assumption | intro _ | with_reducible apply Keeps.ite | with_reducible apply Keeps.ite_fst
    | with_reducible apply State.modPower_keeps

/-- State.setPwr keeps all. -/
theorem State.setPwr_keeps {s0 s : State} (new : Nat) (hk : Keeps s0 s) : Keeps s0 (State.setPwr s new) := by
  unfold State.setPwr
  try dsimp only
  repeat'
    first
    | with_reducible assumption | intro _ | with_reducible apply Keeps.ite | with_reducible apply Keeps.ite_fst
    | with_reducible apply State.pwrField_keeps | with_reducible apply State.logHdl_keeps
    | with_reducible apply State.alert_keeps

/-- State.refusePwr keeps all. -/
theorem State.refusePwr_keeps {s0 s : State} (a : PwrAsk) (who index : Nat) (hk : Keeps s0 s) :
    Keeps s0 (State.refusePwr s a who index) := by
  unfold State.refusePwr
  try dsimp only
  repeat'
    first
    | with_reducible assumption | intro _ | with_reducible apply Keeps.ite | with_reducible apply Keeps.ite_fst
    | with_reducible apply State.count_keeps | with_reducible apply State.setReg_keeps
    | with_reducible apply State.logHdl_keeps | with_reducible apply State.alert_keeps

/-- State.refuseHost keeps all. -/
theorem State.refuseHost_keeps {s0 s : State} (who index : Nat) (hk : Keeps s0 s) :
    Keeps s0 (State.refuseHost s who index) := by
  unfold State.refuseHost
  try dsimp only
  repeat'
    first
    | with_reducible assumption | intro _ | with_reducible apply Keeps.ite | with_reducible apply Keeps.ite_fst
    | with_reducible apply State.nextFree_keeps | with_reducible apply State.refusePwr_keeps

/-- State.beginSeq keeps all. -/
theorem State.beginSeq_keeps {s0 s : State} (a : PwrAsk) (q : PwrSeq) (phase : Nat) (hk : Keeps s0 s) :
    Keeps s0 (State.beginSeq s a q phase) := by
  unfold State.beginSeq
  try dsimp only
  repeat'
    first
    | with_reducible assumption | intro _ | with_reducible apply Keeps.ite | with_reducible apply Keeps.ite_fst
    | with_reducible apply State.pwrField_keeps | with_reducible apply State.cause_keeps
    | with_reducible apply State.modPower_keeps

/-- State.endSeq keeps all. -/
theorem State.endSeq_keeps {s0 s : State} (hk : Keeps s0 s) : Keeps s0 (State.endSeq s) := by
  unfold State.endSeq
  try dsimp only
  repeat'
    first
    | with_reducible assumption | intro _ | with_reducible apply Keeps.ite | with_reducible apply Keeps.ite_fst
    | with_reducible apply State.pwrField_keeps | with_reducible apply State.modPower_keeps

/-- State.seqAt keeps all. -/
theorem State.seqAt_keeps {s0 s : State} (q : PwrSeq) (hk : Keeps s0 s) : Keeps s0 (State.seqAt s q) := by
  unfold State.seqAt
  try dsimp only
  repeat'
    first
    | with_reducible assumption | intro _ | with_reducible apply Keeps.ite | with_reducible apply Keeps.ite_fst
    | with_reducible apply State.modPower_keeps

/-- State.avsSend keeps all. -/
theorem State.avsSend_keeps {s0 s : State} (j : Fin 16) (mv : Nat) (raise rep : Bool) (hk : Keeps s0 s) :
    Keeps s0 (State.avsSend s j mv raise rep) := by
  unfold State.avsSend
  try dsimp only
  repeat'
    first
    | with_reducible assumption | intro _ | with_reducible apply Keeps.ite | with_reducible apply Keeps.ite_fst
    | with_reducible apply State.modPower_keeps | with_reducible apply State.emit_keeps

/-- State.avsAll keeps all. -/
theorem State.avsAll_keeps {s0 s : State} (mv : Nat) (hk : Keeps s0 s) : Keeps s0 (State.avsAll s mv) := by
  unfold State.avsAll
  try dsimp only
  repeat'
    first
    | with_reducible assumption | intro _ | with_reducible apply Keeps.ite | with_reducible apply Keeps.ite_fst
    | with_reducible apply State.avsSend_keeps | with_reducible refine Keeps.foldl ?_ _ _ ?_

/-- State.avsEvery keeps all. -/
theorem State.avsEvery_keeps {s0 s : State} (mv : Nat) (hk : Keeps s0 s) : Keeps s0 (State.avsEvery s mv) := by
  unfold State.avsEvery
  try dsimp only
  repeat'
    first
    | with_reducible assumption | intro _ | with_reducible apply Keeps.ite | with_reducible apply Keeps.ite_fst
    | with_reducible apply State.avsSend_keeps | with_reducible refine Keeps.foldl ?_ _ _ ?_

/-- State.clkChange keeps all. -/
theorem State.clkChange_keeps {s0 s : State} (val : Word) (hk : Keeps s0 s) : Keeps s0 (State.clkChange s val) := by
  unfold State.clkChange
  try dsimp only
  repeat'
    first
    | with_reducible assumption | intro _ | with_reducible apply Keeps.ite | with_reducible apply Keeps.ite_fst
    | with_reducible apply State.modHeddle_keeps | with_reducible apply State.avsAll_keeps
    | with_reducible apply State.setReg_keeps | with_reducible refine Keeps.foldl ?_ _ _ ?_
    | with_reducible refine Keeps.foldl_fst ?_ _ _ ?_
    | with_reducible refine Keeps.of_fst (by with_reducible assumption) ?_ | split

/-- State.clkWrite keeps all. -/
theorem State.clkWrite_keeps {s0 s : State} (val : Word) (hk : Keeps s0 s) : Keeps s0 (State.clkWrite s val) := by
  unfold State.clkWrite
  try dsimp only
  repeat'
    first
    | with_reducible assumption | intro _ | with_reducible apply Keeps.ite | with_reducible apply Keeps.ite_fst
    | with_reducible apply State.clkChange_keeps | with_reducible apply State.modHeddle_keeps

/-- State.clkDone keeps all. -/
theorem State.clkDone_keeps {s0 s : State} (hk : Keeps s0 s) : Keeps s0 (State.clkDone s) := by
  unfold State.clkDone
  try dsimp only
  repeat'
    first
    | with_reducible assumption | intro _ | with_reducible apply Keeps.ite | with_reducible apply Keeps.ite_fst
    | with_reducible apply State.clkChange_keeps | with_reducible apply State.modHeddle_keeps
    | with_reducible apply State.avsAll_keeps | with_reducible refine Keeps.foldl ?_ _ _ ?_
    | with_reducible refine Keeps.foldl_fst ?_ _ _ ?_
    | with_reducible refine Keeps.of_fst (by with_reducible assumption) ?_ | split

/-- State.railReset keeps all. -/
theorem State.railReset_keeps {s0 s : State} (hk : Keeps s0 s) : Keeps s0 s.railReset :=
  Keeps.drop hk railBlock railBlock rfl rfl rfl rfl rfl

/-- State.powerReset keeps all. -/
theorem State.powerReset_keeps {s0 s : State} (cold : Bool) (hk : Keeps s0 s) : Keeps s0 (s.powerReset cold) := by
  cases cold
  · exact Keeps.drop hk (fun a => !auxKept a) (fun a => !auxKept a) rfl rfl rfl rfl rfl
  · exact ⟨hk.pending, by exact hk.out, hk.fuses, fun _ => rfl, fun _ => rfl⟩

/-- State.retain keeps all. -/
theorem State.retain_keeps {s0 s : State} (hk : Keeps s0 s) : Keeps s0 (State.retain s) := by
  unfold State.retain
  try dsimp only
  repeat'
    first
    | with_reducible assumption | intro _ | with_reducible apply Keeps.ite | with_reducible apply Keeps.ite_fst
    | with_reducible apply State.modPower_keeps

/-- State.restore keeps all. -/
theorem State.restore_keeps {s0 s : State} (hk : Keeps s0 s) : Keeps s0 (State.restore s) := by
  unfold State.restore
  try dsimp only
  repeat'
    first
    | with_reducible assumption | intro _ | with_reducible apply Keeps.ite | with_reducible apply Keeps.ite_fst
    | with_reducible apply State.setReg_keeps | with_reducible apply State.setTd_keeps
    | with_reducible refine Keeps.foldl ?_ _ _ ?_

/-- State.resetPorts keeps all. -/
theorem State.resetPorts_keeps {s0 s : State} (hk : Keeps s0 s) : Keeps s0 (State.resetPorts s) := by
  unfold State.resetPorts
  try dsimp only
  repeat'
    first
    | with_reducible assumption | intro _ | with_reducible apply Keeps.ite | with_reducible apply Keeps.ite_fst
    | with_reducible apply State.resetFn_keeps | with_reducible refine Keeps.foldl ?_ _ _ ?_

/-- State.phaseAHold keeps all. -/
theorem State.phaseAHold_keeps {s0 s : State} (hk : Keeps s0 s) : Keeps s0 (State.phaseAHold s) := by
  unfold State.phaseAHold
  try dsimp only
  repeat'
    first
    | with_reducible assumption | intro _ | with_reducible apply Keeps.ite | with_reducible apply Keeps.ite_fst
    | with_reducible apply State.setPwr_keeps | with_reducible apply State.endSeq_keeps
    | with_reducible apply State.modPower_keeps | with_reducible apply State.modHeddle_keeps
    | with_reducible apply State.clkChange_keeps

/-- State.startShutdown keeps all. -/
theorem State.startShutdown_keeps {s0 s : State} (a : PwrAsk) (hk : Keeps s0 s) : Keeps s0 (State.startShutdown s a) := by
  unfold State.startShutdown
  try dsimp only
  repeat'
    first
    | with_reducible assumption | intro _ | with_reducible apply Keeps.ite | with_reducible apply Keeps.ite_fst
    | with_reducible apply State.beginSeq_keeps | with_reducible apply State.dropRun_keeps
    | with_reducible apply State.progStopNow_keeps | with_reducible apply State.modPower_keeps

/-- State.phaseBEnter keeps all. -/
theorem State.phaseBEnter_keeps {s0 s : State} (target n : Nat) (hk : Keeps s0 s) :
    Keeps s0 (State.phaseBEnter s target n) := by
  unfold State.phaseBEnter
  try dsimp only
  repeat'
    first
    | with_reducible assumption | intro _ | with_reducible apply Keeps.ite | with_reducible apply Keeps.ite_fst
    | with_reducible apply State.seqAt_keeps | with_reducible apply State.linkDown_keeps
    | with_reducible apply State.retain_keeps | with_reducible apply State.modPower_keeps
    | with_reducible refine Keeps.foldl ?_ _ _ ?_ | with_reducible refine Keeps.foldl_fst ?_ _ _ ?_
    | with_reducible refine Keeps.of_fst (by with_reducible assumption) ?_ | split

/-- State.phaseB keeps all. -/
theorem State.phaseB_keeps {s0 s : State} (target : Nat) (hk : Keeps s0 s) : Keeps s0 (State.phaseB s target) := by
  unfold State.phaseB
  try dsimp only
  repeat'
    first
    | with_reducible assumption | intro _ | with_reducible apply Keeps.ite | with_reducible apply Keeps.ite_fst
    | with_reducible apply State.pwrField_keeps | with_reducible apply State.phaseBEnter_keeps

/-- State.phaseBEnd keeps all. -/
theorem State.phaseBEnd_keeps {s0 s : State} (target : Nat) (hk : Keeps s0 s) : Keeps s0 (State.phaseBEnd s target) := by
  unfold State.phaseBEnd
  try dsimp only
  repeat'
    first
    | with_reducible assumption | intro _ | with_reducible apply Keeps.ite | with_reducible apply Keeps.ite_fst
    | with_reducible apply State.setPwr_keeps | with_reducible apply State.endSeq_keeps
    | with_reducible apply State.railReset_keeps | with_reducible apply State.modPower_keeps

/-- State.phaseBStep keeps all. -/
theorem State.phaseBStep_keeps {s0 s : State} (hk : Keeps s0 s) : Keeps s0 (State.phaseBStep s) := by
  unfold State.phaseBStep
  try dsimp only
  repeat'
    first
    | with_reducible assumption | intro _ | with_reducible apply Keeps.ite | with_reducible apply Keeps.ite_fst
    | with_reducible apply State.phaseB_keeps | with_reducible apply State.phaseBEnd_keeps
    | with_reducible apply State.phaseBEnter_keeps | with_reducible refine Keeps.foldl ?_ _ _ ?_
    | with_reducible refine Keeps.foldl_fst ?_ _ _ ?_
    | with_reducible refine Keeps.of_fst (by with_reducible assumption) ?_ | split

/-- State.issueTickets keeps all. -/
theorem State.issueTickets_keeps {s0 s : State} (hk : Keeps s0 s) : Keeps s0 (State.issueTickets s) := by
  unfold State.issueTickets
  try dsimp only
  repeat'
    first
    | with_reducible assumption | intro _ | with_reducible apply Keeps.ite | with_reducible apply Keeps.ite_fst
    | with_reducible apply State.ticketWrite_keeps | with_reducible refine Keeps.foldl ?_ _ _ ?_

/-- State.phaseADone keeps all. -/
theorem State.phaseADone_keeps {s0 s : State} (hk : Keeps s0 s) : Keeps s0 (State.phaseADone s) := by
  unfold State.phaseADone
  try dsimp only
  repeat'
    first
    | with_reducible assumption | intro _ | with_reducible apply Keeps.ite | with_reducible apply Keeps.ite_fst
    | with_reducible apply State.phaseAHold_keeps | with_reducible apply State.abortAll_keeps
    | with_reducible apply State.issueTickets_keeps | with_reducible apply State.flashStop_keeps
    | with_reducible apply State.modPower_keeps | with_reducible apply State.phaseB_keeps
    | with_reducible refine Keeps.foldl ?_ _ _ ?_ | with_reducible refine Keeps.foldl_fst ?_ _ _ ?_
    | with_reducible refine Keeps.of_fst (by with_reducible assumption) ?_ | split

/-- State.beginStep keeps all. -/
theorem State.beginStep_keeps {s0 s : State} (a : PwrAsk) (hk : Keeps s0 s) : Keeps s0 (State.beginStep s a) := by
  unfold State.beginStep
  try dsimp only
  repeat'
    first
    | with_reducible assumption | intro _ | with_reducible apply Keeps.ite | with_reducible apply Keeps.ite_fst
    | with_reducible apply State.beginSeq_keeps | with_reducible apply State.modPower_keeps
    | with_reducible apply State.avsAll_keeps

/-- State.pursue keeps all. -/
theorem State.pursue_keeps {s0 s : State} (a : PwrAsk) (hk : Keeps s0 s) : Keeps s0 (State.pursue s a) := by
  unfold State.pursue
  try dsimp only
  repeat'
    first
    | with_reducible assumption | intro _ | with_reducible apply Keeps.ite | with_reducible apply Keeps.ite_fst
    | with_reducible apply State.endSeq_keeps | with_reducible apply State.startShutdown_keeps
    | with_reducible apply State.beginStep_keeps

/-- State.setPend keeps all. -/
theorem State.setPend_keeps {s0 s : State} (a : Option PwrAsk) (hk : Keeps s0 s) : Keeps s0 (State.setPend s a) := by
  unfold State.setPend
  try dsimp only
  repeat'
    first
    | with_reducible assumption | intro _ | with_reducible apply Keeps.ite | with_reducible apply Keeps.ite_fst
    | with_reducible apply State.pwrField_keeps | with_reducible apply State.modPower_keeps
    | with_reducible refine Keeps.foldl ?_ _ _ ?_ | with_reducible refine Keeps.foldl_fst ?_ _ _ ?_
    | with_reducible refine Keeps.of_fst (by with_reducible assumption) ?_ | split

/-- State.askLate keeps all. -/
theorem State.askLate_keeps {s0 s : State} (a : PwrAsk) (t : Nat) (hk : Keeps s0 s) : Keeps s0 (State.askLate s a t) := by
  unfold State.askLate
  try dsimp only
  repeat'
    first
    | with_reducible assumption | intro _ | with_reducible apply Keeps.ite | with_reducible apply Keeps.ite_fst
    | with_reducible apply State.setPend_keeps | with_reducible apply State.logHdl_keeps
    | with_reducible apply State.startShutdown_keeps

/-- State.askNow keeps all. -/
theorem State.askNow_keeps {s0 s : State} (a : PwrAsk) (hk : Keeps s0 s) : Keeps s0 (State.askNow s a) := by
  unfold State.askNow
  try dsimp only
  repeat'
    first
    | with_reducible assumption | intro _ | with_reducible apply Keeps.ite | with_reducible apply Keeps.ite_fst
    | with_reducible apply State.refusePwr_keeps | with_reducible apply State.pursue_keeps
    | with_reducible apply State.dropRun_keeps | with_reducible apply State.progStopNow_keeps
    | with_reducible apply State.startShutdown_keeps | with_reducible apply State.modPower_keeps
    | with_reducible refine Keeps.foldl ?_ _ _ ?_ | with_reducible refine Keeps.foldl_fst ?_ _ _ ?_
    | with_reducible refine Keeps.of_fst (by with_reducible assumption) ?_ | split

/-- State.askPower keeps all. -/
theorem State.askPower_keeps {s0 s : State} (a : PwrAsk) (hk : Keeps s0 s) : Keeps s0 (State.askPower s a) := by
  unfold State.askPower
  try dsimp only
  repeat'
    first
    | with_reducible assumption | intro _ | with_reducible apply Keeps.ite | with_reducible apply Keeps.ite_fst
    | with_reducible apply State.askLate_keeps | with_reducible apply State.phaseB_keeps
    | with_reducible apply State.askNow_keeps | with_reducible refine Keeps.foldl ?_ _ _ ?_
    | with_reducible refine Keeps.foldl_fst ?_ _ _ ?_
    | with_reducible refine Keeps.of_fst (by with_reducible assumption) ?_ | split

/-- State.powerRequest keeps all. -/
theorem State.powerRequest_keeps {s0 s : State} (td : Td) (val : Word) (hk : Keeps s0 s) :
    Keeps s0 (State.powerRequest s td val) := by
  unfold State.powerRequest
  try dsimp only
  repeat'
    first
    | with_reducible assumption | intro _ | with_reducible apply Keeps.ite | with_reducible apply Keeps.ite_fst
    | with_reducible apply State.askPower_keeps

/-- State.arrive keeps all. -/
theorem State.arrive_keeps {s0 s : State} (old new : Nat) (hk : Keeps s0 s) : Keeps s0 (State.arrive s old new) := by
  unfold State.arrive
  try dsimp only
  repeat'
    first
    | with_reducible assumption | intro _ | with_reducible apply Keeps.ite | with_reducible apply Keeps.ite_fst
    | with_reducible apply State.restore_keeps | with_reducible apply State.setReg_keeps
    | with_reducible apply State.modHeddle_keeps | with_reducible apply State.avsAll_keeps

/-- State.afterSeq keeps all. -/
theorem State.afterSeq_keeps {s0 s : State} (hk : Keeps s0 s) : Keeps s0 (State.afterSeq s) := by
  unfold State.afterSeq
  try dsimp only
  repeat'
    first
    | with_reducible assumption | intro _ | with_reducible apply Keeps.ite | with_reducible apply Keeps.ite_fst
    | with_reducible apply State.modPower_keeps | with_reducible apply State.endSeq_keeps
    | with_reducible apply State.askNow_keeps | with_reducible apply State.pursue_keeps
    | with_reducible refine Keeps.foldl ?_ _ _ ?_ | with_reducible refine Keeps.foldl_fst ?_ _ _ ?_
    | with_reducible refine Keeps.of_fst (by with_reducible assumption) ?_ | split

/-- State.pwrStepDone keeps all. -/
theorem State.pwrStepDone_keeps {s0 s : State} (n : Nat) (hk : Keeps s0 s) : Keeps s0 (State.pwrStepDone s n) := by
  unfold State.pwrStepDone
  try dsimp only
  repeat'
    first
    | with_reducible assumption | intro _ | with_reducible apply Keeps.ite | with_reducible apply Keeps.ite_fst
    | with_reducible apply State.clkChange_keeps | with_reducible apply State.avsAll_keeps
    | with_reducible apply State.setPwr_keeps | with_reducible apply State.endSeq_keeps
    | with_reducible apply State.arrive_keeps | with_reducible apply State.afterSeq_keeps

/-- State.carryOut keeps all. -/
theorem State.carryOut_keeps {s0 s : State} (hk : Keeps s0 s) : Keeps s0 (State.carryOut s) := by
  unfold State.carryOut
  try dsimp only
  repeat'
    first
    | with_reducible assumption | intro _ | with_reducible apply Keeps.ite | with_reducible apply Keeps.ite_fst
    | with_reducible apply State.setPend_keeps | with_reducible apply State.askNow_keeps
    | with_reducible apply State.pwrStepDone_keeps | with_reducible refine Keeps.foldl ?_ _ _ ?_
    | with_reducible refine Keeps.foldl_fst ?_ _ _ ?_
    | with_reducible refine Keeps.of_fst (by with_reducible assumption) ?_ | split

/-- State.transitionDone keeps all. -/
theorem State.transitionDone_keeps {s0 s : State} (hk : Keeps s0 s) : Keeps s0 (State.transitionDone s) := by
  unfold State.transitionDone
  try dsimp only
  repeat'
    first
    | with_reducible assumption | intro _ | with_reducible apply Keeps.ite | with_reducible apply Keeps.ite_fst
    | with_reducible apply State.pwrStepDone_keeps | with_reducible apply State.phaseAHold_keeps
    | with_reducible apply State.carryOut_keeps | with_reducible refine Keeps.foldl ?_ _ _ ?_
    | with_reducible refine Keeps.foldl_fst ?_ _ _ ?_
    | with_reducible refine Keeps.of_fst (by with_reducible assumption) ?_ | split

/-- State.powerOn keeps all. -/
theorem State.powerOn_keeps {s0 s : State} (hk : Keeps s0 s) : Keeps s0 (State.powerOn s) := by
  unfold State.powerOn
  try dsimp only
  repeat'
    first
    | with_reducible assumption | intro _ | with_reducible apply Keeps.ite | with_reducible apply Keeps.ite_fst
    | with_reducible apply State.powerReset_keeps | with_reducible apply State.modPower_keeps
    | with_reducible apply State.setPend_keeps | with_reducible apply State.setReg_keeps
    | with_reducible apply State.beginSeq_keeps | with_reducible refine Keeps.foldl ?_ _ _ ?_
    | with_reducible refine Keeps.foldl_fst ?_ _ _ ?_
    | with_reducible refine Keeps.of_fst (by with_reducible assumption) ?_ | split

/-- State.powerOnEnd keeps all. -/
theorem State.powerOnEnd_keeps {s0 s : State} (hk : Keeps s0 s) : Keeps s0 (State.powerOnEnd s) := by
  unfold State.powerOnEnd
  try dsimp only
  repeat'
    first
    | with_reducible assumption | intro _ | with_reducible apply Keeps.ite | with_reducible apply Keeps.ite_fst
    | with_reducible apply State.setPwr_keeps | with_reducible apply State.endSeq_keeps
    | with_reducible apply State.modPower_keeps | with_reducible apply State.railReset_keeps
    | with_reducible apply State.afterSeq_keeps

/-- State.powerOnStep keeps all. -/
theorem State.powerOnStep_keeps {s0 s : State} (hk : Keeps s0 s) : Keeps s0 (State.powerOnStep s) := by
  unfold State.powerOnStep
  try dsimp only
  repeat'
    first
    | with_reducible assumption | intro _ | with_reducible apply Keeps.ite | with_reducible apply Keeps.ite_fst
    | with_reducible apply State.powerOn_keeps | with_reducible apply State.seqAt_keeps
    | with_reducible apply State.selectCopy_keeps | with_reducible apply State.modPower_keeps
    | with_reducible apply State.restore_keeps | with_reducible apply State.resetPorts_keeps
    | with_reducible apply State.avsEvery_keeps | with_reducible apply State.powerOnEnd_keeps
    | with_reducible refine Keeps.foldl ?_ _ _ ?_ | with_reducible refine Keeps.foldl_fst ?_ _ _ ?_
    | with_reducible refine Keeps.of_fst (by with_reducible assumption) ?_ | split

/-- State.refusePowerOn keeps all. -/
theorem State.refusePowerOn_keeps {s0 s : State} (who index : Nat) (hk : Keeps s0 s) :
    Keeps s0 (State.refusePowerOn s who index) := by
  unfold State.refusePowerOn
  try dsimp only
  repeat'
    first
    | with_reducible assumption | intro _ | with_reducible apply Keeps.ite | with_reducible apply Keeps.ite_fst
    | with_reducible apply State.refusePwr_keeps | with_reducible apply State.pwrField_keeps
    | with_reducible apply State.modPower_keeps | with_reducible apply State.phaseBEnter_keeps

/-- State.pgTimeout keeps all. -/
theorem State.pgTimeout_keeps {s0 s : State} (hk : Keeps s0 s) : Keeps s0 (State.pgTimeout s) := by
  unfold State.pgTimeout
  try dsimp only
  repeat'
    first
    | with_reducible assumption | intro _ | with_reducible apply Keeps.ite | with_reducible apply Keeps.ite_fst
    | with_reducible apply State.powerOn_keeps | with_reducible apply State.refusePowerOn_keeps
    | with_reducible refine Keeps.foldl ?_ _ _ ?_ | with_reducible refine Keeps.foldl_fst ?_ _ _ ?_
    | with_reducible refine Keeps.of_fst (by with_reducible assumption) ?_ | split

/-- State.avsDrop keeps all. -/
theorem State.avsDrop_keeps {s0 s : State} (j : Nat) (hk : Keeps s0 s) : Keeps s0 (State.avsDrop s j) := by
  unfold State.avsDrop
  try dsimp only
  repeat'
    first
    | with_reducible assumption | intro _ | with_reducible apply Keeps.ite | with_reducible apply Keeps.ite_fst
    | with_reducible apply State.modPower_keeps

/-- State.clkRaised keeps all. -/
theorem State.clkRaised_keeps {s0 s : State} (hk : Keeps s0 s) : Keeps s0 (State.clkRaised s) := by
  unfold State.clkRaised
  try dsimp only
  repeat'
    first
    | with_reducible assumption | intro _ | with_reducible apply Keeps.ite | with_reducible apply Keeps.ite_fst
    | with_reducible apply State.avsAll_keeps | with_reducible apply State.setReg_keeps
    | with_reducible apply State.modHeddle_keeps | with_reducible refine Keeps.foldl ?_ _ _ ?_
    | with_reducible refine Keeps.foldl_fst ?_ _ _ ?_
    | with_reducible refine Keeps.of_fst (by with_reducible assumption) ?_ | split

/-- State.avsAck keeps all. -/
theorem State.avsAck_keeps {s0 s : State} (j : Fin 16) (hk : Keeps s0 s) : Keeps s0 (State.avsAck s j) := by
  unfold State.avsAck
  try dsimp only
  repeat'
    first
    | with_reducible assumption | intro _ | with_reducible apply Keeps.ite | with_reducible apply Keeps.ite_fst
    | with_reducible apply State.modPower_keeps | with_reducible apply State.avsDrop_keeps
    | with_reducible apply State.clkRaised_keeps | with_reducible refine Keeps.foldl ?_ _ _ ?_
    | with_reducible refine Keeps.foldl_fst ?_ _ _ ?_
    | with_reducible refine Keeps.of_fst (by with_reducible assumption) ?_ | split

/-- State.clkRefused keeps all. -/
theorem State.clkRefused_keeps {s0 s : State} (j : Nat) (hk : Keeps s0 s) : Keeps s0 (State.clkRefused s j) := by
  unfold State.clkRefused
  try dsimp only
  repeat'
    first
    | with_reducible assumption | intro _ | with_reducible apply Keeps.ite | with_reducible apply Keeps.ite_fst
    | with_reducible apply State.modPower_keeps | with_reducible apply State.modHeddle_keeps
    | with_reducible apply State.refuseHost_keeps

/-- State.raiseFailed keeps all. -/
theorem State.raiseFailed_keeps {s0 s : State} (j : Nat) (hk : Keeps s0 s) : Keeps s0 (State.raiseFailed s j) := by
  unfold State.raiseFailed
  try dsimp only
  repeat'
    first
    | with_reducible assumption | intro _ | with_reducible apply Keeps.ite | with_reducible apply Keeps.ite_fst
    | with_reducible apply State.modPower_keeps | with_reducible apply State.powerOn_keeps
    | with_reducible apply State.refusePowerOn_keeps | with_reducible apply State.refusePwr_keeps
    | with_reducible apply State.modHeddle_keeps | with_reducible apply State.endSeq_keeps
    | with_reducible apply State.clkRefused_keeps | with_reducible refine Keeps.foldl ?_ _ _ ?_
    | with_reducible refine Keeps.foldl_fst ?_ _ _ ?_
    | with_reducible refine Keeps.of_fst (by with_reducible assumption) ?_ | split

/-- State.avsTimeout keeps all. -/
theorem State.avsTimeout_keeps {s0 s : State} (j : Fin 16) (hk : Keeps s0 s) : Keeps s0 (State.avsTimeout s j) := by
  unfold State.avsTimeout
  try dsimp only
  repeat'
    first
    | with_reducible assumption | intro _ | with_reducible apply Keeps.ite | with_reducible apply Keeps.ite_fst
    | with_reducible apply State.avsSend_keeps | with_reducible apply State.avsDrop_keeps
    | with_reducible apply State.logHdl_keeps | with_reducible apply State.raiseFailed_keeps
    | with_reducible refine Keeps.foldl ?_ _ _ ?_ | with_reducible refine Keeps.foldl_fst ?_ _ _ ?_
    | with_reducible refine Keeps.of_fst (by with_reducible assumption) ?_ | split

/-- State.auxRise keeps all. -/
theorem State.auxRise_keeps {s0 s : State} (hk : Keeps s0 s) : Keeps s0 (State.auxRise s) := by
  unfold State.auxRise
  try dsimp only
  repeat'
    first
    | with_reducible assumption | intro _ | with_reducible apply Keeps.ite | with_reducible apply Keeps.ite_fst
    | with_reducible apply State.powerReset_keeps | with_reducible refine Keeps.foldl ?_ _ _ ?_
    | with_reducible refine Keeps.foldl_fst ?_ _ _ ?_
    | with_reducible refine Keeps.of_fst (by with_reducible assumption) ?_ | split
    | with_reducible refine Keeps.record ?_ rfl rfl rfl rfl rfl

/-- State.resetLow keeps all. -/
theorem State.resetLow_keeps {s0 s : State} (hk : Keeps s0 s) : Keeps s0 (State.resetLow s) := by
  unfold State.resetLow
  try dsimp only
  repeat'
    first
    | with_reducible assumption | intro _ | with_reducible apply Keeps.ite | with_reducible apply Keeps.ite_fst
    | with_reducible apply State.powerReset_keeps | with_reducible refine Keeps.foldl ?_ _ _ ?_
    | with_reducible refine Keeps.foldl_fst ?_ _ _ ?_
    | with_reducible refine Keeps.of_fst (by with_reducible assumption) ?_ | split
    | with_reducible refine Keeps.record ?_ rfl rfl rfl rfl rfl

/-- State.resetHigh keeps all. -/
theorem State.resetHigh_keeps {s0 s : State} (hk : Keeps s0 s) : Keeps s0 (State.resetHigh s) := by
  unfold State.resetHigh
  try dsimp only
  repeat'
    first
    | with_reducible assumption | intro _ | with_reducible apply Keeps.ite | with_reducible apply Keeps.ite_fst
    | with_reducible refine Keeps.foldl ?_ _ _ ?_ | with_reducible refine Keeps.foldl_fst ?_ _ _ ?_
    | with_reducible refine Keeps.of_fst (by with_reducible assumption) ?_ | split
    | with_reducible refine Keeps.record ?_ rfl rfl rfl rfl rfl

/-- State.failFall keeps all. -/
theorem State.failFall_keeps {s0 s : State} (hk : Keeps s0 s) : Keeps s0 (State.failFall s) := by
  unfold State.failFall
  try dsimp only
  repeat'
    first
    | with_reducible assumption | intro _ | with_reducible apply Keeps.ite | with_reducible apply Keeps.ite_fst
    | with_reducible apply State.phaseB_keeps | with_reducible apply State.logHdl_keeps
    | with_reducible apply State.alert_keeps | with_reducible apply State.modPower_keeps
    | with_reducible apply State.startShutdown_keeps | with_reducible refine Keeps.foldl ?_ _ _ ?_
    | with_reducible refine Keeps.foldl_fst ?_ _ _ ?_
    | with_reducible refine Keeps.of_fst (by with_reducible assumption) ?_ | split
    | with_reducible refine Keeps.record ?_ rfl rfl rfl rfl rfl

/-- State.failRise keeps all. -/
theorem State.failRise_keeps {s0 s : State} (hk : Keeps s0 s) : Keeps s0 (State.failRise s) := by
  unfold State.failRise
  try dsimp only
  repeat'
    first
    | with_reducible assumption | intro _ | with_reducible apply Keeps.ite | with_reducible apply Keeps.ite_fst
    | with_reducible refine Keeps.foldl ?_ _ _ ?_ | with_reducible refine Keeps.foldl_fst ?_ _ _ ?_
    | with_reducible refine Keeps.of_fst (by with_reducible assumption) ?_ | split
    | with_reducible refine Keeps.record ?_ rfl rfl rfl rfl rfl

/-- State.supplyReturn keeps all. -/
theorem State.supplyReturn_keeps {s0 s : State} (hk : Keeps s0 s) : Keeps s0 (State.supplyReturn s) := by
  unfold State.supplyReturn
  try dsimp only
  repeat'
    first
    | with_reducible assumption | intro _ | with_reducible apply Keeps.ite | with_reducible apply Keeps.ite_fst
    | with_reducible apply State.pwrField_keeps | with_reducible apply State.modPower_keeps
    | with_reducible apply State.phaseAHold_keeps | with_reducible refine Keeps.foldl ?_ _ _ ?_
    | with_reducible refine Keeps.foldl_fst ?_ _ _ ?_
    | with_reducible refine Keeps.of_fst (by with_reducible assumption) ?_ | split

/-- State.rebootWrite keeps all. -/
theorem State.rebootWrite_keeps {s0 s : State} (hk : Keeps s0 s) : Keeps s0 (State.rebootWrite s) := by
  unfold State.rebootWrite
  try dsimp only
  repeat'
    first
    | with_reducible assumption | intro _ | with_reducible apply Keeps.ite | with_reducible apply Keeps.ite_fst
    | with_reducible apply State.nextFree_keeps | with_reducible apply State.modPower_keeps
    | with_reducible apply State.startShutdown_keeps

/-! ## Sideband -/

/-- State.dieReset keeps all. -/
theorem State.dieReset_keeps {s0 s : State} (d : Nat) (hk : Keeps s0 s) : Keeps s0 (s.dieReset d) :=
  Keeps.drop hk (inDie d) (inDie d) rfl rfl rfl rfl rfl

/-- State.dieBit keeps all. -/
theorem State.dieBit_keeps {s0 s : State} (d : Nat) (b : Bool) (hk : Keeps s0 s) : Keeps s0 (State.dieBit s d b) := by
  unfold State.dieBit
  try dsimp only
  repeat'
    first
    | with_reducible assumption | intro _ | with_reducible apply Keeps.ite | with_reducible apply Keeps.ite_fst
    | with_reducible apply State.modReg_keeps

/-- State.dieWrite keeps all. -/
theorem State.dieWrite_keeps {s0 s : State} (d : Nat) (b : Bool) (hk : Keeps s0 s) : Keeps s0 (State.dieWrite s d b) := by
  unfold State.dieWrite
  try dsimp only
  repeat'
    first
    | with_reducible assumption | intro _ | with_reducible apply Keeps.ite | with_reducible apply Keeps.ite_fst
    | with_reducible apply State.dieBit_keeps | with_reducible apply State.modPower_keeps
    | with_reducible apply State.refuseHost_keeps

/-- State.diePower keeps all. -/
theorem State.diePower_keeps {s0 s : State} (val : Dword) (hk : Keeps s0 s) : Keeps s0 (State.diePower s val) := by
  unfold State.diePower
  try dsimp only
  repeat'
    first
    | with_reducible assumption | intro _ | with_reducible apply Keeps.ite | with_reducible apply Keeps.ite_fst
    | with_reducible apply State.dieWrite_keeps | with_reducible refine Keeps.foldl ?_ _ _ ?_

/-- State.dieDone keeps all. -/
theorem State.dieDone_keeps {s0 s : State} (d : Nat) (hk : Keeps s0 s) : Keeps s0 (State.dieDone s d) := by
  unfold State.dieDone
  try dsimp only
  repeat'
    first
    | with_reducible assumption | intro _ | with_reducible apply Keeps.ite | with_reducible apply Keeps.ite_fst
    | with_reducible apply State.dieReset_keeps | with_reducible apply State.modPower_keeps

/-- State.logIsland keeps all. -/
theorem State.logIsland_keeps {s0 s : State} (d : Die) (aux : Nat) (data : Dword) (hk : Keeps s0 s) :
    Keeps s0 (State.logIsland s d aux data) := by
  unfold State.logIsland
  try dsimp only
  repeat'
    first
    | with_reducible assumption | intro _ | with_reducible apply Keeps.ite | with_reducible apply Keeps.ite_fst
    | with_reducible apply State.logEvent_keeps

/-- State.islandFault keeps all. -/
theorem State.islandFault_keeps {s0 s : State} (who : Island) (kind : BitVec 3) (hk : Keeps s0 s) :
    Keeps s0 (State.islandFault s who kind) := by
  unfold State.islandFault
  try dsimp only
  repeat'
    first
    | with_reducible assumption | intro _ | with_reducible apply Keeps.ite | with_reducible apply Keeps.ite_fst
    | with_reducible apply State.modReg_keeps | with_reducible apply State.halt_keeps
    | with_reducible apply State.haltCore_keeps | with_reducible apply State.logIsland_keeps
    | with_reducible refine Keeps.foldl ?_ _ _ ?_ | with_reducible refine Keeps.foldl_fst ?_ _ _ ?_
    | with_reducible refine Keeps.of_fst (by with_reducible assumption) ?_ | split

/-- State.wakeUp keeps all. -/
theorem State.wakeUp_keeps {s0 s : State} (src : Nat) (hk : Keeps s0 s) : Keeps s0 (State.wakeUp s src) := by
  unfold State.wakeUp
  try dsimp only
  repeat'
    first
    | with_reducible assumption | intro _ | with_reducible apply Keeps.ite | with_reducible apply Keeps.ite_fst
    | with_reducible apply State.setReg_keeps | with_reducible apply State.askPower_keeps
    | with_reducible apply State.modPower_keeps

/-- State.wakePin keeps all. -/
theorem State.wakePin_keeps {s0 s : State} (hk : Keeps s0 s) : Keeps s0 (State.wakePin s) := by
  unfold State.wakePin
  try dsimp only
  repeat'
    first
    | with_reducible assumption | intro _ | with_reducible apply Keeps.ite | with_reducible apply Keeps.ite_fst
    | with_reducible apply State.wakeUp_keeps

/-- State.perstRise keeps all. -/
theorem State.perstRise_keeps {s0 s : State} (td : Td) (hk : Keeps s0 s) : Keeps s0 (State.perstRise s td) := by
  unfold State.perstRise
  try dsimp only
  repeat'
    first
    | with_reducible assumption | intro _ | with_reducible apply Keeps.ite | with_reducible apply Keeps.ite_fst
    | with_reducible apply State.setPerst_keeps | with_reducible apply State.wakeUp_keeps

/-- State.gpioEdge keeps all. -/
theorem State.gpioEdge_keeps {s0 s : State} (rising : Bool) (hk : Keeps s0 s) : Keeps s0 (State.gpioEdge s rising) := by
  unfold State.gpioEdge
  try dsimp only
  repeat'
    first
    | with_reducible assumption | intro _ | with_reducible apply Keeps.ite | with_reducible apply Keeps.ite_fst
    | with_reducible apply State.wakeUp_keeps

/-- State.addressMatch keeps all. -/
theorem State.addressMatch_keeps {s0 s : State} (hk : Keeps s0 s) : Keeps s0 (State.addressMatch s) := by
  unfold State.addressMatch
  try dsimp only
  repeat'
    first
    | with_reducible assumption | intro _ | with_reducible apply Keeps.ite | with_reducible apply Keeps.ite_fst
    | with_reducible apply State.emit_keeps | with_reducible apply State.wakeUp_keeps

/-- State.smbAnswer keeps all. -/
theorem State.smbAnswer_keeps {s0 s : State} (l : List Byte) (hk : Keeps s0 s) : Keeps s0 (State.smbAnswer s l) := by
  unfold State.smbAnswer
  try dsimp only
  repeat'
    first
    | with_reducible assumption | intro _ | with_reducible apply Keeps.ite | with_reducible apply Keeps.ite_fst
    | with_reducible apply State.emit_keeps | with_reducible apply State.addressMatch_keeps

/-- State.smbWrite keeps all. -/
theorem State.smbWrite_keeps {s0 s : State} (pec : Bool) (f : State → State) (hff : ∀ y0, Keeps s0 y0 → Keeps s0 (f y0)) (hk : Keeps s0 s) :
    Keeps s0 (State.smbWrite s pec f) := by
  unfold State.smbWrite
  try dsimp only
  repeat'
    first
    | with_reducible assumption | intro _ | with_reducible apply Keeps.ite | with_reducible apply Keeps.ite_fst
    | with_reducible apply hff | with_reducible apply State.addressMatch_keeps | with_reducible apply State.emit_keeps

/-- State.smbReq keeps all. -/
theorem State.smbReq_keeps {s0 s : State} (val : Byte) (pec : Bool) (hk : Keeps s0 s) :
    Keeps s0 (State.smbReq s val pec) := by
  unfold State.smbReq
  try dsimp only
  repeat'
    first
    | with_reducible assumption | intro _ | with_reducible apply Keeps.ite | with_reducible apply Keeps.ite_fst
    | with_reducible apply State.smbWrite_keeps | with_reducible apply State.askPower_keeps

/-- State.smbClear keeps all. -/
theorem State.smbClear_keeps {s0 s : State} (val : Byte) (pec : Bool) (hk : Keeps s0 s) :
    Keeps s0 (State.smbClear s val pec) := by
  unfold State.smbClear
  try dsimp only
  repeat'
    first
    | with_reducible assumption | intro _ | with_reducible apply Keeps.ite | with_reducible apply Keeps.ite_fst
    | with_reducible apply State.smbWrite_keeps | with_reducible apply State.modPower_keeps

/-- State.telemetry keeps all. -/
theorem State.telemetry_keeps {s0 s : State} (watts : Nat) (hk : Keeps s0 s) : Keeps s0 (State.telemetry s watts) := by
  unfold State.telemetry
  try dsimp only
  repeat'
    first
    | with_reducible assumption | intro _ | with_reducible apply Keeps.ite | with_reducible apply Keeps.ite_fst
    | with_reducible apply State.modPower_keeps | with_reducible apply State.alert_keeps
    | with_reducible apply State.askPower_keeps

/-- State.thermal keeps all. -/
theorem State.thermal_keeps {s0 s : State} (d : LogDie) (temp : BitVec 16) (hk : Keeps s0 s) :
    Keeps s0 (State.thermal s d temp) := by
  unfold State.thermal
  try dsimp only
  repeat'
    first
    | with_reducible assumption | intro _ | with_reducible apply Keeps.ite | with_reducible apply Keeps.ite_fst
    | with_reducible apply State.modPower_keeps | with_reducible apply State.alert_keeps
    | with_reducible apply State.askPower_keeps

/-- State.limitWrite keeps all. -/
theorem State.limitWrite_keeps {s0 s : State} (val : Word) (hk : Keeps s0 s) : Keeps s0 (State.limitWrite s val) := by
  unfold State.limitWrite
  try dsimp only
  repeat'
    first
    | with_reducible assumption | intro _ | with_reducible apply Keeps.ite | with_reducible apply Keeps.ite_fst
    | with_reducible apply State.setReg_keeps

/-- State.tmoWrite keeps all. -/
theorem State.tmoWrite_keeps {s0 s : State} (val : Word) (hk : Keeps s0 s) : Keeps s0 (State.tmoWrite s val) := by
  unfold State.tmoWrite
  try dsimp only
  repeat'
    first
    | with_reducible assumption | intro _ | with_reducible apply Keeps.ite | with_reducible apply Keeps.ite_fst
    | with_reducible apply State.setReg_keeps

/-- State.slewWrite keeps all. -/
theorem State.slewWrite_keeps {s0 s : State} (val : Word) (hk : Keeps s0 s) : Keeps s0 (State.slewWrite s val) := by
  unfold State.slewWrite
  try dsimp only
  repeat'
    first
    | with_reducible assumption | intro _ | with_reducible apply Keeps.ite | with_reducible apply Keeps.ite_fst
    | with_reducible apply State.modReg_keeps

/-- State.jtagLoad keeps all. -/
theorem State.jtagLoad_keeps {s0 s : State} (op : JtagOp) (hk : Keeps s0 s) : Keeps s0 (State.jtagLoad s op) := by
  unfold State.jtagLoad
  try dsimp only
  repeat'
    first
    | with_reducible assumption | intro _ | with_reducible apply Keeps.ite | with_reducible apply Keeps.ite_fst
    | with_reducible refine Keeps.foldl ?_ _ _ ?_ | with_reducible refine Keeps.foldl_fst ?_ _ _ ?_
    | with_reducible refine Keeps.of_fst (by with_reducible assumption) ?_ | split
    | with_reducible refine Keeps.record ?_ rfl rfl rfl rfl rfl

/-- State.trstLow keeps all. -/
theorem State.trstLow_keeps {s0 s : State} (hk : Keeps s0 s) : Keeps s0 (State.trstLow s) := by
  unfold State.trstLow
  try dsimp only
  repeat'
    first
    | with_reducible assumption | intro _ | with_reducible apply Keeps.ite | with_reducible apply Keeps.ite_fst
    | with_reducible refine Keeps.foldl ?_ _ _ ?_ | with_reducible refine Keeps.foldl_fst ?_ _ _ ?_
    | with_reducible refine Keeps.of_fst (by with_reducible assumption) ?_ | split
    | with_reducible refine Keeps.record ?_ rfl rfl rfl rfl rfl

/-! ## HostWrite -/

/-- State.plainWrite keeps all. -/
theorem State.plainWrite_keeps {s0 s : State} (b : Block) (o : Nat) (r : RegSpec) (val : Dword) (hk : Keeps s0 s) :
    Keeps s0 (State.plainWrite s b o r val) := by
  unfold State.plainWrite
  try dsimp only
  repeat'
    first
    | with_reducible assumption | intro _ | with_reducible apply Keeps.ite | with_reducible apply Keeps.ite_fst
    | with_reducible apply State.setReg_keeps

/-- State.hdlWrite keeps all. -/
theorem State.hdlWrite_keeps {s0 s : State} (req : Requester) (o : Nat) (r : RegSpec) (val : Dword) (hk : Keeps s0 s) :
    Keeps s0 (State.hdlWrite s req o r val) := by
  unfold State.hdlWrite
  try dsimp only
  repeat'
    first
    | with_reducible assumption | intro _ | with_reducible apply Keeps.ite | with_reducible apply Keeps.ite_fst
    | with_reducible apply State.progMap_keeps | with_reducible apply State.kpairWrite_keeps
    | with_reducible apply State.loadWeft_keeps | with_reducible apply State.pickRun_keeps
    | with_reducible apply State.pickStop_keeps | with_reducible apply State.periodWrite_keeps
    | with_reducible apply State.reserveWrite_keeps | with_reducible apply State.clkWrite_keeps
    | with_reducible apply State.fellResolve_keeps | with_reducible apply State.plainWrite_keeps
    | with_reducible apply State.timeCfg_keeps | with_reducible apply State.hopsWrite_keeps
    | with_reducible apply State.timeoutWrite_keeps | with_reducible apply State.barrierCfg_keeps
    | with_reducible apply State.barrierGo_keeps | with_reducible apply State.progEnd_keeps
    | with_reducible apply State.progStop_keeps | with_reducible apply State.progStart_keeps
    | with_reducible apply State.ovsHalt_keeps | with_reducible apply State.errEnable_keeps
    | with_reducible apply State.powerRequest_keeps | with_reducible apply State.diePower_keeps
    | with_reducible apply State.limitWrite_keeps | with_reducible apply State.tmoWrite_keeps
    | with_reducible apply State.slewWrite_keeps | with_reducible refine Keeps.foldl ?_ _ _ ?_
    | with_reducible refine Keeps.foldl_fst ?_ _ _ ?_
    | with_reducible refine Keeps.of_fst (by with_reducible assumption) ?_ | split

/-- State.tplWrite keeps all. -/
theorem State.tplWrite_keeps {s0 s : State} (o : Nat) (r : RegSpec) (val : Dword) (hk : Keeps s0 s) :
    Keeps s0 (State.tplWrite s o r val) := by
  unfold State.tplWrite
  try dsimp only
  repeat'
    first
    | with_reducible assumption | intro _ | with_reducible apply Keeps.ite | with_reducible apply Keeps.ite_fst
    | with_reducible apply State.rebootWrite_keeps | with_reducible apply State.digestStart_keeps
    | with_reducible apply State.flashGo_keeps | with_reducible apply State.plainWrite_keeps
    | with_reducible refine Keeps.foldl ?_ _ _ ?_ | with_reducible refine Keeps.foldl_fst ?_ _ _ ?_
    | with_reducible refine Keeps.of_fst (by with_reducible assumption) ?_ | split

/-- State.trdWrite keeps all. -/
theorem State.trdWrite_keeps {s0 s : State} (td : Td) (o : Nat) (r : RegSpec) (val : Dword) (hk : Keeps s0 s) :
    Keeps s0 (State.trdWrite s td o r val) := by
  unfold State.trdWrite
  try dsimp only
  repeat'
    first
    | with_reducible assumption | intro _ | with_reducible apply Keeps.ite | with_reducible apply Keeps.ite_fst
    | with_reducible apply State.spoolCfg_keeps | with_reducible apply State.spoolEnable_keeps
    | with_reducible apply State.spoolDisable_keeps | with_reducible apply State.spoolHead_keeps
    | with_reducible apply State.plainWrite_keeps | with_reducible apply State.modSpool_keeps
    | with_reducible apply State.tallyCfg_keeps | with_reducible apply State.tallyReset_keeps
    | with_reducible apply State.tallyArm_keeps | with_reducible apply State.tallyCheck_keeps
    | with_reducible apply State.unmask_keeps | with_reducible refine Keeps.foldl ?_ _ _ ?_
    | with_reducible refine Keeps.foldl_fst ?_ _ _ ?_
    | with_reducible refine Keeps.of_fst (by with_reducible assumption) ?_ | split

/-- State.slvWrite keeps all. -/
theorem State.slvWrite_keeps {s0 s : State} (n : Sd) (o : Nat) (r : RegSpec) (val : Dword) (hk : Keeps s0 s) :
    Keeps s0 (State.slvWrite s n o r val) := by
  unfold State.slvWrite
  try dsimp only
  repeat'
    first
    | with_reducible assumption | intro _ | with_reducible apply Keeps.ite | with_reducible apply Keeps.ite_fst
    | with_reducible apply State.portCtrl_keeps | with_reducible apply State.portCred_keeps
    | with_reducible apply State.plainWrite_keeps | with_reducible apply State.routeClear_keeps
    | with_reducible refine Keeps.foldl ?_ _ _ ?_ | with_reducible refine Keeps.foldl_fst ?_ _ _ ?_
    | with_reducible refine Keeps.of_fst (by with_reducible assumption) ?_ | split

/-- State.ldieWrite keeps all. -/
theorem State.ldieWrite_keeps {s0 s : State} (d : Die) (o : Nat) (r : RegSpec) (val : Dword) (hk : Keeps s0 s) :
    Keeps s0 (State.ldieWrite s d o r val) := by
  unfold State.ldieWrite
  try dsimp only
  repeat'
    first
    | with_reducible assumption | intro _ | with_reducible apply Keeps.ite | with_reducible apply Keeps.ite_fst
    | with_reducible apply State.tallyGo_keeps | with_reducible apply State.plainWrite_keeps

/-- State.coreWrite keeps all. -/
theorem State.coreWrite_keeps {s0 s : State} (g : CoreId) (o : Nat) (r : RegSpec) (val : Dword) (hk : Keeps s0 s) :
    Keeps s0 (State.coreWrite s g o r val) := by
  unfold State.coreWrite
  try dsimp only
  repeat'
    first
    | with_reducible assumption | intro _ | with_reducible apply Keeps.ite | with_reducible apply Keeps.ite_fst
    | with_reducible apply State.carryMapWrite_keeps | with_reducible apply State.injectArm_keeps
    | with_reducible apply State.injectDisarm_keeps | with_reducible apply State.plainWrite_keeps

/-- State.regWrite keeps all. -/
theorem State.regWrite_keeps {s0 s : State} (req : Requester) (b : Block) (o : Nat) (r : RegSpec) (val : Dword) (hk : Keeps s0 s) :
    Keeps s0 (State.regWrite s req b o r val) := by
  unfold State.regWrite
  try dsimp only
  repeat'
    first
    | with_reducible assumption | intro _ | with_reducible apply Keeps.ite | with_reducible apply Keeps.ite_fst
    | with_reducible apply State.hdlWrite_keeps | with_reducible apply State.tplWrite_keeps
    | with_reducible apply State.trdWrite_keeps | with_reducible apply State.slvWrite_keeps
    | with_reducible apply State.ldieWrite_keeps | with_reducible apply State.coreWrite_keeps
    | with_reducible refine Keeps.foldl ?_ _ _ ?_ | with_reducible refine Keeps.foldl_fst ?_ _ _ ?_
    | with_reducible refine Keeps.of_fst (by with_reducible assumption) ?_ | split

/-- State.dropLatch keeps all. -/
theorem State.dropLatch_keeps {s0 s : State} (req : Requester) (first : Nat) (hk : Keeps s0 s) :
    Keeps s0 (State.dropLatch s req first) := by
  unfold State.dropLatch
  try dsimp only
  repeat'
    first
    | with_reducible assumption | intro _ | with_reducible apply Keeps.ite | with_reducible apply Keeps.ite_fst
    | with_reducible refine Keeps.foldl ?_ _ _ ?_ | with_reducible refine Keeps.foldl_fst ?_ _ _ ?_
    | with_reducible refine Keeps.of_fst (by with_reducible assumption) ?_ | split
    | with_reducible refine Keeps.record ?_ rfl rfl rfl rfl rfl

/-- State.holdLatch keeps all. -/
theorem State.holdLatch_keeps {s0 s : State} (req : Requester) (first : Nat) (vals : List (Nat × Dword)) (hk : Keeps s0 s) :
    Keeps s0 (State.holdLatch s req first vals) := by
  unfold State.holdLatch
  try dsimp only
  repeat'
    first
    | with_reducible assumption | intro _ | with_reducible apply Keeps.ite | with_reducible apply Keeps.ite_fst
    | with_reducible apply State.dropLatch_keeps | with_reducible refine Keeps.foldl ?_ _ _ ?_
    | with_reducible refine Keeps.foldl_fst ?_ _ _ ?_
    | with_reducible refine Keeps.of_fst (by with_reducible assumption) ?_ | split
    | with_reducible refine Keeps.record ?_ rfl rfl rfl rfl rfl

/-- State.snapWrite keeps all. -/
theorem State.snapWrite_keeps {s0 s : State} (req : Requester) (grp : SnapGroup) (on : Bool) (hk : Keeps s0 s) :
    Keeps s0 (State.snapWrite s req grp on) := by
  unfold State.snapWrite
  try dsimp only
  repeat'
    first
    | with_reducible assumption | intro _ | with_reducible apply Keeps.ite | with_reducible apply Keeps.ite_fst
    | with_reducible apply State.holdLatch_keeps | with_reducible apply State.dropLatch_keeps

/-- State.coreSnapWrite keeps all. -/
theorem State.coreSnapWrite_keeps {s0 s : State} (req : Requester) (g : CoreId) (on : Bool) (hk : Keeps s0 s) :
    Keeps s0 (State.coreSnapWrite s req g on) := by
  unfold State.coreSnapWrite
  try dsimp only
  repeat'
    first
    | with_reducible assumption | intro _ | with_reducible apply Keeps.ite | with_reducible apply Keeps.ite_fst
    | with_reducible apply State.holdLatch_keeps | with_reducible apply State.dropLatch_keeps

/-- State.byteWrite keeps all. -/
theorem State.byteWrite_keeps {s0 s : State} (b : Block) (o : Nat) (val : Word) (hk : Keeps s0 s) :
    Keeps s0 (State.byteWrite s b o val) := by
  unfold State.byteWrite
  try dsimp only
  repeat'
    first
    | with_reducible assumption | intro _ | with_reducible apply Keeps.ite | with_reducible apply Keeps.ite_fst
    | with_reducible apply State.hostBytes_keeps | with_reducible apply State.setBytes_keeps
    | with_reducible refine Keeps.foldl ?_ _ _ ?_ | with_reducible refine Keeps.foldl_fst ?_ _ _ ?_
    | with_reducible refine Keeps.of_fst (by with_reducible assumption) ?_ | split

/-- State.storeLow keeps all. -/
theorem State.storeLow_keeps {s0 s : State} (req : Requester) (a : Nat) (val : Word) (hk : Keeps s0 s) :
    Keeps s0 (State.storeLow s req a val) := by
  unfold State.storeLow
  try dsimp only
  repeat'
    first
    | with_reducible assumption | intro _ | with_reducible apply Keeps.ite | with_reducible apply Keeps.ite_fst
    | with_reducible apply State.clearLow_keeps | with_reducible refine Keeps.foldl ?_ _ _ ?_
    | with_reducible refine Keeps.foldl_fst ?_ _ _ ?_
    | with_reducible refine Keeps.of_fst (by with_reducible assumption) ?_ | split
    | with_reducible refine Keeps.record ?_ rfl rfl rfl rfl rfl

/-- State.highWrite keeps all. -/
theorem State.highWrite_keeps {s0 s : State} (req : Requester) (b : Block) (o : Nat) (r : RegSpec) (hi : Word) (hk : Keeps s0 s) :
    Keeps s0 (State.highWrite s req b o r hi) := by
  unfold State.highWrite
  try dsimp only
  repeat'
    first
    | with_reducible assumption | intro _ | with_reducible apply Keeps.ite | with_reducible apply Keeps.ite_fst
    | with_reducible apply State.regWrite_keeps | with_reducible apply State.clearLow_keeps

/-- State.write32 keeps all. -/
theorem State.write32_keeps {s0 s : State} (req : Requester) (a : Nat) (val : Word) (hk : Keeps s0 s) :
    Keeps s0 (State.write32 s req a val) := by
  unfold State.write32
  try dsimp only
  repeat'
    first
    | with_reducible assumption | intro _ | with_reducible apply Keeps.ite | with_reducible apply Keeps.ite_fst
    | with_reducible apply State.byteWrite_keeps | with_reducible apply State.snapWrite_keeps
    | with_reducible apply State.coreSnapWrite_keeps | with_reducible apply State.storeLow_keeps
    | with_reducible apply State.regWrite_keeps | with_reducible apply State.highWrite_keeps
    | with_reducible refine Keeps.foldl ?_ _ _ ?_ | with_reducible refine Keeps.foldl_fst ?_ _ _ ?_
    | with_reducible refine Keeps.of_fst (by with_reducible assumption) ?_ | split

/-- State.write64 keeps all. -/
theorem State.write64_keeps {s0 s : State} (req : Requester) (a : Nat) (val : Dword) (hk : Keeps s0 s) :
    Keeps s0 (State.write64 s req a val) := by
  unfold State.write64
  try dsimp only
  repeat'
    first
    | with_reducible assumption | intro _ | with_reducible apply Keeps.ite | with_reducible apply Keeps.ite_fst
    | with_reducible apply State.write32_keeps | with_reducible apply State.snapWrite_keeps
    | with_reducible apply State.regWrite_keeps | with_reducible apply State.clearLow_keeps
    | with_reducible refine Keeps.foldl ?_ _ _ ?_ | with_reducible refine Keeps.foldl_fst ?_ _ _ ?_
    | with_reducible refine Keeps.of_fst (by with_reducible assumption) ?_ | split

/-- State.writeNow keeps all. -/
theorem State.writeNow_keeps {s0 s : State} (req : Requester) (a size : Nat) (val : Dword) (hk : Keeps s0 s) :
    Keeps s0 (State.writeNow s req a size val) := by
  unfold State.writeNow
  try dsimp only
  repeat'
    first
    | with_reducible assumption | intro _ | with_reducible apply Keeps.ite | with_reducible apply Keeps.ite_fst
    | with_reducible apply State.write32_keeps | with_reducible apply State.write64_keeps

/-- State.hostWrite keeps all. -/
theorem State.hostWrite_keeps {s0 s : State} (req : Requester) (a size : Nat) (val : Dword) (hk : Keeps s0 s) :
    Keeps s0 (State.hostWrite s req a size val) := by
  unfold State.hostWrite
  try dsimp only
  repeat'
    first
    | with_reducible assumption | intro _ | with_reducible apply Keeps.ite | with_reducible apply Keeps.ite_fst
    | with_reducible apply State.modCore_keeps | with_reducible apply State.writeNow_keeps
    | with_reducible refine Keeps.foldl ?_ _ _ ?_ | with_reducible refine Keeps.foldl_fst ?_ _ _ ?_
    | with_reducible refine Keeps.of_fst (by with_reducible assumption) ?_ | split

/-- State.lowHalf keeps all. -/
theorem State.lowHalf_keeps {s0 s : State} (req : Requester) (a : Nat) (val : Word) (hk : Keeps s0 s) :
    Keeps s0 (State.lowHalf s req a val) := by
  unfold State.lowHalf
  try dsimp only
  repeat'
    first
    | with_reducible assumption | intro _ | with_reducible apply Keeps.ite | with_reducible apply Keeps.ite_fst
    | with_reducible apply State.storeLow_keeps | with_reducible refine Keeps.foldl ?_ _ _ ?_
    | with_reducible refine Keeps.foldl_fst ?_ _ _ ?_
    | with_reducible refine Keeps.of_fst (by with_reducible assumption) ?_ | split

/-- State.highHalf keeps all. -/
theorem State.highHalf_keeps {s0 s : State} (req : Requester) (a : Nat) (val : Word) (hk : Keeps s0 s) :
    Keeps s0 (State.highHalf s req a val) := by
  unfold State.highHalf
  try dsimp only
  repeat'
    first
    | with_reducible assumption | intro _ | with_reducible apply Keeps.ite | with_reducible apply Keeps.ite_fst
    | with_reducible apply State.highWrite_keeps | with_reducible refine Keeps.foldl ?_ _ _ ?_
    | with_reducible refine Keeps.foldl_fst ?_ _ _ ?_
    | with_reducible refine Keeps.of_fst (by with_reducible assumption) ?_ | split

/-- State.bar0Write keeps all. -/
theorem State.bar0Write_keeps {s0 s : State} (td : Td) (fn : Fn) (off : Nat) (l : List Byte) (hk : Keeps s0 s) :
    Keeps s0 (State.bar0Write s td fn off l) := by
  unfold State.bar0Write
  try dsimp only
  repeat'
    first
    | with_reducible assumption | intro _ | with_reducible apply Keeps.ite | with_reducible apply Keeps.ite_fst
    | with_reducible apply State.hostWrite_keeps | with_reducible apply State.memWrite_keeps
    | with_reducible apply State.count_keeps | with_reducible refine Keeps.foldl ?_ _ _ ?_
    | with_reducible refine Keeps.foldl_fst ?_ _ _ ?_
    | with_reducible refine Keeps.of_fst (by with_reducible assumption) ?_ | split

/-! ## Slot -/

/-- State.serve keeps all. -/
theorem State.serve_keeps {s0 s : State} (g : CoreId) (x : SvcBeat) (hk : Keeps s0 s) : Keeps s0 (State.serve s g x) := by
  unfold State.serve
  try dsimp only
  repeat'
    first
    | with_reducible assumption | intro _ | with_reducible apply Keeps.ite | with_reducible apply Keeps.ite_fst
    | with_reducible apply State.serveLand_keeps | with_reducible apply State.writeNow_keeps
    | with_reducible apply State.modCore_keeps | with_reducible apply State.lineRead_keeps
    | with_reducible apply State.hostReadNow_keeps | with_reducible refine Keeps.foldl ?_ _ _ ?_
    | with_reducible refine Keeps.foldl_fst ?_ _ _ ?_
    | with_reducible refine Keeps.of_fst (by with_reducible assumption) ?_ | split

/-- State.serviceSlot keeps all. -/
theorem State.serviceSlot_keeps {s0 s : State} (g : CoreId) (hk : Keeps s0 s) : Keeps s0 (State.serviceSlot s g) := by
  unfold State.serviceSlot
  try dsimp only
  repeat'
    first
    | with_reducible assumption | intro _ | with_reducible apply Keeps.ite | with_reducible apply Keeps.ite_fst
    | with_reducible apply State.useSlot_keeps | with_reducible apply State.modCore_keeps
    | with_reducible apply State.serve_keeps | with_reducible refine Keeps.foldl ?_ _ _ ?_
    | with_reducible refine Keeps.foldl_fst ?_ _ _ ?_
    | with_reducible refine Keeps.of_fst (by with_reducible assumption) ?_ | split

/-- State.reserveRead keeps all. -/
theorem State.reserveRead_keeps {s0 s : State} (g : CoreId) (off : Nat) (hk : Keeps s0 s) :
    Keeps s0 (State.reserveRead s g off) := by
  unfold State.reserveRead
  try dsimp only
  repeat'
    first
    | with_reducible assumption | intro _ | with_reducible apply Keeps.ite | with_reducible apply Keeps.ite_fst
    | with_reducible apply State.modCore_keeps

/-! ## Tick -/

/-- State.meshHold keeps all. -/
theorem State.meshHold_keeps {s0 s : State} (hk : Keeps s0 s) : Keeps s0 (State.meshHold s) := by
  unfold State.meshHold
  try dsimp only
  repeat'
    first
    | with_reducible assumption | intro _ | with_reducible apply Keeps.ite | with_reducible apply Keeps.ite_fst
    | with_reducible apply State.count_keeps | with_reducible refine Keeps.foldl ?_ _ _ ?_

/-- State.endOfClk keeps all. -/
theorem State.endOfClk_keeps {s0 s : State} (cores : List CoreId) (hk : Keeps s0 s) : Keeps s0 (State.endOfClk s cores) := by
  unfold State.endOfClk
  try dsimp only
  repeat'
    first
    | with_reducible assumption | intro _ | with_reducible apply Keeps.ite | with_reducible apply Keeps.ite_fst
    | with_reducible apply State.svcClk_keeps | with_reducible apply State.coreClk_keeps
    | with_reducible refine Keeps.foldl ?_ _ _ ?_

/-- State.nextClk keeps all. -/
theorem State.nextClk_keeps {s0 s : State} (hk : Keeps s0 s) : Keeps s0 (State.nextClk s) := by
  unfold State.nextClk
  try dsimp only
  repeat'
    first
    | with_reducible assumption | intro _ | with_reducible apply Keeps.ite | with_reducible apply Keeps.ite_fst
    | with_reducible apply State.modHeddle_keeps

/-- State.startCore keeps all. -/
theorem State.startCore_keeps {s0 s : State} (g : CoreId) (hk : Keeps s0 s) : Keeps s0 (State.startCore s g) := by
  unfold State.startCore
  try dsimp only
  repeat'
    first
    | with_reducible assumption | intro _ | with_reducible apply Keeps.ite | with_reducible apply Keeps.ite_fst
    | with_reducible apply State.knotClk_keeps | with_reducible apply State.prologueClk_keeps
    | with_reducible apply State.holdClk_keeps

/-- State.startOfClk keeps all. -/
theorem State.startOfClk_keeps {s0 s : State} (cores : List CoreId) (hk : Keeps s0 s) :
    Keeps s0 (State.startOfClk s cores) := by
  unfold State.startOfClk
  try dsimp only
  repeat'
    first
    | with_reducible assumption | intro _ | with_reducible apply Keeps.ite | with_reducible apply Keeps.ite_fst
    | with_reducible apply State.startCore_keeps | with_reducible apply State.crossClk_keeps
    | with_reducible refine Keeps.foldl ?_ _ _ ?_

/-- State.tick keeps all. -/
theorem State.tick_keeps {s0 s : State} (hk : Keeps s0 s) : Keeps s0 (State.tick s) := by
  unfold State.tick
  try dsimp only
  repeat'
    first
    | with_reducible assumption | intro _ | with_reducible apply Keeps.ite | with_reducible apply Keeps.ite_fst
    | with_reducible apply State.meshHold_keeps | with_reducible apply State.endOfClk_keeps
    | with_reducible apply State.nextClk_keeps | with_reducible apply State.startOfClk_keeps

end Sys2Proof.Machine
end

