-- ==== Sys2Proof/Tests/Slice0.lean ====
section
/-! SUPPORT. Tests of single commands on small states, from the spec's own numbers, an ill-formed term for each check of
WellFormed, and for each statement that has hypotheses a state and operands that meet them. -/

namespace Sys2Proof.Tests

open Sys2Proof Sys2Proof.Machine Sys2Proof.Claims

/-! ## Ill-formed commands -/

theorem test_ill_formed_size : (Instr.registerWrite .td0a 0xC2000028 3 0).wellFormed = false := by decide
theorem test_ill_formed_write : (Instr.bar0MemoryWrite 0 0 0 []).wellFormed = false := by decide
theorem test_ill_formed_read : (Instr.bar0MemoryRead 0 0 0 4097).wellFormed = false := by decide
theorem test_ill_formed_header : (Instr.boltHeaderArrive 0 0 (some [])).wellFormed = false := by decide
theorem test_ill_formed_payload : (Instr.landPayloadArrive 0 0 (some [])).wellFormed = false := by decide
theorem test_ill_formed_flit : (Instr.flitReceive 0 []).wellFormed = false := by decide
theorem test_ill_formed_width : (Instr.pcieLinkUp 0 0 0 3).wellFormed = false := by decide
theorem test_ill_formed_telemetry : (Instr.avsTelemetry 65536).wellFormed = false := by decide
theorem test_ill_formed_error : (Instr.weftRefReturn 1000000001).wellFormed = false := by decide
theorem test_well_formed_write : (Instr.registerWrite .td0a 0xC2000028 4 1000).wellFormed = true := by decide

/-! ## Numbers of the spec -/

/-- The worked case of §16.3: the minimum reserve at the reset period and at those written, and the budget that
HDL_PICK_BUDGET then reads. -/
theorem test_budget_worked_case : minReserve 1000 1600 = 281 ∧ budgetOf 1000 1600 true 281 = some 0x1845A7 ∧
    minReserve 0xFFFFF 1600 = 25856 ∧ minReserve 250 1600 = 263 ∧ budgetOf 250 1600 true 281 = some 0x60D97 ∧
    budgetOf 250 1600 true 0xAD0 = some 0x603E0 := by decide
/-- The same at the registers: step 2 of the case leaves the default reserve too low, and the budget reads 0. -/
theorem test_budget_register : State.reset.budget = 0x1845A7 ∧ (State.reset.setReg 0xC2000028 0xFFFFF).budget = 0 ∧
    (State.reset.setReg 0xC2000028 0xFA).budget = 0x60D97 := by decide

/-! ## Statements -/

theorem wit_IdleStep : State.reset.pending = [] ∧ State.reset.clocksRun = false ∧
    ({ regs := [(0xC2001104, 4)], heddle := { phase := .window } } : State).clocksRun = true := by decide

theorem wit_Canonical : regsWf State.reset ∧ memWf State.reset ∧ step State.reset = .next State.reset := by
  refine ⟨rfl, rfl, rfl⟩

/-- An OZ40-240: core 0 of Loom dies 0 to 15 is fused off. -/
def grade240 : State := { temple := { fuses := { oz240 := true, cores := BitVec.ofNat 256 ((2 ^ 128 - 1) / 255) } } }
theorem wit_Grades : gradeWf grade240 ∧ gradeWf State.reset ∧ grade240.fusedOff 8 = true ∧ grade240.fusedOff 9 = false := by
  decide +kernel
theorem wit_KeepsRecord : step { State.reset with pending := [.mark 0] } = .next State.reset := rfl

/-- A package in the power state of code n. -/
def inPower (n : Nat) : State := { regs := [(0xC2001104, BitVec.ofNat 64 n)] }

theorem wit_RegisterWriteByAccessCode_word : plainAt (inPower 3) 0xC207F004 .hdl 0x7F004 { rw := 0xFFFFFFFF } ∧
    (0xC207F004 : Word).toNat % 4 = 0 ∧ (inPower 3).windowOf 0xC207F004 = none := by decide
theorem wit_RegisterWriteByAccessCode_dword : plainAt (inPower 3) 0xC2000030 .hdl 0x30
    { wide := true, rwl := 0xFFFFFFFFFFFFFFFF } ∧ (0xC2000030 : Word).toNat % 8 = 0 ∧ (inPower 3).windowOf 0xC2000030 = none := by
  decide
/-- A package with its core clocks up and core 5 running a deck. -/
def coreRuns : State := { inPower 3 with cores := [(5, { run := true })] }
theorem wit_RegisterWriteByAccessCode_window : coreRuns.windowOf 0x81480400 = some 5 := by decide

theorem wit_IllegalRegisterAccess : ¬ ((2 : Nat) = 4 ∧ (0xC2000028 : Word).toNat % 4 = 0) ∧
    ¬ ((2 : Nat) = 8 ∧ (0xC2000028 : Word).toNat % 8 = 0) ∧ (inPower 3).answers (.trd 0) = true ∧
    (inPower 3).barAddr 0 0 (0xC2000028 : Word).toNat = some (0xC2000028 : Word).toNat ∧
    memAt (0xC2000028 : Word).toNat = none ∧ (inPower 3).readErrors (0xC2000028 : Word).toNat 2 = [] ∧
    coreRuns.servedBy 0x81480402 2 = some 5 ∧ coreRuns.readErrors 0x81480402 2 = [] ∧
    (inPower 3).servedBy (0xC2000028 : Word).toNat 2 = none := by decide

theorem wit_ReservedAddresses_word : (0xD0000000 : Word).toNat % 4 = 0 ∧ reservedAt (0xD0000000 : Word).toNat ∧
    (inPower 3).answers (.trd 1) = true ∧ (inPower 3).barAddr 1 0 (0xD0000000 : Word).toNat = some (0xD0000000 : Word).toNat ∧
    (inPower 3).servedBy (0xD0000000 : Word).toNat 4 = none ∧ (inPower 3).readErrors (0xD0000000 : Word).toNat 4 = [] ∧
    (inPower 3).windowOf 0xD0000000 = none := by
  refine ⟨by decide, ⟨by decide, fun b o h => ?_⟩, by decide, by decide, by decide, by decide, by decide⟩
  exact absurd h (by rw [show blockOf (0xD0000000 : Word).toNat = none by decide]; exact fun h => nomatch h)
/-- Offset 0x7FC of a core's register block is unassigned. -/
theorem wit_ReservedAddresses_window : coreRuns.windowOf (0x814807F8 : Word).toNat = some 5 ∧ reservedAt (0x814807F8 : Word).toNat ∧
    coreRuns.servedBy (0x814807F8 : Word).toNat 4 = some 5 ∧ coreRuns.readErrors (0x814807F8 : Word).toNat 4 = [] := by
  refine ⟨by decide, ⟨by decide, fun b o h => ?_⟩, by decide, by decide⟩
  have e : blockOf (0x814807F8 : Word).toNat = some (.core 5, 0x7F8) := by decide
  rw [e] at h; cases h
  exact ⟨by decide, by decide, fun h => absurd h (by decide)⟩
theorem wit_ReservedAddresses_dword : (0xFFFFFFF8 : Word).toNat % 8 = 0 ∧ reservedAt (0xFFFFFFF8 : Word).toNat ∧
    reservedAt ((0xFFFFFFF8 : Word).toNat + 4) ∧ (inPower 3).answers (.trd 0) = true ∧
    (inPower 3).barAddr 0 0 (0xFFFFFFF8 : Word).toNat = some (0xFFFFFFF8 : Word).toNat ∧
    (inPower 3).servedBy (0xFFFFFFF8 : Word).toNat 8 = none := by
  refine ⟨by decide, ⟨by decide, fun b o h => ?_⟩, ⟨by decide, fun b o h => ?_⟩, by decide, by decide, by decide⟩
  · exact absurd h (by rw [show blockOf (0xFFFFFFF8 : Word).toNat = none by decide]; exact fun h => nomatch h)
  · exact absurd h (by rw [show blockOf ((0xFFFFFFF8 : Word).toNat + 4) = none by decide]; exact fun h => nomatch h)

/-- A state whose SMBus window holds a pending low half. -/
def withLow : State := { inPower 3 with low := [{ req := .smbus, addr := 0xC2000030, val := 7 }] }
theorem wit_HalfWritesOfDwordRegister_held : plainAt withLow (0xC2000030 : Word).toNat .hdl 0x30
      { wide := true, rwl := 0xFFFFFFFFFFFFFFFF } ∧
    withLow.target (0xC2000030 + 4 : Word).toNat = some (.hdl, 0x34) ∧ bytesAt .hdl 0x34 = false ∧
    (withLow.low.find? fun (x : LowHalf) => x.req == .smbus && x.addr == (0xC2000030 : Word).toNat).isSome = true := by decide
theorem wit_HalfWritesOfDwordRegister_none : plainAt withLow (0xC2000030 : Word).toNat .hdl 0x30
      { wide := true, rwl := 0xFFFFFFFFFFFFFFFF } ∧
    withLow.target (0xC2000030 + 4 : Word).toNat = some (.hdl, 0x34) ∧
    withLow.low.find? (fun (x : LowHalf) => x.req == .td0a && x.addr == (0xC2000030 : Word).toNat) = none := by decide

theorem wit_SnapshotLatchAndRelease : (inPower 3).answers (snapBlock .weft) = true ∧ (inPower 3).answers (snapBlock .hist) = true ∧
    (inPower 3).coreAnswers 255 = true := by decide

theorem wit_LatchedGroupReadsTogether : (inPower 3).answers (snapBlock .dropInfo) = true ∧
    ∀ l ∈ (inPower 3).latches, l.req = .td1b → l.first = snapFirst .dropInfo := by decide

theorem wit_HostWriteToRunningCoreDiscarded : coreRuns.answers (.trd 1) = true ∧
    coreRuns.barAddr 1 0 (0x81400010 : Word).toNat = some 0x81400010 ∧
    (∀ i < [(1 : Byte), 2].length, memAt (0x81400010 + i) = some (5, 1)) ∧
    coreRuns.coreAnswers 5 = true ∧ coreRuns.runs 5 = true := by decide

theorem wit_HostWriteToIdleCore_regs : (inPower 3).answers (.trd 0) = true ∧
    (inPower 3).barAddr 0 0 (0xC2000028 : Word).toNat = some 0xC2000028 ∧ memAt 0xC2000028 = none := by decide
theorem wit_HostWriteToIdleCore_take : coreRuns.barAddr 0 0 (0x8190003C : Word).toNat = some 0x8190003C ∧
    (0x8190003C + ([(1 : Byte), 2, 3, 4].length - 1)) / 64 = 0x8190003C / 64 ∧ memAt 0x8190003C = some (6, 2) ∧
    coreRuns.coreAnswers 6 = true ∧ coreRuns.runs 6 = false := by decide
theorem wit_HostWriteToIdleCore_beam : coreRuns.barAddr 0 0 (0x37EFFFF : Word).toNat = some 0x37EFFFF ∧
    (0x37EFFFF + ([(1 : Byte)].length - 1)) / 64 = 0x37EFFFF / 64 ∧ memAt 0x37EFFFF = some (6, 0) ∧
    inReserve (64 * (0x37EFFFF / 64)) = false ∧ inReserve (64 * (0x37F0000 / 64)) = true := by decide

theorem wit_HostReadOfMemory_regs : coreRuns.answers (.trd 0) = true ∧
    coreRuns.barAddr 0 0 (0xC2000000 : Word).toNat = some 0xC2000000 ∧ coreRuns.servedBy 0xC2000000 8 = none ∧
    memAt 0xC2000000 = none := by decide
theorem wit_HostReadOfMemory_idle : coreRuns.barAddr 0 0 (0x81900040 : Word).toNat = some 0x81900040 ∧
    coreRuns.servedBy 0x81900040 2 = none ∧ (∀ i < 2, memAt (0x81900040 + i) = some (6, 2)) ∧ coreRuns.coreAnswers 6 = true := by
  decide
theorem wit_HostReadOfMemory_running : coreRuns.barAddr 0 1 (0x81500040 : Word).toNat = some 0x81500040 ∧
    coreRuns.servedBy 0x81500040 2 = some 5 := by decide
theorem wit_HostReadOfMemory_held :
    let s : State := { inPower 3 with cores := [(5, { run := true, heldReads := [.bar0 0 0 0x02800040 2 [] false] })] }
    s.answers (.trd 0) = true ∧ s.barAddr 0 0 (0x02800040 : Word).toNat = some 0x02800040 ∧
    (s.core 5).drainLeft = none ∧ (s.core 5).svcPort = none ∧ (s.core 5).heldReads = [.bar0 0 0 0x02800040 2 [] false] := by decide

theorem wit_ServiceSlotServesByPriority_serve :
    let s : State := { inPower 3 with cores := [(5, { svc := [.bar0 0 0 0x81500040 2 [] false, .out 0 3 9] })], heddle := { clk := 15 } }
    s.works 5 = true ∧ s.slotFree 5 .service = true ∧ (s.core 5).svc ≠ [] ∧ s.svcBlocked 5 (.out 0 3 9) = false := by decide
theorem wit_ServiceSlotServesByPriority_none : (inPower 3).slotFree 5 .service = false ∧ ((inPower 3).core 5).svc = [] := by decide
theorem wit_ServiceSlotServesByPriority_read :
    coreRuns.nextRead 0 0 0x81500040 70 [] = some (0x81500040, 64) ∧ memAt 0x81500040 = some (5, 2) ∧
    coreRuns.nextRead 0 0 0x02800040 70 [] = some (0x02800040, 64) ∧ memAt 0x02800040 = some (5, 0) := by decide
theorem wit_ServiceSlotServesByPriority_reserve :
    let s : State := { inPower 3 with badPar := [0x2FF0008] }
    s.works 5 = true ∧ 3 ≤ s.pwrState ∧ s.badWord (beamBase 5 + (0x7F0000 + 4 * ((9 : BitVec 16).toNat / 4))) = true ∧
    s.badWord (beamBase 5 + (0x7F0000 + 4 * ((4 : BitVec 16).toNat / 4))) = false := by decide

/-- Power state READY with a spool 3 of TD0 that runs: SIZE and TSIZE 6, TAIL 5, RELEASE 0, DONE 4. -/
def spoolRuns : State := { regs := [(0xC00010D0, 0x606), (0xC00010D8, 5), (0xC00010E4, 1), (0xC00010F4, 4), (0xC2001104, 3)] }
theorem wit_DoorbellsAndSettingsOfSpools_tail : spoolRuns.answers (.trd 0) = true ∧ spoolRuns.spoolState 0 3 = 1 ∧
    spoolRuns.isReport 0 3 = false ∧ 0 < sub32 (64 : Word).toNat (spoolRuns.sreg 0 3 0x18) ∧
    sub32 (64 : Word).toNat (spoolRuns.sreg 0 3 0x18) ≤
      2 ^ (spoolRuns.ringSize 0 3).1 - sub32 (spoolRuns.sreg 0 3 0x18) (spoolRuns.sreg 0 3 0x20) ∧
    spoolRuns.clocksRun = true := by decide
theorem wit_DoorbellsAndSettingsOfSpools_tailOver : 2 ^ (spoolRuns.ringSize 0 3).1 -
      sub32 (spoolRuns.sreg 0 3 0x18) (spoolRuns.sreg 0 3 0x20) < sub32 (65 : Word).toNat (spoolRuns.sreg 0 3 0x18) := by decide
theorem wit_DoorbellsAndSettingsOfSpools_thead :
    sub32 (4 : Word).toNat (spoolRuns.spool 0 3).thead.toNat ≤
      sub32 (spoolRuns.sreg 0 3 0x34) (spoolRuns.spool 0 3).thead.toNat ∧
    sub32 (spoolRuns.sreg 0 3 0x34) (spoolRuns.spool 0 3).thead.toNat <
      sub32 (5 : Word).toNat (spoolRuns.spool 0 3).thead.toNat := by decide
theorem wit_DoorbellsAndSettingsOfSpools_settings : spoolRuns.spoolState 0 4 = 0 ∧ 6 ≤ fld (0x20001006 : Word) 4 0 ∧
    fld (0x20001006 : Word) 4 0 ≤ 24 ∧ 6 ≤ fld (0x20001006 : Word) 12 8 ∧ fld (0x20001006 : Word) 12 8 ≤ 16 ∧
    bit (0x20001006 : Word) 29 = true := by decide

theorem wit_SpoolStateChanges : spoolRuns.answers (.trd 0) = true ∧ spoolRuns.spoolState 0 4 = 0 ∧
    spoolRuns.spoolState 0 3 = 1 := by decide
theorem wit_SpoolStateChanges_stopping :
    let s : State := { regs := [(0xC00010E4, 6), (0xC2001104, 3)] }
    s.answers (.trd 0) = true ∧ s.spoolState 0 3 = 2 ∧ (s.spool 0 3).bolts = [] := by decide

/-- spoolRuns with a function that is up. -/
def spoolUp : State := { spoolRuns with td0 := { fa := { up := true, bme := true } } }
theorem wit_BoltFetchAndStart_fetch :
    let s := spoolUp
    s.answers (.trd 0) = true ∧ s.spoolState 0 3 = 1 ∧ s.isReport 0 3 = false ∧ s.master 0 (s.fnOf 0 3) = true ∧
    s.sreg 0 3 0x1C ≠ s.sreg 0 3 0x18 ∧ true ∉ (s.spool 0 3).reads ∧
    (∀ n : Word, (s.spool 0 3).short = some n → n.toNat ≤ sub32 (s.sreg 0 3 0x18) (s.sreg 0 3 0x1C)) ∧
    s.held 0 3 < Config.heldTickets ∧ s.openReads 0 (s.fnOf 0 3) < Config.openReadCap := by
  refine ⟨by decide, by decide, by decide, by decide, by decide, by decide, ?_, by decide, by decide⟩
  intro n h
  rw [show (spoolUp.spool 0 3).short = none by decide] at h
  cases h
/-- Spool 3 of TD0, running, with a header read outstanding. -/
def spoolReads : State := { spoolRuns with td0 := { spools := [(3, { reads := [true] })] } }
theorem wit_BoltFetchAndStart_reading : (spoolReads.spool 0 3).reads = [true] ∧ spoolReads.spoolState 0 3 = 1 ∧
    (spoolReads.fn 0 (spoolReads.fnOf 0 3)).ctoOff = false ∧ (parseBolt (List.replicate 64 0)).slots = 0 := by decide
theorem wit_BoltFetchAndStart_unwanted :
    (({ inPower 3 with td0 := { spools := [(3, { reads := [false] })] } } : State).spool 0 3).reads = [false] := by decide
/-- The 64 bytes of a header with SEQ, opcode and SLOTS. -/
def hdrBytes (seq op slots : Byte) : List Byte :=
  seq :: List.replicate 7 0 ++ op :: List.replicate 19 0 ++ slots :: List.replicate 35 0
theorem wit_BoltFetchAndStart_short : (parseBolt (hdrBytes 1 1 6)).slots ≠ 0 ∧
    (parseBolt (hdrBytes 1 1 6)).slots.toNat ≤ 2 ^ (spoolReads.ringSize 0 3).1 ∧
    sub32 (spoolReads.sreg 0 3 0x18) (spoolReads.sreg 0 3 0x1C) < (parseBolt (hdrBytes 1 1 6)).slots.toNat := by decide
/-- The header of a copy of 4 bytes of core 0 at beam offset 0 to host address 0. -/
def copyBytes : List Byte :=
  1 :: List.replicate 7 0 ++ 3 :: List.replicate 7 0 ++ 4 :: List.replicate 11 0 ++ 1 :: List.replicate 35 0
/-- Granule 0 of core 0 is carry, spool 3 of TD0 runs with a header read open. -/
def copyReady : State :=
  { regs := [(0x80080300, 1), (0xC00010D0, 0x606), (0xC00010D8, 5), (0xC00010E4, 1), (0xC2001104, 3)]
    td0 := { spools := [(3, { reads := [true] })] } }
/-- It with the read answered. -/
def copyRead : State := copyReady.setSpool 0 3 { copyReady.spool 0 3 with reads := (copyReady.spool 0 3).reads.drop 1 }
theorem wit_BoltFetchAndStart_accept :
    let h := parseBolt copyBytes
    (copyReady.spool 0 3).reads = [true] ∧ copyReady.spoolState 0 3 = 1 ∧ h.slots ≠ 0 ∧
    h.slots.toNat ≤ 2 ^ (copyReady.ringSize 0 3).1 ∧
    h.slots.toNat ≤ sub32 (copyReady.sreg 0 3 0x18) (copyReady.sreg 0 3 0x1C) ∧ copyRead.sreg 0 3 0x28 < h.seq.toNat ∧
    copyRead.boltCheck h = none ∧ copyReady.curPick = none ∧ h.op ≠ 4 := by decide
theorem wit_BoltFetchAndStart_fence : (parseBolt (hdrBytes 1 4 1)).slots.toNat = 1 ∧
    copyRead.sreg 0 3 0x28 < (parseBolt (hdrBytes 1 4 1)).seq.toNat ∧ copyRead.boltCheck (parseBolt (hdrBytes 1 4 1)) = none ∧
    (parseBolt (hdrBytes 1 4 1)).op = 4 := by decide
theorem wit_BoltFetchAndStart_bad : copyRead.sreg 0 3 0x28 < (parseBolt (hdrBytes 1 9 1)).seq.toNat ∧
    copyRead.boltCheck (parseBolt (hdrBytes 1 9 1)) = some 9 ∧ (parseBolt (hdrBytes 0 3 1)).seq.toNat ≤ copyRead.sreg 0 3 0x28 := by
  decide
/-- Pick 1 in progress, core 0 with a quota of 8 lines, and the bolt waiting in spool 3 of TD0. -/
def boltDue (b : Bolt) (fate : Nat) (phase : PickPhase) : State :=
  { regs := [(0xC0002000, 8), (0xC2000038, 1), (0xC2001104, 3)], heddle := { phase := phase, srcFate := fate }
    td0 := { spools := [(3, { bolts := [b] })] } }
/-- A copy whose source pick is 0, and a landing bolt of pick p. -/
def copyBolt : Bolt := { hdr := parseBolt copyBytes, num := 0, slot0 := 0, phase := .waiting }
def landBolt (op : Byte) (len p : Word) : Bolt :=
  { copyBolt with hdr := { parseBolt copyBytes with op := op, len := len, pick := p } }
theorem wit_BoltFetchAndStart_copy :
    ((boltDue copyBolt 1 .issuing).spool 0 3).bolts.find? (fun b => b.phase == .waiting) = some copyBolt ∧
    (boltDue copyBolt 1 .issuing).curPick = some 1 ∧ copyBolt.hdr.lands = false ∧
    earlier48 1 ((copyBolt.hdr.pickId + 1) % 2 ^ 48) = false ∧ (copyBolt.hdr.pickId + 1) % 2 ^ 48 = 1 ∧
    (boltDue copyBolt 1 .issuing).works copyBolt.hdr.core = true ∧ (boltDue copyBolt 2 .window).heddle.srcFate = 2 := by decide
theorem wit_BoltFetchAndStart_land :
    (landBolt 1 4 1).hdr.lands = true ∧ earlier48 1 (landBolt 1 4 1).hdr.pickId = false ∧ (landBolt 1 4 1).hdr.pickId = 1 ∧
    (landBolt 1 4 1).hdr.lines ≤ fld ((boltDue (landBolt 1 4 1) 1 .issuing).getReg (trd 0 0x2000)) 12 0 ∧
    fld ((boltDue (landBolt 1 4 1) 1 .issuing).getReg (trd 0 0x2000)) 12 0 < (landBolt 1 1024 1).hdr.lines ∧
    earlier48 1 (landBolt 1 4 3).hdr.pickId = true ∧ earlier48 1 (landBolt 1 4 0).hdr.pickId = false ∧
    (landBolt 1 4 0).hdr.pickId ≠ 1 := by decide
theorem wit_BoltFetchAndStart_past :
    let s : State := { copyReady with heddle := { phase := .issuing } }
    s.curPick = some 0 ∧ (landBolt 1 4 0).hdr.lands = true ∧ earlier48 0 (landBolt 1 4 0).hdr.pickId = false := by decide

/-- TD0 with one bolt of opcode op, LEN 4, in its phase, in spool 3; four bytes of its payload requested. -/
def withBolt (op : Byte) (phase : BoltPhase) : State :=
  { inPower 3 with td0 := { spools := [(3, { bolts := [{ hdr := { parseBolt copyBytes with op := op }, num := 0, slot0 := 0,
                                                           phase := phase, asked := 4, reads := [4] }] })] } }
theorem wit_PayloadsCopiesAndFences_land : (((withBolt 1 .started).spool 0 3).bolts.find? fun b =>
    b.phase == .started && b.hdr.op == 1 && b.got < b.asked).isSome = true ∧
    ((withBolt 1 .started).fn 0 ((withBolt 1 .started).fnOf 0 3)).ctoOff = false := by decide
theorem wit_PayloadsCopiesAndFences_timeoutOff :
    let s : State := { withBolt 1 .started with td0 := { (withBolt 1 .started).td0 with fa := { ctoOff := true } } }
    (s.fn 0 (s.fnOf 0 3)).ctoOff = true := by decide
theorem wit_PayloadsCopiesAndFences_out : (((withBolt 3 .started).spool 0 3).bolts.find? fun b =>
    b.phase == .started && b.hdr.op == 3).isSome = true ∧
    SvcBeat.out 0 3 1 ∉ ((withBolt 3 .started).core 0).svc ∧
    ((withBolt 3 .started).core 0).svcPort ≠ some (.out 0 3 1) := by decide
theorem wit_PayloadsCopiesAndFences_fence : (((withBolt 4 .started).spool 0 3).bolts.head?.any fun b =>
    b.hdr.op == 4 && b.phase == .started) = true := by decide

/-- A state whose spool 3 holds a completed bolt of opcode op and status st at the front of its order. -/
def ticketDue (up : Bool) (done : Dword) (op st : Byte) : State :=
  { regs := [(0xC00010D0, 0x606), (0xC00010E4, 1), (0xC00010F4, done), (0xC2001104, 3)]
    td0 := { fa := { up := up, bme := up }
             spools := [(3, { order := [0], bolts := [{ hdr := { parseBolt copyBytes with op := op }, num := 0, slot0 := 0,
                                                        phase := .finished st }] })] } }
/-- The ring of spool 3 of TD0 is full. -/
abbrev ringFull (s : State) : Prop :=
  s.master 0 (s.fnOf 0 3) = true ∧ 6 ≤ (s.ringSize 0 3).2 ∧ sub32 (s.sreg 0 3 0x34) (s.spool 0 3).thead.toNat = 2 ^ (s.ringSize 0 3).2
theorem wit_TicketsInCompletionOrder : (ticketDue true 5 3 8).answers (.trd 0) = true ∧
    ((ticketDue true 5 3 8).spool 0 3).reports = [] ∧ ((ticketDue true 5 3 8).spool 0 3).order = [0] ∧
    (((ticketDue true 5 3 8).spool 0 3).bolts.find? fun b => b.num == 0).any (fun b => b.status == 8) = true ∧
    ¬ ringFull (ticketDue true 5 3 8) := by decide
theorem wit_TicketsInCompletionOrder_full : ringFull (ticketDue true 64 3 8) := by decide
theorem wit_TicketsInCompletionOrder_tag : (((ticketDue true 5 1 1).spool 0 3).bolts.find? fun b => b.num == 0).any
    (fun b => b.hdr.lands && b.status == 1 && b.digest == none) = true ∧
    (ticketDue true 5 1 1).master 0 ((ticketDue true 5 1 1).fnOf 0 3) = true := by decide
theorem wit_TicketsInCompletionOrder_detached : (ticketDue false 5 3 8).master 0 ((ticketDue false 5 3 8).fnOf 0 3) = false ∧
    (ticketDue false 5 3 8).answers (.trd 0) = true := by decide
theorem wit_TicketsInCompletionOrder_report :
    let s (done : Dword) : State := { ticketDue true done 3 8 with
      td0 := { (ticketDue true done 3 8).td0 with spools := [(3, { reports := [{ bytes := List.replicate 64 0 }] })] } }
    (s 5).answers (.trd 0) = true ∧ ((s 5).spool 0 3).reports = [{ bytes := List.replicate 64 0 }] ∧ ¬ ringFull (s 5) ∧
    ringFull (s 64) := by decide

theorem wit_ProvenanceDigests_start : (inPower 2).answers .tpl = true ∧ (inPower 2).anyRuns = false ∧
    bit ((inPower 2).getReg (tpl 0x204)) 0 = false := by decide
theorem wit_ProvenanceDigests_done : bit (({ regs := [(0xC3000204, 1)] } : State).getReg (tpl 0x204)) 0 = true := by decide
theorem wit_ProvenanceDigests_bolt : (((withBolt 1 .landed).spool 0 3).bolts.find? fun b =>
    b.hdr.seq == 1 && b.phase == .landed && b.digest.isNone).isSome = true := by decide
theorem wit_ProvenanceDigests_history : ({ temple := { histQueue := [⟨1, 0, 1, 0⟩] } } : State).temple.histQueue = [⟨1, 0, 1, 0⟩] ∧
    (⟨1, 0, 1, 0⟩ : HistRec).outcome ≠ 0 := by decide
theorem wit_ProvenanceDigests_waits :
    let s : State := { withBolt 3 (.finished 1) with temple := { histQueue := [⟨0, 0, 0, 0⟩] } }
    ((s.spool 0 3).bolts.find? fun b => b.hdr.seq == 1 && b.hdr.op == 3 && !b.tagDone &&
      (b.phase == .finished 1 || b.phase == .finished 6 || b.phase == .finished 7)).any (fun b =>
        s.temple.hs.lookup (ident b.hdr.epoch.toNat b.hdr.pick.toNat) == none &&
        s.temple.histQueue.any fun r => r.num == b.hdr.pick && r.epoch == b.hdr.epoch) = true := by decide
theorem wit_ProvenanceDigests_tag :
    let s : State := { withBolt 3 (.finished 1) with temple := { hs := [(0, 5)] } }
    ((s.spool 0 3).bolts.find? fun b => b.hdr.seq == 1 && b.hdr.op == 3 && !b.tagDone &&
      (b.phase == .finished 1 || b.phase == .finished 6 || b.phase == .finished 7)).any (fun b =>
        s.temple.hs.lookup (ident b.hdr.epoch.toNat b.hdr.pick.toNat) == some 5) = true := by decide

theorem wit_FunctionsOfTheHostPort_up :
    let s : State := { inPower 2 with pins := { perst1 := true } }
    s.tdRuns 1 0 = true ∧ s.perst 1 = true ∧ (16 : BitVec 5).toNat ∉ [1, 4, 8] ∧ (8 : BitVec 5).toNat ∈ [1, 4, 8] ∧
    (s.fn 1 0).up = false := by decide
/-- TD0 with its function a up, and a spool of it running. -/
def fnUp (sel : Dword) : State :=
  { regs := [(0xC00010E4, 1), (0xC2001104, 2), (0xC3000010, sel)], td0 := { fa := { up := true, bme := true } } }
theorem wit_FunctionsOfTheHostPort_busy : ((fnUp 0x10000).fn 0 0).up = true ∧ bit ((fnUp 0x10000).getReg (tpl 0x10)) 16 = true ∧
    ((fnUp 0x10000).fnSpools 0 0).any (fun sp => (fnUp 0x10000).spoolState 0 sp != 0) = true ∧
    (fnUp 0x10000).bifurcated 0 = false := by decide
theorem wit_FunctionsOfTheHostPort_wide :
    let s : State := { inPower 2 with pins := { perst1 := true } }
    (16 : BitVec 5).toNat = 16 ∧ s.bifurcated 1 = false := by decide
theorem wit_FunctionsOfTheHostPort_quiet :
    let s : State := { fnUp 0x10000 with regs := [(0xC2001104, 2), (0xC3000010, 0x10000)] }
    (s.fn 0 0).up = true ∧ (s.fn 0 1).up = false ∧ bit (s.getReg (tpl 0x10)) 16 = true ∧
    (s.fnSpools 0 0).any (fun sp => s.spoolState 0 sp != 0) = false := by decide
theorem wit_FunctionsOfTheHostPort_unselected : ((fnUp 0).fn 0 0).up = true ∧
    bit ((fnUp 0).getReg (tpl 0x10)) 16 = false := by decide

/-- A package in RUN with pick generation on; owed weft nanoseconds to slew, and the ns before the next slew. -/
def weftUp (owed : Int) (wait : Nat) : State :=
  { regs := [(0xC2000000, 70000), (0xC2000020, 1), (0xC2001104, 4)], heddle := { slewOwed := owed, slewWait := wait } }
theorem wit_WeftCounterAdvances : (weftUp 0 0).weftRuns = true ∧ bit ((weftUp 0 0).getReg (hdl 0x20)) 0 = true ∧
    (weftUp 0 0).slewNext = 0 ∧ (weftUp 0 0).heddle.refLost = false := by decide
theorem wit_WeftCounterAdvances_slews : (weftUp 3 0).slewNext = 3 ∧ (weftUp (-3) 0).slewNext = -3 ∧
    (weftUp 3 0).weftRuns = true ∧ (weftUp (-3) 5).heddle.slewWait ≠ 0 := by decide
theorem wit_WeftCounterAdvances_discipline :
    let s : State := { weftUp 0 0 with regs := [(0xC2000110, 0x100), (0xC2001104, 4)], heddle := { timeOwed := -7 } }
    s.weftRuns = true ∧ s.slewNext = -7 := by decide
theorem wit_WeftCounterAdvances_end :
    let s : State := { regs := [(0xC2000000, 999999), (0xC2001104, 4)], heddle := { phase := .window, k := 1, decided := true } }
    s.weftRuns = true ∧ bit (s.weftNs.getReg (hdl 0x20)) 0 = false ∧ s.weftNs.pickOver = true := by decide
theorem wit_WeftCounterAdvances_return : ({ heddle := { refLost := true } } : State).heddle.refLost = true := by decide

theorem wit_WeftLoad : (inPower 2).answers .hdl = true ∧ (inPower 2).active = false ∧
    (inPower 2).weft ≤ (0 : Word).toNat * 2 ^ 32 + (inPower 2).lowFor .td0a (hdl 0x08) ∧
    (inPower 2).lowFor .td0a (hdl 0x08) < 2 ^ 32 := by decide
theorem wit_WeftLoad_back :
    let s : State := { regs := [(0xC2000000, 1), (0xC2001104, 2)] }
    s.active = false ∧ (0 : Word).toNat * 2 ^ 32 + s.lowFor .td0a (hdl 0x08) < s.weft := by decide
theorem wit_WeftLoad_active : ({ regs := [(0xC2000024, 1), (0xC2001104, 4)] } : State).active = true ∧
    ({ regs := [(0xC2000024, 1), (0xC2001104, 4)] } : State).answers .hdl = true := by decide

theorem wit_PickPeriod : (inPower 4).answers .hdl = true ∧ (inPower 4).active = false ∧ 2 ≤ fld (0xFFFFF : Word) 19 0 ∧
    fld (0x100001 : Word) 19 0 < 2 := by decide

theorem wit_PickReserve : (inPower 4).answers .hdl = true ∧ (inPower 4).active = false ∧
    256 + ((inPower 4).period * (inPower 4).fcore + 65535) / 65536 ≤ fld (281 : Word) 23 0 ∧
    1024 + fld (281 : Word) 23 0 + 1 ≤ (inPower 4).period * (inPower 4).fcore * 995 / 1000 ∧
    bit ((inPower 4).getReg (hdl 0x44)) 16 = true ∧
    fld (280 : Word) 23 0 < 256 + ((inPower 4).period * (inPower 4).fcore + 65535) / 65536 := by decide

theorem wit_LoaderRegisterWrites : (inPower 4).answers .hdl = true ∧ (inPower 4).active = false ∧
    40 * fld (2 : Word) 3 0 + 10 ≤ fld ((inPower 4).getReg (hdl 0x11C)) 15 0 ∧
    fld ((inPower 4).getReg (hdl 0x11C)) 15 0 < 40 * fld (3 : Word) 3 0 + 10 ∧
    40 * fld ((inPower 4).getReg (hdl 0x118)) 3 0 + 10 ≤ fld (50 : Word) 15 0 ∧
    fld (49 : Word) 15 0 < 40 * fld ((inPower 4).getReg (hdl 0x118)) 3 0 + 10 ∧
    (inPower 4).works (BitVec.ofNat 8 (fld (0x40005 : Dword) 7 0)) = true ∧
    (inPower 4).works (BitVec.ofNat 8 (fld (0x40005 : Dword) 25 18)) = true := by decide

theorem wit_ProgramMapKeepsWorkingCores : (inPower 4).answers .hdl = true ∧ (inPower 4).progState = 0 ∧
    ({ regs := [(0xC2000234, 2), (0xC2001104, 4)] } : State).progState ≠ 0 ∧
    ({ regs := [(0xC2000234, 2), (0xC2001104, 4)] } : State).answers .hdl = true := by decide

theorem wit_PickRunRefusals_refused : (inPower 4).answers .hdl = true ∧ bit ((inPower 4).getReg (hdl 0x20)) 0 = false ∧
    runCondition (inPower 4) 1 = true := by decide
/-- A package in RUN whose pick generation may begin. -/
def mayRun : State := { regs := [(0xC2000010, 1), (0xC2000030, 10000), (0xC2001104, 4)] }
theorem wit_PickRunRefusals_accepted : mayRun.answers .hdl = true ∧ bit (mayRun.getReg (hdl 0x20)) 0 = false ∧
    ∀ b < 10, runCondition mayRun b = false := by decide

theorem wit_PickGeneration_first :
    let s : State := { regs := [(0xC2000000, 5), (0xC2000020, 1), (0xC2000024, 1), (0xC2001104, 4)], heddle := { phase := .waiting } }
    s.heddle.phase = .waiting ∧ s.pickInstant 0 ≤ s.weft ∧ s.answers .hdl = true ∧ bit (s.getReg (hdl 0x20)) 0 = true := by decide
theorem wit_PickGeneration_next :
    let s : State := { regs := [(0xC2000000, 1000000), (0xC2000020, 1), (0xC2000024, 1), (0xC2001104, 4)]
                       heddle := { phase := .window, decided := true, k := 1, clk := 256 }, cores := [(5, { run := true })] }
    s.heddle.phase = .window ∧ s.heddle.decided = true ∧ s.pickInstant s.heddle.k ≤ s.weft ∧ s.answers .hdl = true ∧
    bit (s.getReg (hdl 0x20)) 0 = true ∧ s.runs 5 = true ∧ s.heddle.k ≠ 0 ∧ 256 ≤ s.clk := by decide
/-- A package whose program is in a state, with a core map of core 0. -/
def prog (st : Dword) (phase : PickPhase) : State :=
  { regs := (0xC2000200, 1) :: (if st = 0 then [] else [(0xC2000234, st)]) ++ [(0xC2001104, 4)], heddle := { phase := phase } }
theorem wit_PickGeneration_program : (prog 0 .stopped).answers .hdl = true ∧ (prog 0 .stopped).power.recovery = false ∧
    fld ((prog 0 .stopped).getReg (hdl 0x1000)) 1 0 ≠ 2 ∧ (prog 0 .stopped).progState = 0 ∧ (prog 0 .stopped).active = false ∧
    bit ((prog 0 .stopped).getReg (tpl 0x204)) 0 = false ∧ (∃ m < 8, (prog 0 .stopped).getReg (hdl (0x200 + 4 * m)) ≠ 0) ∧
    (prog 1 .stopped).answers .hdl = true ∧ (prog 1 .stopped).progState = 1 ∧ (prog 2 .issuing).answers .hdl = true ∧
    (prog 2 .issuing).progState = 2 := by decide

/-- A package with the fell of pick 7 unresolved. -/
def unresolvedFell : State :=
  { regs := [(0xC2000058, 0x3000000000007), (0xC2001104, 4)], heddle := { unresolved := true } }
theorem wit_UnresolvedFell_match : unresolvedFell.answers .hdl = true ∧
    fld (unresolvedFell.getReg (hdl 0x58)) 49 48 = 3 ∧
    fld (0x1000000000007 : Dword) 47 0 = fld (unresolvedFell.getReg (hdl 0x58)) 47 0 ∧
    fld (0x1000000000007 : Dword) 49 48 = 1 ∧ fld (0x2000000000007 : Dword) 49 48 = 2 ∧
    fld (0x2000000000007 : Dword) 47 0 = fld (unresolvedFell.getReg (hdl 0x58)) 47 0 ∧ fld (0x3000000000007 : Dword) 49 48 = 3 ∧
    fld (0x1000000000008 : Dword) 47 0 ≠ fld (unresolvedFell.getReg (hdl 0x58)) 47 0 ∧
    fld ((inPower 4).getReg (hdl 0x58)) 49 48 ≠ 3 := by decide

/-- A pick in progress in a package that is its own root, and one that is not. -/
def inPick (phase : PickPhase) (vote : Vote) : State :=
  { regs := [(0xC2000000, 999999), (0xC2000020, 1), (0xC2000024, 1), (0xC2001104, 4)], heddle := { phase := phase, k := 1, vote := vote } }
def inTree (root : Dword) : State :=
  { regs := [(0xC2000000, 999999), (0xC2000100, 0x800), (0xC2000108, root), (0xC2001104, 4)]
    heddle := { phase := .window, k := 1, vote := .ready } }
theorem wit_Votes_ledger : (inPick .issuing .none).lateVoters = [] ∧ (inPick .issuing .none).ledgerFails = [] ∧
    (([0, 1] : List Td).all fun td => ((inPick .issuing .none).boltsOf td fun b =>
      b.phase == .landed && (inPick .issuing .none).curPick == some b.hdr.pickId && b.digest.isNone).isEmpty) = true := by decide +kernel
theorem wit_Votes_ledgerFails :
    let s : State := { inPick .window .none with heddle := { phase := .window, k := 1, onTime := true, sigSent := [(0, 1)] } }
    s.heddle.onTime = true ∧ s.ledgerFails = [{ code := 3, place := 0, index := 0, diff := 1 }] := by decide +kernel
theorem wit_Votes_windowReady :
    let s : State := { inPick .issuing .ready with heddle := { phase := .issuing, k := 1, vote := .ready, held := true } }
    let s1 := (({ s with heddle := { s.heddle with phase := .window, winClk := 0 } } : State).outsLate).tallyWindow
    s.windowAt ≤ s.weft ∧ s1.heddle.vote = .ready ∧ s1.heddle.held = true ∧ s1.heddle.decided = false := by decide +kernel
theorem wit_Votes_windowLate :
    let s (o : Overseer) (v : Vote) : State := { inPick .issuing v with overseer := o }
    let s1 (o : Overseer) (v : Vote) :=
      (({ s o v with heddle := { (s o v).heddle with phase := .window, winClk := 0 } } : State).outsLate).tallyWindow
    (s1 {} .late).heddle.vote = .late ∧ (s1 {} .none).heddle.vote = .none ∧ (s1 {} .none).lateVoters = [] ∧
    (s1 { faultNow := true } .none).heddle.vote = .none ∧
    namedVoter (s1 { faultNow := true } .none).lateVoters = some (1, 0x100) := by decide +kernel
theorem wit_Votes_window : (inPick .issuing .none).heddle.phase = .issuing ∧
    (inPick .issuing .none).windowAt ≤ (inPick .issuing .none).weft := by decide
theorem wit_Votes_deadline (root : Dword) (h : root = 0 ∨ root = 1) :
    let s := inTree root
    s.heddle.phase = .window ∧ s.heddle.decided = false ∧ s.heddle.vote = .ready ∧ s.overseer.resync = false ∧
    s.windowAt + s.deadline ≤ s.weft ∧ s.isRoot = decide (root = 1) ∧ s.pkg = 0 ∧ s.heddle.childReady = [] := by
  rcases h with rfl | rfl <;> decide
theorem wit_Votes_drain :
    let s : State := { inPick .window .ready with cores := [(5, { drainLeft := some 0, squashing := true })] }
    (s.core 5).drainLeft = some 0 ∧ (s.core 5).squashing = true ∧ (s.core 5).undo = none := by decide
/-- A pick in progress in a domain of two with one control record of a kind waiting on port 2, whose child it is. -/
def withRecord (kind : Byte) (root : Dword) (out : Byte) : State :=
  { regs := [(0xC2000100, 0x800), (0xC2000108, root), (0xC2001104, 4)], heddle := { phase := .issuing, k := 1, vote := .ready }
    ports := [(2, { ctrlIn := [kind :: List.replicate 6 0 ++ out :: List.replicate 200 0] })] }
theorem wit_Votes_records : (withRecord 2 0x40001 1).curPick.isSome = true ∧ (withRecord 2 0x40001 1).children.contains 2 = true ∧
    (withRecord 2 0x40001 1).heddle.childReady = [] ∧ leAt (((withRecord 2 0x40001 1).port 2).ctrlIn.headD []) 0 1 = 2 ∧
    leAt (((withRecord 2 0x40001 1).port 2).ctrlIn.headD []) 1 6 = (withRecord 2 0x40001 1).pickId.toNat ∧
    leAt (((withRecord 4 0x40000 1).port 2).ctrlIn.headD []) 0 1 = 4 ∧
    leAt (((withRecord 4 0x40000 1).port 2).ctrlIn.headD []) 7 1 = 1 ∧
    leAt (((withRecord 4 0x40000 2).port 2).ctrlIn.headD []) 7 1 = 2 ∧ (withRecord 4 0x40000 2).overseer.resync = false ∧
    (withRecord 3 0x40000 7).isRoot = false ∧ (withRecord 3 0x40001 7).isRoot = true ∧
    (withRecord 3 0x40001 7).heddle.decided = false ∧ leAt (((withRecord 3 0x40000 7).port 2).ctrlIn.headD []) 0 1 = 3 := by decide

/-- Core 0 of a package in RUN runs a deck of len cards, the card given standing at index 0; cfg are its core registers. -/
def deck (card : Dword) (len idx : Nat) (fetched : Option Nat) : State :=
  { regs := [(0xC2000024, 1), (0xC2001104, 4)]
    mem := (leBytes 8 card.toNat).zipIdx.filterMap fun e => if e.1 = 0 then none else some (0x80000000 + e.2, e.1)
    heddle := { phase := .issuing, k := 1 }
    cores := [(0, { run := true, front := { run := true, idx := idx, len := len, fetched := fetched } })] }
theorem wit_CardFetch : (deck 4 1 0 none).sequencing 0 = true ∧ ((deck 4 1 0 none).core 0).front.run = true ∧
    (∀ w < 16, (deck 4 1 0 none).badWord (auxBase 0 + 64 * 0 + 4 * w) = false) ∧
    (deck 4 1 8191 none).sequencing 0 = true ∧ (deck 4 8192 8192 none).sequencing 0 = true := by decide
theorem wit_CardFetch_parity :
    let s : State := { deck 4 1 0 none with badPar := [0x8000003C] }
    s.sequencing 0 = true ∧ s.badWord (auxBase 0 + 64 * 0 + 4 * 15) = true := by decide
theorem wit_CardDecode_endpick : (deck 4 1 0 (some 0)).sequencing 0 = true ∧
    (deck 4 1 0 (some 0)).decodeCard 0 ((deck 4 1 0 (some 0)).bytes (auxBase 0 + 64 * 0) 64) = .endpick := by decide +kernel
theorem wit_CardDecode_fault :
    (deck 0x14 1 0 (some 0)).decodeCard 0 ((deck 0x14 1 0 (some 0)).bytes (auxBase 0 + 64 * 0) 64) = .fault 2 0 0 := by
  decide +kernel
theorem wit_CardDecode_loop :
    (deck 0x10000000202 3 0 (some 0)).decodeCard 0 ((deck 0x10000000202 3 0 (some 0)).bytes (auxBase 0 + 64 * 0) 64) =
      .loop { first := 1, last := 1, remaining := 1 } := by decide +kernel
theorem wit_CardDecode_issue :
    let s := deck 0x801 2 0 (some 0)
    (match s.decodeCard 0 (s.bytes (auxBase 0 + 64 * 0) 64) with
      | .inst _ _ => true | _ => false) = true ∧
    (s.core 0).queueFull (BitVec.ofNat 64 (leAt (s.bytes (auxBase 0 + 64 * 0) 64) 0 8)) = false := by decide +kernel
theorem wit_CardDecode_held :
    let i : Inst := { step := 0, soff := 0, delta := 0, card := 0, slots := [], pro := false, rb := false, re := false,
                      spec := false, started := false, mark := ⟨0, [], 0, 0, none⟩, from' := 0 }
    let c : Core := { run := true, window := List.replicate 512 i, front := { run := true, len := 2, fetched := some 0 } }
    let s : State := { deck 0x801 2 0 (some 0) with cores := [(0, c)] }
    s.sequencing 0 = true ∧ (s.core 0).front.run = true ∧ Config.windowCap ≤ (s.core 0).window.length := by decide +kernel
theorem wit_Loop : (({ cores := [(0, { front := { loopCard := some ⟨1, 1, 1⟩ } })] } : State).core 0).front.loopCard =
    some ⟨1, 1, 1⟩ := by decide

/-- Core 0 with one decoded card in its window, due at the clk. -/
def issueDue : State :=
  { deck 4 1 0 none with cores := [(0, { run := true, front := { run := true, ended := true }, window := [
    { step := 0, soff := 0, delta := 0, card := 0, slots := [], pro := false, rb := false, re := false, spec := false,
      started := false, mark := ⟨0, [], 0, 0, none⟩, from' := 0 }] })] }
theorem wit_Issue : (match issueDue.headInst 0 with | some (_, []) => true | _ => false) = true := by decide +kernel
theorem wit_Retire :
    let s : State := { cores := [(0, { live := [(0, 0)] })] }
    (s.core 0).live.find? (fun x => (s.core 0).instDone s.now x.1) = some (0, 0) := by decide
theorem wit_Endpick :
    let s : State := { deck 4 1 0 none with cores := [(0, { run := true, front := { run := true, ended := true } })] }
    s.inDeck 0 = true ∧ (s.core 0).inUse = [] := by decide
theorem wit_Capture :
    let s : State := { cores := [(0, { run := true, capStop := true, firstPick := true })] }
    (s.core 0).run = true ∧ (s.core 0).capStop = true ∧ (s.core 0).firstPick = true ∧ s.dropped = false := by decide

/-- Core 0 of a package in RUN with a selection in a state, its selector word and its shed table entry 2. -/
def selecting (sel : SelPhase) (word entry : Dword) : State :=
  { regs := (if word = 0 then [] else [(0x80080200, word)]) ++ (if entry = 0 then [] else [(0x80080250, entry)]) ++
      [(0x80080300, 1), (0xC2001104, 4)]
    heddle := { phase := .window, k := 1, vote := .ready, now := 9 }
    cores := [(0, { run := true, sel := sel, done := true })] }
theorem wit_ShedSelect_static : ((selecting .due 0x20000000 0x80000000).core 0).sel = .due ∧
    (selecting .due 0x20000000 0x80000000).sequencing 0 = true ∧
    bit ((selecting .due 0x20000000 0x80000000).creg 0 0x200) 31 = false ∧
    bit ((selecting .due 0x20000000 0x80000000).shedEntry 0 (fld ((selecting .due 0x20000000 0x80000000).creg 0 0x200) 30 28)) 31 =
      true ∧
    bit ((selecting .due 0x30000000 0x80000000).shedEntry 0 (fld ((selecting .due 0x30000000 0x80000000).creg 0 0x200) 30 28)) 31 =
      false := by decide
theorem wit_ShedSelect_dynamic :
    let s : State := { selecting .due 0x80000000 0x80000000 with mem := [(0, 2)] }
    let off := 4 * fld (s.creg 0 0x200) 22 2
    (s.core 0).sel = .due ∧ s.sequencing 0 = true ∧ bit (s.creg 0 0x200) 31 = true ∧ s.carryBit 0 (off / 65536) = true ∧
    s.badOf 0 [off, off + 1, off + 2, off + 3] = [] ∧
    bit (s.shedEntry 0 (leNat (s.beamBytes 0 [off, off + 1, off + 2, off + 3]) / 2 ^ fld (s.creg 0 0x200) 27 23 % 8)) 31 = true := by
  decide +kernel
theorem wit_ShedSelect_notCarry : (selecting .due 0x80010000 0).sequencing 0 = true ∧
    (selecting .due 0x80010000 0).carryBit 0 (4 * fld ((selecting .due 0x80010000 0).creg 0 0x200) 22 2 / 65536) = false ∧
    bit ((selecting .due 0x80010000 0).creg 0 0x200) 31 = true := by decide
theorem wit_SelectorReadDone : ((selecting (.reading 2 0) 0 0).core 0).sel = .reading 2 0 ∧
    0 + 4 ≤ (selecting (.reading 2 0) 0 0).now ∧ ((selecting (.reading 2 0) 0 0).core 0).specRun = false ∧
    ((selecting (.reading 0 0) 0 0).core 0).nextVariant = 0 ∧ ((selecting (.reading 2 0) 0 0).core 0).nextVariant ≠ 2 := by decide
theorem wit_SelectorReadDone_spec :
    let s : State := { selecting (.reading 2 0) 0 0 with cores := [(0, { sel := .reading 2 0, specRun := true, nextVariant := 2 })] }
    (s.core 0).sel = .reading 2 0 ∧ (s.core 0).specRun = true ∧ (s.core 0).nextVariant = 2 := by decide
theorem wit_UndoCancelAck :
    let s : State := { cores := [(0, { undo := some ⟨0, [3], 2⟩ })], heddle := { now := 99 } }
    (s.core 0).undo = some ⟨0, [3], 2⟩ ∧ (3 : CoreId) ∈ (⟨0, [3], 2⟩ : Undo).waiting ∧ 0 + 2 * meshLat 0 3 ≤ s.now := by decide
theorem wit_PrologueStart :
    let s : State := { regs := [(0x80080240, 0x80000000), (0xC2001104, 4)], heddle := { phase := .window, k := 1, vote := .ready }
                       cores := [(0, { run := true, done := true })] }
    s.sequencing 0 = true ∧ bit (s.shedEntry 0 (s.predicted 0 (fld (s.creg 0 0x204) 2 0))) 31 = true ∧
    (s.core 0).done = true ∧ (s.core 0).specRun = false := by decide

/-- Core 0 with one issued command of a slot. -/
def withCmd (slot : Nat) (op : Dword) : State :=
  { cores := [(0, { run := true, cmds := [{ step := 0, slot := slot, op := op, card := 0, phase := .issued }] })] }
/-- The one issued command of `withCmd`. -/
abbrev theCmd (slot : Nat) (op : Dword) : Cmd := { step := 0, slot := slot, op := op, card := 0, phase := .issued }
theorem wit_BattenCommandsPerform : ∀ e ∈ battenOps, (withCmd 2 (BitVec.ofNat 64 e.1)).nextOp 0 2 e.1 =
    some (theCmd 2 (BitVec.ofNat 64 e.1)) ∧ (withCmd 3 0).nextOp 0 2 e.1 = none := by decide

theorem wit_BattenIntegerElements : (0xFFFFFFFF : Nat) < 2 ^ 32 ∧
    (btElem 0x40 0xD 0xD 0xD false none 0 0 0xFFFFFFFF 1).code = 0 ∧
    (btElem 0x41 0xD 0xD 0xD false none 0 0 0 1).code = 0xFFFFFFFF ∧
    (btElem 0x42 0xD 0xD 0xD false none 0 0 0xFFFFFFFF 0xFFFFFFFF).code = 1 ∧
    (btElem 0x48 0xD 0xD 0xD false none 0 0 0x80000000 0).code = 0x80000000 ∧
    (btElem 0x4F 0xD 0xD 0xD false none 0 0 0xFFFF0000 0xF0F0F0F0).code = 0x0F0FF0F0 ∧
    (btElem 0x50 0xD 0xD 0xD false none 0 0 0xC0000001 33).code = 0x80000002 ∧
    (btElem 0x51 0xD 0xD 0xD false none 0 0 0x80000001 4).code = 0xF8000000 ∧
    (btElem 0x45 0xD 0xD 0xD false none 0 0 0xFFFFFFFF 1).code = 1 ∧
    (btElem 0x4C 0xD 0xD 0xD false none 0 0 0 0xFFFFFFFF).code = 1 := by decide

theorem wit_ReedCommandsPerform : ∀ e ∈ reedOps, (withCmd 3 (BitVec.ofNat 64 e.1)).nextOp 0 3 e.1 =
    some (theCmd 3 (BitVec.ofNat 64 e.1)) ∧ (withCmd 2 0).nextOp 0 3 e.1 = none := by decide

theorem wit_HealdCommands : ∀ op ∈ [0x80, 0x81, 0x82, 0x83], (withCmd 4 (BitVec.ofNat 64 op)).nextOp 0 4 op =
    some (theCmd 4 (BitVec.ofNat 64 op)) ∧ (withCmd 3 0).nextOp 0 4 op = none := by decide

theorem wit_CarderCommands : (withCmd 5 0xA0).nextOp 0 5 0xA0 = some (theCmd 5 0xA0) ∧
    (withCmd 5 0xA1).nextOp 0 5 0xA1 = some (theCmd 5 0xA1) ∧ bit (theCmd 5 0xA1).op 50 = false ∧
    (withCmd 5 0x40000000000A1).nextOp 0 5 0xA1 = some (theCmd 5 0x40000000000A1) ∧
    bit (theCmd 5 0x40000000000A1).op 50 = true ∧
    (withCmd 5 0x20000000000A2).nextOp 0 5 0xA2 = some (theCmd 5 0x20000000000A2) ∧
    (withCmd 5 0xA3).nextOp 0 5 0xA3 = some (theCmd 5 0xA3) ∧ bit (theCmd 5 0xA3).op 51 = false ∧
    ∀ op ∈ [0xA0, 0xA1, 0xA2, 0xA3], (withCmd 4 0).nextOp 0 5 op = none := by decide

theorem wit_WeavePass : (withCmd 1 0x20).nextOp 0 1 0x20 = some (theCmd 1 0x20) ∧
    (withCmd 1 0x280000000020).nextOp 0 1 0x20 = some (theCmd 1 0x280000000020) ∧
    bit (theCmd 1 0x280000000020).op 43 = true ∧ (withCmd 1 0x21).nextOp 0 1 0x21 = some (theCmd 1 0x21) ∧
    (withCmd 1 0x21).nextOp 0 1 0x20 = none ∧ (withCmd 1 0x20).nextOp 0 1 0x21 = none := by decide
/-- Core 0 with the array state given. -/
def withWeave (w : Weave) : State := { cores := [(0, { weave := w })] }
/-- A pass of one vector of one column that waits for a line of its data. -/
def aPass : PassTime :=
  { step := 0, f := none, d := 0, s := 1, m := 1, n := 1, last := 131, row := 0, acc := true, cols := [[1]]
    act := [{ due := 0, need := 0, leave := 0, accs := [{ line := 0, mask := 1 }] }], wgt := [] }
theorem wit_ArrayGroups :
    fld ((withWeave { idleClk := 256 }).creg 0 0x400) 15 4 = 256 ∧
    ((withWeave { idleClk := 256 }).core 0).weave.idleClk = 256 ∧
    ((withWeave { idleClk := 256 }).core 0).weave.busy 0 = false ∧
    ((withWeave { passes := [aPass] }).core 0).weave.busy 0 = true ∧
    ((withWeave { passes := [aPass] }).core 0).weave.stalls 0 = true ∧ 0 < aPass.m ∧ 0 < aPass.n ∧ aPass.n ≤ 128 ∧
    ((withWeave { gateSeq := .gating 0, gated := 15 }).core 0).weave.gateSeq = .gating 0 ∧
    ((withWeave { gateSeq := .ungating 0, gated := 2 }).core 0).weave.gateSeq = .ungating 0 ∧
    ((withWeave { gateSeq := .ungating 0, gated := 1 }).core 0).weave.gated = 1 := by decide

/-- A package in RUN with core 0 as given. -/
def core0 (c : Core) : State := { regs := [(0xC2001104, 4)], cores := [(0, c)] }
/-- Core 0 with one read of line 0 presented on port 8. -/
def oneRead : State :=
  core0 { runs := [{ owner := .cmd 0 4, start := 0, steps :=
    [{ kind := .read, port := 8, due := 0, grp := 0, accs := [{ line := 0, mask := 1 }] }] }] }
/-- Core 0 with one entry in its store buffer that covers bytes of line 0. -/
def oneEntry (mask : Dword) : State := core0 { sbuf := [{ line := 0, mask := mask, data := 0 }] }
theorem wit_BeamReads :
    ((((oneRead.stopRuns 0).beginSteps 0).1.arb 0).reads.find? fun y => y.port == 8 && y.acc.line == 0 && y.acc.mask == 1) =
      some { key := .run 0 0, port := 8, acc := { line := 0, mask := 1 }, fill := false } ∧
    (∀ y ∈ (((oneRead.stopRuns 0).beginSteps 0).1.arb 0).reads, y.port ≠ 7 ∨ y.acc.line ≠ 0 ∨ y.acc.mask ≠ 1) ∧
    (oneRead.presents 0 8).length = 1 := by decide +kernel
theorem wit_BeamDrain :
    (((((oneEntry 15).stopRuns 0).beginSteps 0).1.arb 0).drains.find? fun e => bankOf e.line == 0) =
      some { line := 0, mask := 15, data := 0 } ∧ (((oneEntry 15).stopRuns 0).beginSteps 0).2 = [] ∧
    partialMask 15 = false ∧ partialMask 1 = true ∧
    (((((oneEntry 1).stopRuns 0).beginSteps 0).1.arb 0).drains.find? fun e => bankOf e.line == 0) =
      some { line := 0, mask := 1, data := 0 } ∧ (((oneEntry 1).stopRuns 0).beginSteps 0).2 = [] ∧
    (∀ e ∈ ((((oneEntry 1).stopRuns 0).beginSteps 0).1.arb 0).drains, bankOf e.line ≠ 1) := by decide +kernel
theorem wit_BeamFaults : (core0 {}).coreAnswers 0 = true ∧ (core0 {}).runs 0 = false ∧ (core0 {}).running = [] ∧
    (core0 { run := true }).runs 0 = true ∧ ((core0 { injectDue := some (some 4) }).core 0).injectDue = some (some 4) := by
  decide +kernel

/-- Core 0 with one accepted sync command. -/
def withSync (op : Dword) : State :=
  { cores := [(0, { run := true, cmds := [{ step := 0, slot := 7, op := op, card := 0, phase := .accepted }] })] }
/-- A signal of the pick for knot 3. -/
def aSig (n : Nat) (pro : Bool) : KnotSig :=
  { knot := 3, val := 1, pick := BitVec.ofNat 8 n, src := .mesh, tr := none, step := none, pro := pro, remote := none, due := 0 }
theorem wit_KnotCommands : (withCmd 7 0xE0).nextOp 0 7 0xE0 = some (theCmd 7 0xE0) ∧
    (withCmd 7 0xE1).nextOp 0 7 0xE1 = some (theCmd 7 0xE1) ∧ (withCmd 7 0xE4).nextOp 0 7 0xE4 = some (theCmd 7 0xE4) ∧
    (withSync 0xE0).nextSync 0 0xE0 = some { theCmd 7 0xE0 with phase := .accepted } := by decide
theorem wit_KnotFence : ({ withSync 0xE0 with heddle := { now := 1 } } : State).fenceOpen 0 0 0 = true ∧
    (withSync 0xE0).now = 0 := by decide +kernel
theorem wit_KnotWaitReady : (withCmd 7 0xE1).knotReady 0 0 0 = true ∧ ((withCmd 7 0xE1).core 0).knotNow = [] ∧
    (withCmd 7 0xE1).gatePending 0 0 0 = false ∧ (withCmd 7 0x80000E1).knotReady 0 0 1 = false := by decide
theorem wit_KnotSignals : firstSig (((core0 { sigIn := [aSig 0 false] }).core 0).sigIn.filter fun y => y.due ≤ 0) =
      some (aSig 0 false) ∧
    firstSig (((core0 { sigIn := [aSig 1 true] }).core 0).sigIn.filter fun y => y.due ≤ 0) = some (aSig 1 true) ∧
    firstSig (((core0 { sigIn := [aSig 9 false] }).core 0).sigIn.filter fun y => y.due ≤ 0) = some (aSig 9 false) ∧
    (core0 {}).pickBits = 0 ∧ (core0 {}).dropped = false ∧
    ((core0 { appliedNow := 4, knotQueue := List.replicate 16 (aSig 0 false) }).core 0).knotQueue.length = 16 ∧
    (aSig 1 true).pick = BitVec.ofNat 8 ((core0 {}).pickNum.toNat + 1) ∧
    (aSig 9 false).pick ≠ (core0 {}).pickBits ∧
    ∀ x ∈ ((core0 { sigIn := [{ aSig 0 false with due := 1 }] }).core 0).sigIn, (core0 {}).now < x.due := by decide

/-- Core 0's channel 0 sends to its own channel 1, whose only sender it is. -/
def chanRegs : List (Nat × Dword) :=
  [(routeReg 0 0, BitVec.ofNat 64 (2 * 2 ^ 62 + 1 * 2 ^ 46)), (routeReg 0 1, BitVec.ofNat 64 (3 * 2 ^ 62))]
/-- Core 0 with those channels. -/
def chan (c : Core) : State := { regs := chanRegs, cores := [(0, c)] }
/-- A message from channel 0 to channel 1. -/
abbrev aMsg : Msg := { fromCore := 0, fromChan := 0, chan := 1, slot := 0, bytes := [7], pick := 0, step := 0 }
theorem wit_ChanSend : (chan { cmds := [theCmd 7 0xE2] }).nextOp 0 7 0xE2 = some (theCmd 7 0xE2) ∧
    (chan { cmds := [theCmd 7 0xE2] }).credits 0 0 = List.range 16 ∧
    ((chan {}).core 0).send.lookup 0 = none ∧ fld ((chan {}).route 0 0) 63 62 = 2 := by decide
theorem wit_ChanSendPerform : (chan { cmds := [{ theCmd 7 0xE2 with phase := .accepted }], claimed := [⟨0, 0⟩] }).nextSync 0
    0xE2 = some { theCmd 7 0xE2 with phase := .accepted } ∧ (chan {}).syncTurn 0 = true ∧
    (chan { syncAt := some 0 }).syncTurn 0 = false ∧
    ((chan { claimed := [⟨0, 0⟩] }).core 0).claimed.find? (fun y => y.step == 0) = some ⟨0, 0⟩ := by decide
theorem wit_MessageArrive : ((chan { msgIn := [(aMsg, 0)] }).core 0).msgIn.find? (fun e => e.2 ≤ (chan {}).now) = some (aMsg, 0) ∧
    (chan {}).stale 0 = false ∧ (chan {}).stale 1 = true ∧ fld ((chan {}).route 0 1) 63 62 = 3 ∧
    senderAt ((chan {}).route 0 1) (0 % (fld ((chan {}).route 0 1) 61 60 + 1)) = (0, 0) ∧
    fld ((chan {}).route 0 2) 63 62 ≠ 3 ∧
    ((chan { msgAckIn := [⟨0, 0, 0⟩] }).core 0).msgAckIn.find? (fun e => e.due ≤ (chan {}).now) = some ⟨0, 0, 0⟩ := by decide
theorem wit_ChanRecv : (chan { cmds := [theCmd 7 0x1E3] }).nextOp 0 7 0xE3 = some (theCmd 7 0x1E3) ∧
    ((chan { recv := [(1, ⟨0, [⟨0, [7], 0⟩]⟩)] }).core 0 |>.recvEnd 1).slots.find?
      (fun y => y.slot == 0 && decide (y.from' ≤ (chan {}).now)) = some ⟨0, [7], 0⟩ ∧
    (chan { cmds := [{ theCmd 7 0x1E3 with phase := .accepted }] }).nextSync 0 0xE3 =
      some { theCmd 7 0x1E3 with phase := .accepted } ∧
    ((chan { popped := [⟨0, [7]⟩] }).core 0).popped.find? (fun y => y.step == 0) = some ⟨0, [7]⟩ ∧
    ((chan { creditIn := [⟨0, 16, 0, 0⟩] }).core 0).creditIn.find? (fun e => e.due ≤ (chan {}).now) = some ⟨0, 16, 0, 0⟩ := by
  decide

/-- Core 0 with one transfer in entry 5. -/
def withTr (t : Transfer) (c : Core) : State := { cores := [(0, { c with track := [(5, { gen := 0, tr := some t })] })] }
/-- A copy with GVAL 1 on knot 0, and an ungated one. -/
def aTr (ph : TransferPhase) : Transfer :=
  { op := BitVec.ofNat 64 (0xC0 + 2 ^ 47), card := 0, step := 0, shu := 0, pick := 0, phase := ph, issueOrder := 0 }
theorem wit_TransfersTake : (withCmd 6 0xC0).nextOp 0 6 0xC0 = some (theCmd 6 0xC0) ∧
    (withCmd 6 0xC1).nextOp 0 6 0xC1 = some (theCmd 6 0xC1) ∧ (withCmd 6 0xC2).nextOp 0 6 0xC2 = some (theCmd 6 0xC2) ∧
    (List.range 64).find? (fun n => (((withTr (aTr .gated) {}).core 0).trk n).tr.isNone) = some 0 := by decide
theorem wit_TransferGate : (((withTr (aTr .gated) {}).core 0).trk 5).tr = some (aTr .gated) ∧
    (withTr (aTr .gated) {}).knotReady 0 0 1 = false ∧
    ({ withTr (aTr .gated) {} with regs := [(knotReg 0 0, 1)] } : State).knotReady 0 0 1 = true := by decide
theorem wit_TransferStart : (((withTr (aTr (.ready 0)) {}).core 0).trk 5).tr = some (aTr (.ready 0)) ∧
    ((withTr (aTr (.ready 0)) {}).core 0).shuStart.lookup 0 = none ∧ (withTr (aTr (.ready 0)) {}).now = 0 ∧
    ((withTr (aTr (.ready 0)) {}).core 0).transfers = [(5, aTr (.ready 0))] ∧
    ((withTr (aTr (.ready 0)) {}).leg 0 (aTr (.ready 0)) 0).src.remote = false ∧
    (withTr (aTr (.ready 0)) {}).live ⟨0, 5, 0, 0, 0⟩ = true := by decide
theorem wit_TransferTimeout :
    let t : Transfer := { aTr (.started 0) with firstOut := some 0, toSend := 1 }
    let s : State := { withTr t {} with regs := [(0xC2000000, 100000)] }
    1000 * fld (s.getReg (hdl 0x11C)) 15 0 ≤ (s.getReg (hdl 0) - 0).toNat ∧ s.awaits 0 t = true ∧
    s.awaits 0 (aTr (.started 0)) = false ∧ (aTr (.started 0)).firstOut = none := by decide

/-- A beat of core 0's entry 5 for core 1, of a class. -/
def aBeat (cls : SlotClass) (staged : Bool) : Beat :=
  { cls := cls, dst := 1, due := 0, body := .writes staged [(0, 7)] ⟨0, 5, 0, 0, 0⟩ 0, order := 0 }
/-- A beat for another package. -/
def aRemote : RemoteBeat := { due := 0, body := .write 0 [(0, 7)] ⟨0, 5, 0, 0, 0⟩, order := 0 }
theorem wit_BeatSend : ({ withTr (aTr (.started 0)) {} with heddle := { clk := 1 } } : State).slotFree 0 .write = true ∧
    (withTr (aTr (.started 0)) { meshOut := [aBeat .read false] }).beatLive (aBeat .read false).body = true ∧
    leastBy (·.order) (((withTr (aTr (.started 0)) { meshOut := [aBeat .read false] }).core 0).meshOut.filter fun b => b.due ≤ 0) =
      some (aBeat .read false) ∧ (aBeat .read false).dst ≠ 0 ∧
    (withTr (aTr (.started 0)) {}).slotFree 0 .remote = true ∧
    leastBy (·.order) (((withTr (aTr (.started 0)) { remoteOut := [aRemote] }).core 0).remoteOut.filter fun b => b.due ≤ 0) =
      some aRemote ∧ (withTr (aTr (.started 0)) {}).remoteLive aRemote.body = true := by decide
theorem wit_BeatLand :
    let s : State := withTr (aTr (.started 0)) { beatsIn := [aBeat .read false] }
    let r : State := withTr (aTr (.started 0)) { beatsIn := [aBeat .read false], landing := [(0, [aBeat .read true])] }
    let f : State := { withTr (aTr (.started 0)) { landing := [(2, List.replicate 8 (aBeat .remote true))] } with
      heddle := { clk := 15 } }
    ((s.dropDead 0 .read).core 0).beatsIn.find? (fun b => b.cls == .read && decide (b.due ≤ s.now)) =
      some (aBeat .read false) ∧ (s.dropDead 0 .read).slotFree 0 .read = true ∧
    ((s.dropDead 0 .read).core 0).landQ (classNum .read) = [] ∧
    ((r.dropDead 0 .read).core 0).landQ (classNum .read) = [aBeat .read true] ∧
    (f.dropDead 0 .remote).slotFree 0 .remote = false ∧
    ((f.dropDead 0 .remote).core 0).landQ (classNum .remote) = List.replicate 8 (aBeat .remote true) := by decide +kernel
theorem wit_StagedArrive :
    ((withTr (aTr (.started 0)) { stagedIn := [⟨⟨0, 1, 0, 0, .shuttle 0 0⟩, some ⟨0, 5, 0, 0, 0⟩, 0⟩] }).core 0).stagedIn.find?
      (fun x => x.due ≤ 0) = some ⟨⟨0, 1, 0, 0, .shuttle 0 0⟩, some ⟨0, 5, 0, 0, 0⟩, 0⟩ ∧
    (withTr (aTr (.started 0)) {}).live ⟨0, 5, 0, 0, 0⟩ = true ∧ (withTr (aTr (.started 0)) {}).live ⟨0, 5, 1, 0, 0⟩ = false ∧
    ((withTr (aTr (.started 0)) { acksIn := [⟨⟨0, 5, 0, 0, 0⟩, 0, true⟩] }).core 0).acksIn.find? (fun x => x.due ≤ 0) =
      some ⟨⟨0, 5, 0, 0, 0⟩, 0, true⟩ := by decide +kernel

/-- Port 0 in a state of Table 12.1, its die answering, at a weft. -/
def withPort (st w : Nat) (x : Port) : State :=
  { regs := [(0xC2000000, BitVec.ofNat 64 w), (0xC2001104, 4), (portReg 0 4, BitVec.ofNat 64 st)].filter fun e => e.2 != 0
    ports := [(0, x)] }
theorem wit_PortWrites : (withPort 0 0 {}).portOn 0 = true ∧ (withPort 0 0 {}).portState 0 = 0 ∧
    (withPort 5 0 {}).portState 0 = 5 ∧ (withPort 6 0 {}).portState 0 = 6 ∧ fld (0x00100010 : Word) 9 0 = 16 ∧
    fld (0x001001F0 : Word) 9 0 = 496 ∧ fld (0x001001F0 : Word) 25 16 = 16 ∧ fld (0x0010000F : Word) 9 0 < 16 := by decide
theorem wit_PortRounds : ((withPort 1 0 {}).port 0).roundOpen = none ∧ (withPort 1 0 {}).portState 0 = 1 ∧
    ((withPort 1 1000000 { roundOpen := some 0 }).port 0).roundOpen = some 0 ∧ (withPort 1 1000000 {}).weft = 1000000 ∧
    (withPort 2 0 {}).portState 0 = 2 ∧ (withPort 3 0 {}).portState 0 = 3 ∧ (withPort 4 0 {}).portState 0 = 4 := by decide
/-- 64 probes with a round trip whose half is 60 ns take class 0 (Table 12.3). -/
theorem wit_PortMeasure : ((withPort 4 0 { probes := 64, bestRtt := none }).port 0).meas = 0 ∧
    max 0 (960 : BitVec 16).toNat ≤ 16 * classNs 0 ∧ 12800 < max 0 (12801 : BitVec 16).toNat := by
  refine ⟨?_, by decide, by decide⟩
  show (0 - Config.probeTurnaround) / 2 = 0
  simp
theorem wit_PortAttempt : (withPort 2 500000000 {}).weft = 500000000 ∧ (withPort 2 500000000 {}).portState 0 = 2 ∧
    fld ((withPort 258 500000000 {}).getReg (portReg 0 4)) 8 4 = 16 ∧ (withPort 258 500000000 {}).portState 0 = 2 ∧
    (withPort 5 0 { rx0 := List.replicate 16 0xFF }).portState 0 = 5 ∧
    (parseHeader (List.replicate 16 0xFF)).malformed 0 = true := by decide +kernel

theorem wit_FlitSend : (withPort 5 0 {}).portState 0 = 5 ∧
    ((withPort 5 0 { resend := [⟨1, [1], 0⟩] }).port 0).resend = [⟨1, [1], 0⟩] ∧
    ((withPort 5 0 { ctrlOut := [[2]] }).port 0).ctrlOut = [[2]] ∧
    ((withPort 5 0 { tx0 := [1], cred0 := 1 }).port 0).nextVc = some 0 ∧
    ((withPort 5 0 { tx1 := [1], cred1 := 1 }).port 0).nextVc = some 1 ∧ ((withPort 5 0 {}).port 0).nextVc = none ∧
    ((withPort 5 0 { tx0 := [1], cred0 := 1, tx1 := [1], cred1 := 1 }).port 0).nextVc = some 0 := by decide
theorem wit_FlitReplayFull : Config.replayCap ≤ ((withPort 5 0 { replay := List.replicate Config.replayCap ⟨1, [], 0⟩ }).port
    0).replay.length := by
  show Config.replayCap ≤ (List.replicate Config.replayCap _).length
  rw [List.length_replicate]
/-- Whole flits from 252 bytes and a CRC: with the CRC of the bytes they are good, with another they are not. -/
theorem wit_FlitReceive (l : List Byte) (h : l.length = 252) (v : Nat) :
    (l ++ leBytes 4 v).length = 256 ∧ leAt (l ++ leBytes 4 v) 252 4 = v % 2 ^ 32 ∧ (l ++ leBytes 4 v).take 252 = l := by
  refine ⟨by simp [h, leBytes], ?_, by simp [← h]⟩
  have : slice (l ++ leBytes 4 v) 252 4 = leBytes 4 v := by
    rw [slice, ← h, List.drop_left]; rfl
  rw [leAt, this]
  simp only [leBytes, leNat, BitVec.toNat_ofNat]; omega
/-- The first bytes of a NULL flit, of a record with SEQ 1 (as a port expects first), 2 and 4,096 - 600. -/
theorem wit_FlitFields : ∀ e ∈ [(0, 0, 0), (66, 2, 1), (130, 2, 2), (2 + 64 * 3496, 2, 3496)],
    leNat (leBytes 6 e.1) % 16 = e.2.1 ∧ leNat (leBytes 6 e.1) / 64 % 4096 = e.2.2 ∧
    ((withPort 5 0 {}).port 0).rxSeq = 1 := by decide
theorem wit_Replay : ((withPort 5 2000 { replay := [⟨1, [1], 0⟩] }).port 0).replay = [⟨1, [1], 0⟩] ∧
    (withPort 5 2000 { replay := [⟨1, [1], 0⟩] }).weft = 2000 ∧ (withPort 4 0 {}).portState 0 = 4 ∧
    ((withPort 4 0 { ctrlIn := [leBytes 1 6] }).port 0).ctrlIn = [[6]] ∧ leAt ([6] : List Byte) 0 1 = 6 := by decide

/-- Port 0 of package 0 with bytes in its channels, route 0 leading through port 0. -/
def withRx (a b : List Byte) : State :=
  { regs := [(slv 0 0x10000, 1)], ports := [(0, { rx0 := a, rx1 := b })] }
/-- A packet of package 0 for package 0. -/
def aPacket (type nl : Nat) (data : List Byte) : List Byte :=
  (⟨type, nl, false, 0, 0, 0, 5, 0, 0, 0⟩ : Header).bytes ++ data
/-- What stands at the head of the channel is the packet, and it is served. -/
def served (vc : Fin 2) (type : Nat) (l : List Byte) : Bool :=
  match (if vc = 0 then withRx l [] else withRx [] l).takePacket 0 vc type with
  | some (h, _, _) => h.type == type && h.dpkg == (withRx [] []).pkg && h.tpick == (withRx [] []).pickBits.toNat &&
      !h.lines.any (withRx [] []).refusedLine && ((withRx [] []).carryLines h).isEmpty && (withRx [] []).works 0 &&
      ((withRx [] []).routePort 0 0).isSome
  | none => false
theorem wit_RequestsServed : served 0 1 (aPacket 1 1 (List.replicate 64 0)) = true ∧ served 0 2 (aPacket 2 1 []) = true ∧
    served 0 3 (aPacket 3 0 []) = true := by decide +kernel
theorem wit_RequestsTurnedAway : (withRx [] []).pkg = 0 ∧ (withRx [] []).refusedLine 0x80000000 = true ∧
    (withRx [] []).refusedLine 0x7F0000 = true ∧
    ({ withRx [] [] with temple := { fuses := { cores := 1 } } } : State).works 0 = false ∧
    ({ regs := [(coreReg 0 0x300, 1)] } : State).carryLines ⟨1, 1, false, 0, 0, 0, 5, 0, 0, 0⟩ = [0] ∧
    ({} : State).routePort 0 0 = none ∧
    (({ sds := [(0, { writing := [([1], 2)] })] } : State).sd 0).writing.find? (fun x => x.1 == [1]) = some ([1], 2) := by
  decide +kernel

theorem wit_Responses : served 1 0x11 (aPacket 0x11 1 (List.replicate 64 0)) = true ∧ served 1 0x12 (aPacket 0x12 0 []) = true ∧
    served 1 0x13 (aPacket 0x13 0 []) = true ∧ served 1 0x14 (aPacket 0x14 0 []) = true ∧
    (withTr (aTr (.started 0)) {}).live (⟨0x12, 0, false, 0, 0, 0, 5, 0, 0, 0⟩ : Header).owner = true ∧
    (withTr (aTr (.started 0)) {}).live (⟨0x12, 0, false, 0, 0, 0, 6, 0, 0, 0⟩ : Header).owner = false := by decide +kernel
theorem wit_RouteDownClear :
    let s : State := { regs := [(0xC2001104, 4), (portReg 0 4, 5), (slv 0 0x10000, 9)] }
    s.answers (.slv 0) = true ∧ s.anyRuns = false ∧ fld (s.routeTo 0 0) 6 4 = 0 ∧ s.portState (portOf 0 0) = 5 ∧
    ({ s with cores := [(0, { run := true })] } : State).anyRuns = true := by decide

/-- A package in RUN with the registers and micro-state of its Heddle die as given. -/
def heddle0 (regs : List (Nat × Dword)) (h : Heddle) (x : Port) : State :=
  { regs := regs ++ [(0xC2001104, 4), (portReg 0 4, 5)], heddle := h, ports := [(0, x)] }
theorem wit_TimeRecords : (heddle0 [(0xC2000000, 65536)] {} {}).portState 0 = 5 ∧ (heddle0 [(0xC2000000, 65536)] {} {}).weft =
    65536 ∧ (heddle0 [(0xC2000110, 0x100)] {} {}).timeRoot = false ∧ (heddle0 [(0xC2000110, 0x100)] {} {}).timeUp = 0 ∧
    (heddle0 [] {} {}).timeRoot = true ∧
    ((heddle0 [] {} { ctrlIn := [leBytes 1 1 ++ leBytes 8 5] }).port 0).ctrlIn = [leBytes 1 1 ++ leBytes 8 5] ∧
    leAt (leBytes 1 1 ++ leBytes 8 5) 0 1 = 1 ∧
    (heddle0 [(0xC2000000, 200000), (0xC2000110, 0)] {} {}).timeRoot = false := by decide
theorem wit_BarrierCfg : (heddle0 [] {} {}).answers .hdl = true ∧ (heddle0 [] {} {}).active = false ∧
    (heddle0 [(0xC2000024, 1)] {} {}).active = true := by decide
theorem wit_BarrierGo : (heddle0 [(0xC2000120, 1)] {} {}).armed = true ∧ bit ((heddle0 [(0xC2000120, 1)] {} {}).getReg (hdl 0x108)) 0 = true ∧
    (heddle0 [(0xC2000120, 1)] {} {}).safe = false ∧ (heddle0 [] {} {}).armed = false := by decide
theorem wit_BarrierRecord :
    ((heddle0 [] {} { ctrlIn := [barrierRec 5 20000] }).port 0).ctrlIn = [barrierRec 5 20000] ∧
    leAt (barrierRec 5 20000) 0 1 = 5 ∧ signed 32 (leAt (barrierRec 5 20000) 9 4) = 20000 ∧
    signed 32 (leAt (barrierRec 5 (-1)) 9 4) = -1 ∧ (heddle0 [] {} {}).portNs 0 = 60 ∧
    (heddle0 [] { barrier := some ⟨5, 0, false⟩ } {}).heddle.barrier = some ⟨5, 0, false⟩ ∧
    (heddle0 [] { barrier := some ⟨5, 9, false⟩ } {}).weft < 9 := by decide
theorem wit_BarrierLate : (heddle0 [(0xC2000000, 5), (0xC2000120, 1)] {} {}).armed = true ∧
    (heddle0 [(0xC2000000, 5), (0xC2000120, 1)] {} {}).weft = 5 := by decide

theorem wit_OverseerCompare : (heddle0 [] {} {}).overseer.resync = false ∧
    (heddle0 [] {} {}).overseer.delay.headD 0 = (0 : BitVec 256) ∧ (1 : BitVec 256) ≠ 0 ∧ (heddle0 [] {} {}).safe = false ∧
    (heddle0 [(0xC2001000, 2)] {} {}).safe = true ∧ (heddle0 [] {} {}).heddle.phase = .stopped ∧
    (heddle0 [] { phase := .issuing } {}).heddle.phase = .issuing ∧
    ({ heddle0 [] {} {} with overseer := { resync := true } } : State).curPick.isSome = false := by decide
theorem wit_OverseerSelftest : (heddle0 [] {} {}).weftRuns = true ∧ (heddle0 [] {} {}).weft % 1000000 = 0 ∧
    (0 : BitVec 256).getLsbD ((heddle0 [] {} {}).getReg (hdl 0x1018)).toNat = false := by decide
theorem wit_OvsHalt : (heddle0 [] {} {}).answers .hdl = true ∧ bit (0x80000000 : Word) 31 = true ∧
    ({ heddle0 [] {} {} with cores := [(0, { run := true })] } : State).works 0 = true ∧
    ({ heddle0 [] {} {} with cores := [(0, { run := true })] } : State).runs 0 = true ∧
    (heddle0 [] {} {}).runs 0 = false := by decide

/-- An event of weft 0. -/
def anEvent : Event := ⟨0, 0x9801, 0x10A, 0, 0, 0, 0⟩
theorem wit_LogWrite :
    ({ heddle0 [(0xC2000000, 16)] {} {} with logs := [(39, ⟨[], [anEvent], some 0⟩)] } : State).log 39 =
      ⟨[], [anEvent], some 0⟩ ∧
    ({ heddle0 [(0xC2000000, 16)] {} {} with logs := [(39, ⟨[], [anEvent], some 0⟩)] } : State).weft = 16 := by decide
theorem wit_ErrorStatus : bit (0x9801 : BitVec 16) 11 = true ∧ bit (0x9001 : BitVec 16) 11 = false ∧
    (heddle0 [] {} {}).errPending = 0 ∧ (heddle0 [(0xC2001020, 0x200)] {} {}).errPending = 0x200 ∧
    ({ heddle0 [] {} {} with statusDue := [0x9001] } : State).statusDue = [0x9001] := by decide

/-- A package in RUN with Temple die registers as given. -/
def temple0 (regs : List (Nat × Dword)) (t : Temple) : State := { regs := (0xC2001104, 4) :: regs, temple := t }
theorem wit_Reboot : (temple0 [] {}).active = false ∧ bit ((temple0 [] {}).getReg (hdl 0x20)) 0 = false ∧
    (temple0 [] {}).progState = 0 ∧ (temple0 [] {}).answers .tpl = true ∧ (temple0 [] {}).mayShut 0 = true ∧
    ({ temple0 [] {} with regs := [(0xC2000024, 1)] } : State).active = true := by decide
theorem wit_Flash : (temple0 [(tpl 0x408, 1)] {}).answers .tpl = true ∧ bit ((temple0 [] {}).getReg (tpl 0x40C)) 0 = false ∧
    fld ((temple0 [(tpl 0x408, 1)] {}).getReg (tpl 0x408)) 12 0 = 1 ∧ (temple0 [] {}).shuttingDown = false ∧
    (temple0 [] {}).touchesSelected 0 0x10000 = false ∧ fld ((temple0 [] {}).getReg (tpl 0x408)) 12 0 = 0 ∧
    (temple0 [(tpl 0x10, 1)] {}).touchesSelected 0x7FFFFF 1 = true ∧ (temple0 [(tpl 0x10, 1)] {}).touchesSelected 0x800000 1 = false ∧
    bit ((temple0 [(tpl 0x40C, 1)] {}).getReg (tpl 0x40C)) 0 = true ∧
    (temple0 [] { busy := some ⟨1, 0, 1⟩ }).temple.busy = some ⟨1, 0, 1⟩ := by decide

theorem wit_TallyTreadle : (temple0 [] {}).answers (.trd 0) = true ∧
    (temple0 [] {}).getReg (trdTally 0 0 + 0x18) = (temple0 [] {}).getReg (trdTally 0 0 + 0x10) ∧
    (temple0 [(trdTally 0 0 + 0x18, 1)] {}).getReg (trdTally 0 0 + 0x18) = 1 ∧
    fld ((temple0 [(trdTally 0 0, 0x10)] {}).getReg (trdTally 0 0)) 5 4 = 1 ∧
    fld ((temple0 [(trdTally 0 0, 0x10)] {}).getReg (trdTally 0 0)) 21 16 = 0 ∧
    bit ((temple0 [(trdTally 0 0 + 0x28, 0x10)] {}).getReg (trdTally 0 0 + 0x28)) 4 = true ∧
    (temple0 [] {}).getReg (trdTally 0 0 + 0x24) = (temple0 [] {}).getReg (trdTally 0 0 + 0x20) ∧
    (temple0 [(trdTally 0 0 + 0x20, 1)] {}).getReg (trdTally 0 0 + 0x20) = 1 := by decide
/-- Channel 0 of Loom die 0 in ONCE mode over 4 bytes of core 0's granule 0. -/
def tallyRegs : List (Nat × Dword) := [(loomTally 0 0, 0x20), (loomTally 0 0 + 0xC, 4)]
theorem wit_TallyLoom : (temple0 tallyRegs {}).answers (.ldie 0) = true ∧
    fld ((temple0 tallyRegs {}).getReg (loomTally 0 0)) 5 4 = 2 ∧ ((temple0 tallyRegs {}).tally 0 0).busy = false ∧
    (temple0 tallyRegs {}).runs 0 = false ∧ (temple0 tallyRegs {}).carryBit 0 0 = false ∧
    (temple0 ((coreReg 0 0x300, 1) :: tallyRegs) {}).carryBit 0 0 = true ∧
    ({ temple0 tallyRegs {} with cores := [(0, { run := true })] } : State).runs 0 = true ∧
    ({ temple0 tallyRegs {} with tallies := [(0, { busy := true })] } : State).tally 0 0 = { busy := true } ∧
    (({ temple0 tallyRegs {} with tallies := [(0, { busy := true, got := [1, 2, 3, 4] })] } : State).tally 0 0).got.length = 4 ∧
    fld ((temple0 tallyRegs {}).getReg (loomTally 0 0 + 0xC)) 22 0 = 4 := by decide
/-- The check values of Table 14.9 over "123456789". -/
theorem test_tally_algorithms : (([0, 1, 2, 3] : List Nat).map fun alg =>
    tallyCrc alg [0x31, 0x32, 0x33, 0x34, 0x35, 0x36, 0x37, 0x38, 0x39]) =
    [0xE3069283, 0xCBF43926, 0x6C40DF5F0B497347, 0x29B1] := by decide +kernel

/-- A package in a power state with the power logic given. -/
def power0 (st : Nat) (p : Power) (h : Heddle) : State := { regs := [(0xC2001104, BitVec.ofNat 64 st)], power := p, heddle := h }
theorem wit_ClkCfg : coreMillivolt 1234 = none ∧ coreMillivolt (fld ((800 : Word) &&& 0x10FFF) 11 0) = some 620 ∧
    (power0 4 {} {}).answers .hdl = true ∧ (power0 4 {} {}).active = false ∧ (power0 4 {} {}).below 620 = false ∧
    (power0 4 {} {}).below 800 = true ∧ (power0 2 {} {}).pwrState = 2 ∧
    (power0 4 {} { clkChange := true }).heddle.clkWanted = none := by decide
theorem wit_PowerRequest : bit (0x80000003 : Word) 31 = true ∧ fld (0x80000003 : Word) 2 0 = 3 ∧
    bit (power0 4 {} {}).temple.settings.policyHost 3 = true ∧ (power0 4 {} {}).safe = false ∧
    (power0 4 {} {}).mayShut 0 = true ∧ fld (0x80000005 : Word) 2 0 = 5 ∧
    ({ power0 3 {} {} with temple := { settings := { policyHost := 0 } } } : State).temple.settings.policyHost = 0 ∧
    ({ power0 3 {} {} with regs := [(0xC2001000, 2), (0xC2001104, 3)] } : State).safe = true := by decide
theorem wit_PowerSteps : (power0 4 { seq := .step 3 } {}).avsBusy = false ∧ (power0 4 { seq := .step 3 } {}).pwrState = 4 ∧
    (power0 3 { avs := [(0, ⟨640, false, true, 0⟩)] } {}).power.avs.lookup 0 = some ⟨640, false, true, 0⟩ ∧
    fld ((power0 3 {} {}).getReg (hdl 0x1134)) 12 0 = 500 ∧
    ({ power0 3 {} {} with regs := [(0xC2000000, 500000), (0xC2001104, 3)] } : State).weft = 500000 := by decide

theorem wit_PowerOn :
    let s : State := { pins := { vddAux := true, resetN := true, pwrFailN := true }, power := { cold := true } }
    s.power.seq = .none ∧ s.pwrState = 0 ∧ s.powerOnDue = some ⟨0, 3, 0⟩ ∧
    ({ s with power := {} } : State).powerOnDue = none ∧ State.reset.pins.resetN = false := by decide
theorem wit_PowerOnSteps : (power0 0 { seq := .powerOn 6 } {}).avsBusy = false ∧
    (power0 0 { seq := .powerOn 6, avs := [(0, ⟨640, false, true, 0⟩)] } {}).avsBusy = true ∧
    ({ power0 0 { seq := .powerOn 3, enIo := true } {} with regs := [(0xC2000000, 10000000)] } : State).weft = 10000000 := by
  decide
theorem wit_Shutdown : (power0 4 {} {}).power.seq = .none ∧ (power0 4 {} {}).pwrState = 4 ∧ (power0 1 {} {}).pwrState = 1 ∧
    (power0 3 { seq := .phaseA 0 } {}).active = false ∧ (power0 3 { seq := .phaseA 0 } {}).pwrState = 3 ∧
    ({ power0 3 { seq := .phaseA 0, supplyFail := true, failHighSince := some 0 } {} with
      regs := [(0xC2000000, 2000000)], pins := { pwrFailN := true } } : State).weft = 2000000 := by decide

theorem wit_DiePower : (power0 3 {} {}).answers .hdl = true ∧ (power0 3 {} {}).progState = 0 ∧ (power0 3 {} {}).active = false ∧
    (∀ d < 32, (power0 3 {} {}).boltOnDie d = false) ∧ bit ((power0 3 {} {}).getReg (hdl 0x1128)) 35 = true ∧
    (1 : Nat) ∈ (power0 3 { dieDown := [1] } {}).power.dieDown ∧ (1 : Nat) ∉ (power0 3 { dieUp := [1] } {}).power.dieDown ∧
    inDie 0 0x80080000 = true ∧ inDie 0 0x82080000 = false := by decide
theorem wit_Islands : (power0 4 {} {}).fusedOff 0 = false ∧ (power0 4 {} {}).runs 0 = false ∧
    ({ power0 4 {} {} with cores := [(0, { run := true })] } : State).runs 0 = true := by decide
theorem wit_Wake : bit (power0 1 {} {}).temple.settings.wakeEn 1 = true ∧ bit (power0 1 {} {}).temple.settings.wakeEn 2 = true ∧
    bit (power0 1 {} {}).temple.settings.wakeEn 3 = true ∧ bit (power0 1 {} {}).temple.settings.wakeEn 4 = false ∧
    (power0 1 {} {}).perst 0 = false ∧ (power0 1 {} {}).pwrState = 1 ∧ (power0 1 {} {}).power.seq = .none ∧
    ({ power0 1 {} {} with temple := { settings := { wakeEn := 0 } } } : State).temple.settings.wakeEn = 0 := by decide

theorem wit_Smbus : (power0 4 { smbLive := true } {}).power.smbLive = true ∧ (power0 0 {} {}).power.smbLive = false ∧
    fld (3 : Byte) 7 3 = 0 ∧ fld (8 : Byte) 7 3 ≠ 0 ∧ bit (power0 0 {} {}).temple.settings.wakeEn 0 = true := by decide

theorem wit_Limits : (power0 4 { enCore := true } {}).power.enCore = true ∧ fld ((power0 4 {} {}).getReg (hdl 0x1130)) 10 0 = 1650 ∧
    fld ((power0 4 {} {}).getReg (hdl 0x1130)) 27 16 = 180 ∧ ([10000 + 180] : List Nat).sum ≤ 10 * 1650 ∧
    10 * 1650 < ([20000 + 180] : List Nat).sum ∧ (power0 4 { overCount := 2 } {}).power.overCount = 2 ∧
    (power0 4 {} {}).weftRuns = true ∧ (power0 4 {} {}).temple.settings.thermC = 110 ∧ (100 : BitVec 16).toInt = 110 - 10 ∧
    (0xFFFF : BitVec 16).toInt = -1 := by decide
theorem wit_LimitWrites : (power0 4 {} {}).answers .hdl = true ∧ fld (100 : Word) 10 0 = 100 ∧ fld (99 : Word) 10 0 < 100 ∧
    fld (1650 : Word) 10 0 = 1650 ∧ 1650 < fld (1651 : Word) 10 0 ∧ fld (50 : Word) 12 0 = 50 ∧ fld (5000 : Word) 12 0 = 5000 ∧
    5000 < fld (5001 : Word) 12 0 := by decide

end Sys2Proof.Tests
end

section
/-! PROOFS. Every command and every step keeps what `Keeps` lists: the operations' lemmas of Laws/Keeps*.lean put together
along the arms of `exec` and the two cases of `step`. -/

namespace Sys2Proof.Machine

/-- Every command answers a next state, and it keeps all: each arm is one operation of the model, which has its lemma. -/
theorem exec_next_keeps (i : Instr) (s : State) : ∃ t, exec i s = .next t ∧ Keeps s t := by
  have hk := Keeps.refl s
  cases i with
  | registerWrite => exact ⟨_, rfl, State.hostWrite_keeps _ _ _ _ hk⟩
  | lowHalfWrite => exact ⟨_, rfl, State.lowHalf_keeps _ _ _ hk⟩
  | highHalfWrite => exact ⟨_, rfl, State.highHalf_keeps _ _ _ hk⟩
  | snapshotLatch | snapshotRelease => exact ⟨_, rfl, State.snapWrite_keeps _ _ _ hk⟩
  | coreSnapshotLatch | coreSnapshotRelease => exact ⟨_, rfl, State.coreSnapWrite_keeps _ _ _ hk⟩
  | bar0MemoryWrite => exact ⟨_, rfl, State.bar0Write_keeps _ _ _ _ hk⟩
  | bar0MemoryRead => exact ⟨_, rfl, State.bar0Read_keeps _ _ _ _ hk⟩
  | bar0ReadRelease => exact ⟨_, rfl, State.bar0Release_keeps _ hk⟩
  | serviceSlotAccess => exact ⟨_, rfl, State.serviceSlot_keeps _ hk⟩
  | configRequest => exact ⟨_, rfl, State.configRequest_keeps _ _ _ hk⟩
  | spoolTailDoorbell => exact ⟨_, rfl, State.tailDoorbell_keeps _ _ _ _ hk⟩
  | spoolTheadDoorbell => exact ⟨_, rfl, State.theadDoorbell_keeps _ _ _ _ hk⟩
  | spoolEnable => exact ⟨_, rfl, State.spoolEnable_keeps _ _ hk⟩
  | spoolDisable => exact ⟨_, rfl, State.spoolDisable_keeps _ _ hk⟩
  | spoolHeadWrite => exact ⟨_, rfl, State.spoolHead_keeps _ _ _ hk⟩
  | spoolCfgWrite => exact ⟨_, rfl, State.spoolCfg_keeps _ _ _ hk⟩
  | spoolStopped => exact ⟨_, rfl, State.spoolStopped_keeps _ _ hk⟩
  | boltFetch => exact ⟨_, rfl, State.boltFetch_keeps _ _ hk⟩
  | boltHeaderArrive => exact ⟨_, rfl, State.headerArrive_keeps _ _ _ hk⟩
  | boltStart => exact ⟨_, rfl, State.boltStart_keeps _ _ hk⟩
  | landPayloadArrive => exact ⟨_, rfl, State.payloadArrive_keeps _ _ _ hk⟩
  | outCopyBeat => exact ⟨_, rfl, State.outBeat_keeps _ _ hk⟩
  | fenceComplete => exact ⟨_, rfl, State.fenceComplete_keeps _ _ hk⟩
  | ticketWrite => exact ⟨_, rfl, State.ticketWrite_keeps _ _ hk⟩
  | poisonedWrite => exact ⟨_, rfl, State.poisonedWrite_keeps _ _ hk⟩
  | pcieLinkDown => exact ⟨_, rfl, State.linkDown_keeps _ _ hk⟩
  | pcieFundamentalReset => exact ⟨_, rfl, State.fundamentalReset_keeps _ hk⟩
  | hotReset | linkDisable | functionLevelReset => exact ⟨_, rfl, State.resetDetach_keeps _ _ _ hk⟩
  | busMasterClear => exact ⟨_, rfl, State.busMasterClear_keeps _ _ hk⟩
  | tallyArm => exact ⟨_, rfl, State.tallyArm_keeps _ _ hk⟩
  | tallyStreamReset => exact ⟨_, rfl, State.tallyReset_keeps _ _ hk⟩
  | weftTick => exact ⟨_, rfl, State.weftTick_keeps hk⟩
  | weftRefLost => exact ⟨_, rfl, State.refLost_keeps hk⟩
  | weftRefReturn => exact ⟨_, rfl, State.refReturn_keeps _ hk⟩
  | weftSetWrite => exact ⟨_, rfl, State.weftSet_keeps _ _ hk⟩
  | pickRun => exact ⟨_, rfl, State.pickRun_keeps hk⟩
  | pickStop => exact ⟨_, rfl, State.pickStop_keeps hk⟩
  | pickPeriodWrite => exact ⟨_, rfl, State.periodWrite_keeps _ hk⟩
  | pickReserveWrite => exact ⟨_, rfl, State.reserveWrite_keeps _ hk⟩
  | clkCfgWrite => exact ⟨_, rfl, State.clkWrite_keeps _ hk⟩
  | clockChangeDone => exact ⟨_, rfl, State.clkDone_keeps hk⟩
  | pickStart => exact ⟨_, rfl, State.pickStart_keeps hk⟩
  | pickStartAckTimeout => exact ⟨_, rfl, State.ackTimeout_keeps _ hk⟩
  | fellWindowOpen => exact ⟨_, rfl, State.windowOpen_keeps hk⟩
  | ledgerCheckDone => exact ⟨_, rfl, State.ledgerCheck_keeps hk⟩
  | decisionDeadline => exact ⟨_, rfl, State.decisionDeadline_keeps hk⟩
  | readyRecord => exact ⟨_, rfl, State.readyRecord_keeps _ hk⟩
  | lateRecord => exact ⟨_, rfl, State.lateRecord_keeps _ hk⟩
  | decisionRecord => exact ⟨_, rfl, State.decisionRecord_keeps _ hk⟩
  | drainEnd => exact ⟨_, rfl, State.drainEnd_keeps _ hk⟩
  | squashEnd => exact ⟨_, rfl, State.squashEnd_keeps _ hk⟩
  | fellResolve => exact ⟨_, rfl, State.fellResolve_keeps _ hk⟩
  | stagedWriteArrive => exact ⟨_, rfl, State.stagedArrive_keeps _ hk⟩
  | cardFetch => exact ⟨_, rfl, State.cardFetch_keeps _ hk⟩
  | cardDecode => exact ⟨_, rfl, State.cardDecode_keeps _ hk⟩
  | issue => exact ⟨_, rfl, State.issueCard_keeps _ hk⟩
  | loop => exact ⟨_, rfl, State.loopOpen_keeps _ hk⟩
  | endpick => exact ⟨_, rfl, State.endPick_keeps _ hk⟩
  | cardRetire => exact ⟨_, rfl, State.cardRetire_keeps _ hk⟩
  | shedSelect => exact ⟨_, rfl, State.shedSelect_keeps _ hk⟩
  | selectorReadDone => exact ⟨_, rfl, State.selectorReadDone_keeps _ hk⟩
  | undoCancelAck => exact ⟨_, rfl, State.undoCancelAck_keeps _ _ hk⟩
  | prologueStart => exact ⟨_, rfl, State.prologueStart_keeps _ hk⟩
  | captureHit => exact ⟨_, rfl, State.captureHit_keeps _ hk⟩
  | beamRead => exact ⟨_, rfl, State.beamRead_keeps _ _ _ _ hk⟩
  | storeBufferDrain => exact ⟨_, rfl, State.bankDrain_keeps _ _ hk⟩
  | parInjectArm => exact ⟨_, rfl, State.injectArm_keeps _ _ hk⟩
  | parInjectDisarm => exact ⟨_, rfl, State.injectDisarm_keeps _ hk⟩
  | carryMapWrite => exact ⟨_, rfl, State.carryMapWrite_keeps _ _ _ hk⟩
  | wvPass => exact ⟨_, rfl, State.wvPass_keeps _ hk⟩
  | wvDrain => exact ⟨_, rfl, State.wvDrain_keeps _ hk⟩
  | arrayGateGroup => exact ⟨_, rfl, State.gateGroup_keeps _ hk⟩
  | arrayUngateGroup => exact ⟨_, rfl, State.ungateGroup_keeps _ hk⟩
  | btAdd | btSub | btMul | btFma | btAxpy | btMax | btMin | btAbs | btNeg | btRelu | btCvt | btClamp | btCmpgt
  | btAnd | btOr | btXor | btShl | btShra => exact ⟨_, rfl, State.batten_keeps _ _ hk⟩
  | rdSum | rdSumsq | rdMax | rdMin | rdMean | rdArgmax | rdLnorm | rdRmsnorm | rdSoftmax | rdMxq | rdFunc =>
    exact ⟨_, rfl, State.reed_keeps _ _ hk⟩
  | hlCopy => exact ⟨_, rfl, State.hlCopy_keeps _ hk⟩
  | hlTranspose => exact ⟨_, rfl, State.hlTranspose_keeps _ hk⟩
  | hlGather => exact ⟨_, rfl, State.hlGather_keeps _ hk⟩
  | hlScatter => exact ⟨_, rfl, State.hlScatter_keeps _ hk⟩
  | cdVoxel => exact ⟨_, rfl, State.cdVoxel_keeps _ hk⟩
  | cdRules => exact ⟨_, rfl, State.cdRules_keeps _ hk⟩
  | cdGather => exact ⟨_, rfl, State.cdGather_keeps _ hk⟩
  | cdBev => exact ⟨_, rfl, State.cdBev_keeps _ hk⟩
  | knotAdd => exact ⟨_, rfl, State.knotAdd_keeps _ hk⟩
  | knotAddSend => exact ⟨_, rfl, State.knotAddSend_keeps _ hk⟩
  | knotSignalArrive => exact ⟨_, rfl, State.signalArrive_keeps _ hk⟩
  | knotWait => exact ⟨_, rfl, State.knotWait_keeps _ hk⟩
  | writeAckArrive => exact ⟨_, rfl, State.writeAckArrive_keeps _ hk⟩
  | chanSend => exact ⟨_, rfl, State.chanSend_keeps _ hk⟩
  | chanSendPerform => exact ⟨_, rfl, State.chanSendPerform_keeps _ hk⟩
  | messageArrive => exact ⟨_, rfl, State.messageArrive_keeps _ hk⟩
  | messageAckArrive => exact ⟨_, rfl, State.messageAckArrive_keeps _ hk⟩
  | chanRecv => exact ⟨_, rfl, State.chanRecv_keeps _ hk⟩
  | chanRecvPerform => exact ⟨_, rfl, State.chanRecvPerform_keeps _ hk⟩
  | creditArrive => exact ⟨_, rfl, State.creditArrive_keeps _ hk⟩
  | mark => exact ⟨_, rfl, State.markLog_keeps _ hk⟩
  | shCopy | shRelay => exact ⟨_, rfl, State.shTake_keeps _ _ hk⟩
  | shCancel => exact ⟨_, rfl, State.shCancel_keeps _ hk⟩
  | gateReady => exact ⟨_, rfl, State.gateReady_keeps _ _ hk⟩
  | transferStart => exact ⟨_, rfl, State.transferStart_keeps _ _ hk⟩
  | transferTimeout => exact ⟨_, rfl, State.transferTimeout_keeps _ _ hk⟩
  | meshBeatSend => exact ⟨_, rfl, State.meshBeatSend_keeps _ _ hk⟩
  | meshBeatLand => exact ⟨_, rfl, State.meshBeatLand_keeps _ _ hk⟩
  | portEnable | portDisable | portReset => exact ⟨_, rfl, State.portCtrl_keeps _ _ hk⟩
  | portCredWrite => exact ⟨_, rfl, State.portCred_keeps _ _ hk⟩
  | detectRound => exact ⟨_, rfl, State.detectRound_keeps _ hk⟩
  | detectRoundEnd => exact ⟨_, rfl, State.detectEnd_keeps _ hk⟩
  | signalDetect => exact ⟨_, rfl, State.signalDetect_keeps _ hk⟩
  | trainDone => exact ⟨_, rfl, State.trainDone_keeps _ hk⟩
  | alignDone => exact ⟨_, rfl, State.alignDone_keeps _ hk⟩
  | measureDone => exact ⟨_, rfl, State.measureDone_keeps _ _ _ hk⟩
  | attemptTimeout => exact ⟨_, rfl, State.attemptTimeout_keeps _ hk⟩
  | lockLost => exact ⟨_, rfl, State.lockLost_keeps _ hk⟩
  | signalLost => exact ⟨_, rfl, State.signalGone_keeps _ hk⟩
  | flitSend => exact ⟨_, rfl, State.flitSend_keeps _ hk⟩
  | flitReceive => exact ⟨_, rfl, State.flitReceive_keeps _ _ hk⟩
  | replayTimeout => exact ⟨_, rfl, State.replayTimeout_keeps _ hk⟩
  | writePacket => exact ⟨_, rfl, State.writePacket_keeps _ hk⟩
  | readReq => exact ⟨_, rfl, State.readReq_keeps _ hk⟩
  | signalPacket => exact ⟨_, rfl, State.signalPacket_keeps _ hk⟩
  | readData => exact ⟨_, rfl, State.readData_keeps _ hk⟩
  | writeAck => exact ⟨_, rfl, State.writeAck_keeps _ hk⟩
  | signalAck => exact ⟨_, rfl, State.signalAck_keeps _ hk⟩
  | refused => exact ⟨_, rfl, State.refusedPacket_keeps _ hk⟩
  | malformedPacket => exact ⟨_, rfl, State.malformedPacket_keeps _ _ hk⟩
  | timeRecordSend => exact ⟨_, rfl, State.timeSend_keeps _ hk⟩
  | timeRecord => exact ⟨_, rfl, State.timeRecord_keeps _ hk⟩
  | timeHoldover => exact ⟨_, rfl, State.timeHoldover_keeps hk⟩
  | probeRecord => exact ⟨_, rfl, State.probeRecord_keeps _ hk⟩
  | echoRecord => exact ⟨_, rfl, State.echoRecord_keeps _ _ hk⟩
  | barrierCfgWrite => exact ⟨_, rfl, State.barrierCfg_keeps _ hk⟩
  | barrierGo => exact ⟨_, rfl, State.barrierGo_keeps _ hk⟩
  | barrierRecord => exact ⟨_, rfl, State.barrierRecord_keeps _ hk⟩
  | barrierFire => exact ⟨_, rfl, State.barrierFire_keeps hk⟩
  | routeDownClear => exact ⟨_, rfl, State.routeClear_keeps _ _ hk⟩
  | fabHopsWrite => exact ⟨_, rfl, State.hopsWrite_keeps _ hk⟩
  | shTimeoutWrite => exact ⟨_, rfl, State.timeoutWrite_keeps _ hk⟩
  | progStart => exact ⟨_, rfl, State.progStart_keeps hk⟩
  | progStop => exact ⟨_, rfl, State.progStop_keeps hk⟩
  | progMapWrite => exact ⟨_, rfl, State.progMap_keeps _ _ hk⟩
  | kpairWrite => exact ⟨_, rfl, State.kpairWrite_keeps _ _ hk⟩
  | digestStart => exact ⟨_, rfl, State.digestStart_keeps hk⟩
  | digestDone => exact ⟨_, rfl, State.digestDone_keeps hk⟩
  | boltDigestDone => exact ⟨_, rfl, State.boltDigestDone_keeps _ _ _ hk⟩
  | historyAppend => exact ⟨_, rfl, State.historyAppend_keeps hk⟩
  | provenanceTagDone => exact ⟨_, rfl, State.tagDone_keeps _ _ _ hk⟩
  | flashRead | flashProgram | flashErase => exact ⟨_, rfl, State.flashGo_keeps _ hk⟩
  | flashOpDone => exact ⟨_, rfl, State.flashDone_keeps _ hk⟩
  | reboot => exact ⟨_, rfl, State.rebootWrite_keeps hk⟩
  | overseerCompare => exact ⟨_, rfl, State.compare_keeps _ _ _ hk⟩
  | resyncEnd => exact ⟨_, rfl, State.resyncEnd_keeps _ hk⟩
  | comparatorSelftest => exact ⟨_, rfl, State.selftest_keeps _ hk⟩
  | ovsHalt => exact ⟨_, rfl, State.ovsHalt_keeps _ hk⟩
  | overseerReserveRead => exact ⟨_, rfl, State.reserveRead_keeps _ _ hk⟩
  | logQueueEnter => exact ⟨_, rfl, State.logEnter_keeps _ hk⟩
  | logEntryWrite => exact ⟨_, rfl, State.logWrite_keeps _ hk⟩
  | errorStatusSet => exact ⟨_, rfl, State.errorSet_keeps hk⟩
  | tallyPassGo => exact ⟨_, rfl, State.tallyGo_keeps _ _ hk⟩
  | tallyPassDone => exact ⟨_, rfl, State.tallyDone_keeps _ _ hk⟩
  | powerRequest => exact ⟨_, rfl, State.powerRequest_keeps _ _ hk⟩
  | powerTransitionDone => exact ⟨_, rfl, State.transitionDone_keeps hk⟩
  | vddAuxRise => exact ⟨_, rfl, State.auxRise_keeps hk⟩
  | resetNAssert => exact ⟨_, rfl, State.resetLow_keeps hk⟩
  | resetNRelease => exact ⟨_, rfl, State.resetHigh_keeps hk⟩
  | powerOn => exact ⟨_, rfl, State.powerOn_keeps hk⟩
  | powerOnStepDone => exact ⟨_, rfl, State.powerOnStep_keeps hk⟩
  | powerGoodTimeout => exact ⟨_, rfl, State.pgTimeout_keeps hk⟩
  | pwrFailFall => exact ⟨_, rfl, State.failFall_keeps hk⟩
  | pwrFailRise => exact ⟨_, rfl, State.failRise_keeps hk⟩
  | supplyReturnTimeout => exact ⟨_, rfl, State.supplyReturn_keeps hk⟩
  | phaseADone => exact ⟨_, rfl, State.phaseADone_keeps hk⟩
  | phaseBStep => exact ⟨_, rfl, State.phaseBStep_keeps hk⟩
  | avsAck => exact ⟨_, rfl, State.avsAck_keeps _ hk⟩
  | avsTimeout => exact ⟨_, rfl, State.avsTimeout_keeps _ hk⟩
  | avsTelemetry => exact ⟨_, rfl, State.telemetry_keeps _ hk⟩
  | thermalReport => exact ⟨_, rfl, State.thermal_keeps _ _ hk⟩
  | diePowerWrite => exact ⟨_, rfl, State.diePower_keeps _ hk⟩
  | diePowerDone => exact ⟨_, rfl, State.dieDone_keeps _ hk⟩
  | islandFault => exact ⟨_, rfl, State.islandFault_keeps _ _ hk⟩
  | wakeNLow => exact ⟨_, rfl, State.wakePin_keeps hk⟩
  | perstRise => exact ⟨_, rfl, State.perstRise_keeps _ hk⟩
  | gpio0Edge => exact ⟨_, rfl, State.gpioEdge_keeps _ hk⟩
  | smbusAddressMatch => exact ⟨_, rfl, State.addressMatch_keeps hk⟩
  | smbState | smbRefusal | smbTemp | smbPower | smbAlertRead | smbLogseq =>
    exact ⟨_, rfl, State.smbAnswer_keeps _ hk⟩
  | smbReq => exact ⟨_, rfl, State.smbReq_keeps _ _ hk⟩
  | smbAlertClear => exact ⟨_, rfl, State.smbClear_keeps _ _ hk⟩
  | pwrLimitWrite => exact ⟨_, rfl, State.limitWrite_keeps _ hk⟩
  | avsTmoWrite => exact ⟨_, rfl, State.tmoWrite_keeps _ hk⟩
  | padSlewWrite => exact ⟨_, rfl, State.slewWrite_keeps _ hk⟩
  | jtagInstruction => exact ⟨_, rfl, State.jtagLoad_keeps _ hk⟩
  | completionTimeout => exact ⟨_, rfl, State.completionTimeout_keeps _ _ _ hk⟩
  | pcieLinkUp => exact ⟨_, rfl, State.linkUp_keeps _ _ _ _ hk⟩
  | trstNAssert => exact ⟨_, rfl, State.trstLow_keeps hk⟩
  | tallyCfgWrite => exact ⟨_, rfl, State.tallyCfg_keeps _ _ _ hk⟩

/-- A command's next state keeps all. -/
theorem exec_keeps {i : Instr} {s t : State} (h : exec i s = .next t) : Keeps s t := by
  obtain ⟨u, hu, hk⟩ := exec_next_keeps i s
  cases hu.symm.trans h
  exact hk

/-- A step keeps all, from the state without the front of its queue. -/
theorem step_keeps {s t : State} (h : step s = .next t) : Keeps { s with pending := s.pending.tail } t := by
  unfold step at h
  split at h
  · next hp =>
    cases h
    have hs : { s with pending := s.pending.tail } = s := by rw [hp, List.tail_nil, ← hp]
    exact hs.symm ▸ State.tick_keeps (.refl s)
  · next c rest hp =>
    rw [hp, List.tail_cons]
    exact exec_keeps h

/-- Settles O4: a step is one clk or one command, and both keep the fuses, the record and the rest of the queue. -/
theorem everyStepKeepsFusesQueueAndRecord : Obligations.EveryStepKeepsFusesQueueAndRecord := by
  intro s t h
  obtain ⟨hpending, hout, hfuses, _, _⟩ := step_keeps h
  have hgrade : gradeWf s → gradeWf t := fun hs => by rw [gradeWf, hfuses]; exact hs
  exact ⟨hfuses, hgrade, hout, hpending⟩

end Sys2Proof.Machine
end

section
/-! PROOFS. Writes of registers that have no rule of their own (00 R10, R12, R16): the value that the access codes of
Table 0.8 leave, and the write at once or by the service slot. -/

namespace Sys2Proof.Machine

open Sys2Proof.Claims

/-! ## Addresses -/

/-- A device address in a block is the block's base and the offset. -/
theorem Block.base_add_of_blockOf {a o : Nat} {b : Block} (h : blockOf a = some (b, o)) : b.base + o = a := by
  unfold blockOf at h
  dsimp only at h
  split_ifs at h <;>
  · simp only [Option.some.injEq, Prod.mk.injEq] at h
    obtain ⟨rfl, rfl⟩ := h
    simp only [Block.base, Fin.ofNat, BitVec.toNat_ofNat]
    omega

/-- An address that a requester may write lies in its block. -/
theorem State.blockOf_of_target {s : State} {a o : Nat} {b : Block} (h : s.target a = some (b, o)) :
    blockOf a = some (b, o) := by
  unfold State.target at h
  split at h
  · next hb =>
    split at h
    · rw [hb]; exact h
    · cases h
  · cases h

/-- An address that a requester may write is its block's base and the offset. -/
theorem State.base_add_of_target {s : State} {a o : Nat} {b : Block} (h : s.target a = some (b, o)) : b.base + o = a :=
  Block.base_add_of_blockOf (State.blockOf_of_target h)

/-! ## The access codes -/

/-- What a register holds after a write by its access codes (Table 0.8, R12, R16). -/
def State.plainValue (s : State) (b : Block) (o : Nat) (r : RegSpec) (val : Dword) : Dword :=
  let v := merge r.rw (s.getReg (b.base + o)) val
  (if s.idleAt b o then merge r.rwl v val else v) &&& ~~~(r.w1c &&& val)

/-- The plain write of a register sets that register alone. -/
theorem State.plainWrite_eq_setReg (s : State) (b : Block) (o : Nat) (r : RegSpec) (val : Dword) :
    s.plainWrite b o r val = s.setReg (b.base + o) (s.plainValue b o r val) := rfl

/-- A bit of two values merged by a mask. -/
theorem merge_getLsbD (m x y : Dword) {i : Nat} (hi : i < 64) :
    (merge m x y).getLsbD i = if m.getLsbD i then y.getLsbD i else x.getLsbD i := by
  unfold merge
  cases hm : m.getLsbD i <;>
    simp only [BitVec.getLsbD_or, BitVec.getLsbD_and, BitVec.getLsbD_not, hi, hm] <;> simp

/-- The value of a plain write, bit by bit. -/
theorem State.plainValue_getLsbD (s : State) (b : Block) (o : Nat) (r : RegSpec) (val : Dword) {i : Nat} (hi : i < 64) :
    (s.plainValue b o r val).getLsbD i = writtenBit r (s.idleAt b o) (s.getReg (b.base + o)) val i := by
  unfold State.plainValue writtenBit
  cases hw : r.w1c.getLsbD i && val.getLsbD i <;> cases hd : s.idleAt b o <;>
    simp [-BitVec.getLsbD_eq_getElem, hi, hw, merge_getLsbD]

/-- A bit of the value of a register that is written depends on that bit of the written value only. -/
theorem writtenBit_congr (r : RegSpec) (idle : Bool) (old : Dword) {x y : Dword} {i : Nat} (h : x.getLsbD i = y.getLsbD i) :
    writtenBit r idle old x i = writtenBit r idle old y i := by
  unfold writtenBit; rw [h]

/-! ## One whole register -/

/-- A Heddle die register without a rule of its own is written by its access codes. -/
theorem State.hdlWrite_of_ownRule (s : State) (req : Requester) {o : Nat} (r : RegSpec) (val : Dword)
    (h : ownRule .hdl o = false) : s.hdlWrite req o r val = s.plainWrite .hdl o r val := by
  simp only [ownRule, Bool.or_eq_false_iff, Bool.and_eq_false_iff, decide_eq_false_iff_not] at h
  obtain ⟨⟨hprog, hkpair⟩, hlist⟩ := h
  unfold State.hdlWrite
  rw [if_neg (by omega), if_neg (by omega)]
  split
  case h_22 => rfl
  all_goals exact absurd hlist (by decide)

/-- A Temple die register without a rule of its own. -/
theorem State.tplWrite_of_ownRule (s : State) {o : Nat} (r : RegSpec) (val : Dword) (h : ownRule .tpl o = false) :
    s.tplWrite o r val = s.plainWrite .tpl o r val := by
  unfold State.tplWrite
  split
  case h_4 => rfl
  all_goals exact absurd h (by decide)

/-- A Treadle die register without a rule of its own. -/
theorem State.trdWrite_of_ownRule (s : State) (td : Td) {o : Nat} (r : RegSpec) (val : Dword)
    (h : ownRule (.trd td) o = false) : s.trdWrite td o r val = s.plainWrite (.trd td) o r val := by
  simp only [ownRule, Bool.or_eq_false_iff, decide_eq_false_iff_not] at h
  obtain ⟨⟨hspool, htally⟩, hmsix⟩ := h
  unfold State.trdWrite
  by_cases hs : 0x1000 ≤ o ∧ o < 0x2000
  · rw [if_pos hs]
    simp only [hs.1, hs.2, decide_true, Bool.true_and] at hspool
    generalize o % 0x40 = k at hspool ⊢
    split
    case h_5 => rfl
    all_goals exact absurd hspool (by decide)
  · rw [if_neg hs]
    by_cases ht : 0x4000 ≤ o ∧ o < 0x4400
    · rw [if_pos ht]
      simp only [ht.1, ht.2, decide_true, Bool.true_and] at htally
      generalize o % 0x40 = k at htally ⊢
      split
      case h_4 => rfl
      all_goals exact absurd htally (by decide)
    · rw [if_neg ht, if_neg hmsix]

/-- A Selvedge die register without a rule of its own. -/
theorem State.slvWrite_of_ownRule (s : State) (n : Sd) {o : Nat} (r : RegSpec) (val : Dword)
    (h : ownRule (.slv n) o = false) : s.slvWrite n o r val = s.plainWrite (.slv n) o r val := by
  simp only [ownRule, Bool.or_eq_false_iff] at h
  obtain ⟨hport, hroute⟩ := h
  unfold State.slvWrite
  by_cases hp : o < 0x600
  · rw [if_pos hp]
    simp only [hp, decide_true, Bool.true_and] at hport
    generalize o % 0x100 = k at hport ⊢
    split
    case h_3 => rfl
    all_goals exact absurd hport (by decide)
  · simp only [Bool.and_eq_false_iff, decide_eq_false_iff_not] at hroute
    rw [if_neg hp, if_neg (by omega)]

/-- A Loom die's shared register without a rule of its own. -/
theorem State.ldieWrite_of_ownRule (s : State) (d : Die) {o : Nat} (r : RegSpec) (val : Dword)
    (h : ownRule (.ldie d) o = false) : s.ldieWrite d o r val = s.plainWrite (.ldie d) o r val := by
  simp only [ownRule, Bool.and_eq_false_iff, decide_eq_false_iff_not, beq_eq_false_iff_ne] at h
  unfold State.ldieWrite
  rw [if_neg (by omega)]

/-- A core register without a rule of its own. -/
theorem State.coreWrite_of_ownRule (s : State) (g : CoreId) {o : Nat} (r : RegSpec) (val : Dword)
    (h : ownRule (.core g) o = false) : s.coreWrite g o r val = s.plainWrite (.core g) o r val := by
  simp only [ownRule, Bool.or_eq_false_iff, Bool.and_eq_false_iff, decide_eq_false_iff_not, beq_eq_false_iff_ne] at h
  obtain ⟨⟨hmap, hinject⟩, _⟩ := h
  unfold State.coreWrite
  rw [if_neg (by omega), if_neg hinject]

/-- A register without a rule of its own is written by its access codes. -/
theorem State.regWrite_of_ownRule (s : State) (req : Requester) {b : Block} {o : Nat} (r : RegSpec) (val : Dword)
    (h : ownRule b o = false) : s.regWrite req b o r val = s.setReg (b.base + o) (s.plainValue b o r val) := by
  rw [← State.plainWrite_eq_setReg]
  cases b with
  | hdl => exact s.hdlWrite_of_ownRule req r val h
  | tpl => exact s.tplWrite_of_ownRule r val h
  | trd td => exact s.trdWrite_of_ownRule td r val h
  | slv n => exact s.slvWrite_of_ownRule n r val h
  | ldie d => exact s.ldieWrite_of_ownRule d r val h
  | core g => exact s.coreWrite_of_ownRule g r val h

/-! ## A write at once, or by the service slot (R10, R518) -/

/-- A legal access is one that a register write performs. -/
theorem legalAccess_iff (a n : Nat) : legalAccess a n = true ↔ n = 4 ∧ a % 4 = 0 ∨ n = 8 ∧ a % 8 = 0 := by
  simp [legalAccess]

/-- A legal register write outside the windows of the running cores is performed at once; one that reaches such a window
joins its core's service beats, and the service slot performs it. -/
theorem registerWrite_at_once_or_served (s : State) (req : Requester) {a : Word} {n : Nat} (val : Dword)
    (h : legalAccess a.toNat n = true) :
    (s.windowOf a.toNat = none → exec (.registerWrite req a n val) s = .next (s.writeNow req a.toNat n val)) ∧
    ∀ g : CoreId,
      (s.windowOf a.toNat = some g → exec (.registerWrite req a n val) s = .next (joins s g (.reg req a.toNat n val))) ∧
      s.serve g (.reg req a.toNat n val) = s.writeNow req a.toNat n val := by
  refine ⟨fun hw => ?_, fun g => ⟨fun hw => ?_, rfl⟩⟩ <;>
    simp only [exec, execRegisterWrite, State.hostWrite, hw, h, if_true]

/-- A 4-byte write at an aligned address. -/
theorem State.writeNow_word (s : State) (req : Requester) {a : Nat} (val : Dword) (h : a % 4 = 0) :
    s.writeNow req a 4 val = s.write32 req a (BitVec.ofNat 32 val.toNat) := by
  rw [State.writeNow, if_pos ⟨rfl, h⟩]

/-- An 8-byte write at an aligned address. -/
theorem State.writeNow_dword (s : State) (req : Requester) {a : Nat} (val : Dword) (h : a % 8 = 0) :
    s.writeNow req a 8 val = s.write64 req a val := by
  rw [State.writeNow, if_neg (by omega), if_pos ⟨rfl, h⟩]

/-- A write of no legal size and alignment changes nothing. -/
theorem State.writeNow_illegal (s : State) (req : Requester) {a n : Nat} (val : Dword) (h4 : ¬ (n = 4 ∧ a % 4 = 0))
    (h8 : ¬ (n = 8 ∧ a % 8 = 0)) : s.writeNow req a n val = s := by
  rw [State.writeNow, if_neg h4, if_neg h8]

/-- A 4-byte write of a plain 32-bit register. -/
theorem State.write32_plain {s : State} {a o : Nat} {b : Block} {r : RegSpec} (req : Requester) (val : Word)
    (h : plainAt s a b o r) (hw : r.wide = false) :
    s.write32 req a val = s.setReg a (s.plainValue b o r (BitVec.ofNat 64 val.toNat)) := by
  obtain ⟨ht, hspec, hown, hsnap, hbytes⟩ := h
  have hreg := s.regWrite_of_ownRule req r (BitVec.ofNat 64 val.toNat) hown
  rw [State.base_add_of_target ht] at hreg
  rw [← hreg]
  unfold State.write32
  simp only [ht, hbytes, hsnap, hspec, hw, Bool.false_eq_true, if_false]
  split
  · exact absurd hown (by simp [ownRule])
  · rfl

/-- An 8-byte write of a plain 64-bit register. -/
theorem State.write64_plain {s : State} {a o : Nat} {b : Block} {r : RegSpec} (req : Requester) (val : Dword)
    (h : plainAt s a b o r) (hw : r.wide = true) :
    s.write64 req a val = (s.setReg a (s.plainValue b o r val)).clearLow req a := by
  obtain ⟨ht, hspec, hown, hsnap, hbytes⟩ := h
  have hreg := s.regWrite_of_ownRule req r val hown
  rw [State.base_add_of_target ht] at hreg
  unfold State.write64
  simp only [ht, hsnap, hspec, hw, hbytes, Bool.not_false, Bool.and_self, if_true, hreg]

/-- Settles O6: a plain register's write is `plainValue`, whichever way the write reaches it. -/
theorem registerWriteByAccessCode : Obligations.RegisterWriteByAccessCode := by
  intro s req a val b o r h
  have hbase := State.base_add_of_target h.1
  refine ⟨fun ha hw => ⟨s.plainValue b o r (BitVec.ofNat 64 (val.toNat % 2 ^ 32)), fun i hi => ?_, ?_⟩,
    fun ha hw => ⟨s.plainValue b o r val, fun i hi => ?_, ?_⟩⟩
  · rw [s.plainValue_getLsbD b o r _ hi, hbase]
  · have hwrite := registerWrite_at_once_or_served s req val ((legalAccess_iff a.toNat 4).2 (.inl ⟨rfl, ha⟩))
    rwa [s.writeNow_word req val ha, State.write32_plain req _ h hw, BitVec.toNat_ofNat] at hwrite
  · rw [s.plainValue_getLsbD b o r _ hi, hbase]
  · have hwrite := registerWrite_at_once_or_served s req val ((legalAccess_iff a.toNat 8).2 (.inr ⟨rfl, ha⟩))
    rwa [s.writeNow_dword req val ha, State.write64_plain req val h hw] at hwrite

end Sys2Proof.Machine
end

section
/-! PROOFS. The write of a 64-bit register without a rule of its own by its two halves (00 R11). -/

namespace Sys2Proof.Machine

open Sys2Proof.Claims

/-- The low half of a plain 64-bit register is stored, and nothing else happens. -/
theorem State.lowHalf_plain {s : State} {a o : Nat} {b : Block} {r : RegSpec} (req : Requester) (val : Word)
    (h : plainAt s a b o r) (hw : r.wide = true) : s.lowHalf req a val = s.storeLow req a val := by
  obtain ⟨ht, hspec, _, hsnap, hbytes⟩ := h
  unfold State.lowHalf
  simp only [ht, hspec, hw, hsnap, hbytes, Option.isNone_none, Bool.not_false, Bool.and_self, if_true]

/-- The high half of a 64-bit register. -/
theorem State.highHalf_wide {s : State} {a o : Nat} {b : Block} {r : RegSpec} (req : Requester) (val : Word)
    (ht : s.target a = some (b, o + 4)) (ho : (o + 4) % 8 = 4) (hbytes : bytesAt b (o + 4) = false)
    (hspec : b.spec o = some r) (hw : r.wide = true) : s.highHalf req a val = s.highWrite req b o r val := by
  unfold State.highHalf
  simp only [ht, ho, hbytes, Nat.add_sub_cancel, hspec, hw, decide_true, Bool.not_false, Bool.and_self, if_true]

/-- Two halves as one 64-bit value. -/
theorem ofNat_or_ofNat_eq_append (hi lo : Word) :
    BitVec.ofNat 64 (hi.toNat * 2 ^ 32) ||| BitVec.ofNat 64 lo.toNat = hi ++ lo := by
  apply BitVec.eq_of_toNat_eq
  rw [BitVec.toNat_or, BitVec.toNat_ofNat, BitVec.toNat_ofNat, Nat.mod_eq_of_lt (by omega), Nat.mod_eq_of_lt (by omega),
    BitVec.toNat_append, Nat.shiftLeft_eq]

/-- A bit of two halves as one 64-bit value. -/
theorem append_getLsbD (hi lo : Word) (i : Nat) :
    (hi ++ lo : Dword).getLsbD i = if i < 32 then lo.getLsbD i else hi.getLsbD (i - 32) :=
  BitVec.getLsbD_append

/-- The low half of a value with the bits of a mask cleared. -/
theorem ofNat_mod_and_not (x m : Dword) :
    BitVec.ofNat 64 (x.toNat % 2 ^ 32) &&& ~~~m = BitVec.ofNat 64 ((x &&& ~~~m).setWidth 32).toNat := by
  rw [← BitVec.toNat_setWidth, BitVec.ofNat_toNat, BitVec.ofNat_toNat]
  ext i hi
  by_cases h : i < 32 <;> simp [hi, h]

/-- The bits that a high-half write with no low half pending gives as 0 in the low half, so that it clears none of them:
the register's W1C bits, and DOWN of a route entry, which has a rule of its own (R403). -/
def sparedBits (b : Block) (r : RegSpec) : Dword :=
  match b with
  | .slv _ => 8
  | _ => r.w1c

/-- The low half that a high-half write with none pending gives: what stands there. -/
def State.standingLow (s : State) (b : Block) (o : Nat) (r : RegSpec) : Word :=
  (s.getReg (b.base + o) &&& ~~~sparedBits b r).setWidth 32

/-- A high-half write with a low half pending writes both. -/
theorem State.highWrite_of_pending {s : State} {req : Requester} {b : Block} {o : Nat} (r : RegSpec) (hi : Word)
    {x : LowHalf} (h : s.low.find? (fun x => x.req == req && x.addr == b.base + o) = some x) :
    s.highWrite req b o r hi = (s.regWrite req b o r (hi ++ x.val)).clearLow req (b.base + o) := by
  have hheld : (s.low.any fun x => x.req == req && x.addr == b.base + o) = true :=
    List.any_eq_true.2 (List.find?_isSome.1 (by rw [h]; rfl))
  unfold State.highWrite State.lowFor
  simp only [hheld, h, if_true, ofNat_or_ofNat_eq_append]

/-- A high-half write with none pending writes the high half beside the low half that stands there. -/
theorem State.highWrite_of_none {s : State} {req : Requester} {b : Block} {o : Nat} (r : RegSpec) (hi : Word)
    (h : s.low.find? (fun x => x.req == req && x.addr == b.base + o) = none) :
    s.highWrite req b o r hi =
      (s.regWrite req b o r (hi ++ s.standingLow b o r)).clearLow req (b.base + o) := by
  have hheld : (s.low.any fun x => x.req == req && x.addr == b.base + o) = false :=
    Bool.eq_false_iff.2 fun hany => by
      obtain ⟨x, hx, hp⟩ := List.any_eq_true.1 hany
      exact List.find?_eq_none.1 h x hx hp
  rw [State.standingLow, ← ofNat_or_ofNat_eq_append, ← ofNat_mod_and_not]
  unfold State.highWrite State.lowFor
  simp only [hheld, h, Bool.false_eq_true, if_false]
  rfl

/-- A 64-bit Selvedge die register without a rule of its own has no writable bit (Tables 12.2, 12.7). -/
theorem slvSpec_wide_readOnly {n : Sd} {o : Nat} {r : RegSpec} (hspec : slvSpec o = some r) (hw : r.wide = true)
    (hown : ownRule (.slv n) o = false) : r.rw = 0 ∧ r.rwl = 0 := by
  have hroute : ¬ (0x10000 ≤ o ∧ o < 0x12000) := by
    intro hr
    simp [ownRule, hr.1, hr.2] at hown
  unfold slvSpec logSpec ro32 ro64 at hspec
  rw [if_neg hroute] at hspec
  split at hspec
  · split at hspec <;> cases hspec
    case h_2 => exact ⟨rfl, rfl⟩
    all_goals cases hw
  · split_ifs at hspec <;> cases hspec <;> cases hw

/-- Bits written as what they are keep their value where no bit is W1C. -/
theorem writtenBit_of_same {r : RegSpec} (idle : Bool) {old val : Dword} {i : Nat} (hw1c : r.w1c = 0)
    (h : val.getLsbD i = old.getLsbD i) : writtenBit r idle old val i = old.getLsbD i := by
  simp [-BitVec.getLsbD_eq_getElem, writtenBit, hw1c, h]

/-- Bits that are not writable keep their value. -/
theorem writtenBit_readOnly {r : RegSpec} (idle : Bool) (old val : Dword) (i : Nat) (hw1c : r.w1c = 0) (hrw : r.rw = 0)
    (hrwl : r.rwl = 0) : writtenBit r idle old val i = old.getLsbD i := by
  simp [writtenBit, hw1c, hrw, hrwl]

/-- The low half of a plain register keeps its value when the low half that stands there is written. -/
theorem writtenBit_standingLow {s : State} {b : Block} {o : Nat} {r : RegSpec} (idle : Bool) (hi : Word)
    (hspec : b.spec o = some r) (hw : r.wide = true) (hown : ownRule b o = false) (hw1c : r.w1c = 0) {i : Nat}
    (h : i < 32) :
    writtenBit r idle (s.getReg (b.base + o)) (hi ++ s.standingLow b o r) i = (s.getReg (b.base + o)).getLsbD i := by
  by_cases hb : ∃ n, b = .slv n
  · obtain ⟨n, rfl⟩ := hb
    obtain ⟨hrw, hrwl⟩ := slvSpec_wide_readOnly hspec hw hown
    exact writtenBit_readOnly idle _ _ i hw1c hrw hrwl
  · have hspared : sparedBits b r = 0 := by
      unfold sparedBits
      split
      · exact absurd ⟨_, rfl⟩ hb
      · exact hw1c
    refine writtenBit_of_same idle hw1c ?_
    rw [append_getLsbD, if_pos h, State.standingLow, hspared]
    simp only [BitVec.ofNat_eq_ofNat, BitVec.not_zero, BitVec.and_allOnes, BitVec.getLsbD_setWidth, h, decide_true,
      Bool.true_and]

/-- Settles O9: the halves come together as one plain write, of the pending low half or of the one that stands there. -/
theorem halfWritesOfDwordRegister : Obligations.HalfWritesOfDwordRegister := by
  intro s req a hi lo b o r h hw
  have hbase := State.base_add_of_target h.1
  refine ⟨by rw [exec, execLowHalfWrite, State.lowHalf_plain req lo h hw]; rfl, fun ht ho hbytes => ?_⟩
  obtain ⟨-, hspec, hown, -, -⟩ := h
  have hexec : exec (.highHalfWrite req (a + 4) hi) s = .next (s.highWrite req b o r hi) := by
    rw [exec, execHighHalfWrite, State.highHalf_wide req hi ht ho hbytes hspec hw]
  refine ⟨fun x hx => ⟨s.plainValue b o r (hi ++ x.val), fun i hi' => ?_, ?_⟩,
    fun hnone hw1c => ⟨s.plainValue b o r (hi ++ s.standingLow b o r), fun i hi' => ?_, fun i hi' hge => ?_, ?_⟩⟩
  · rw [s.plainValue_getLsbD b o r _ hi', hbase]
  · rw [hexec, State.highWrite_of_pending r hi (by rw [hbase]; exact hx), s.regWrite_of_ownRule req r _ hown, hbase]
  · rw [s.plainValue_getLsbD b o r _ (by omega), writtenBit_standingLow _ hi hspec hw hown hw1c hi', hbase]
  · rw [s.plainValue_getLsbD b o r _ hi', hbase]
    refine writtenBit_congr r _ _ ?_
    rw [append_getLsbD, append_getLsbD, if_neg (by omega), if_neg (by omega)]
  · rw [hexec, State.highWrite_of_none r hi (by rw [hbase]; exact hnone), s.regWrite_of_ownRule req r _ hown, hbase]

end Sys2Proof.Machine
end

section
/-! PROOFS. Register accesses that R10 does not admit, and accesses of reserved addresses (00 R10, R13): a write changes
nothing, a BAR0 read leaves a completion of zero bytes. -/

namespace Sys2Proof.Machine

open Sys2Proof.Claims

/-! ## Reads at once, or by the service slot (R10, R518) -/

/-- A read of registers with no word in error leaves one good completion. -/
theorem State.hostReadNow_regs (s : State) (td : Td) (fn : Fn) (off : Word) {a n : Nat} (hmem : memAt a = none)
    (herr : s.readErrors a n = []) : s.hostReadNow td fn off.toNat a n =
      s.emit (.completion td fn off (s.readRegs (reqOf td fn) a n) false) := by
  unfold State.hostReadNow
  simp only [herr, hmem, List.filter_nil, BitVec.ofNat_toNat, BitVec.setWidth_eq]
  rfl

/-- A BAR0 read of registers that touches no running core is answered at once; one that touches a running core joins its
service beats, and the service slot answers it. -/
theorem bar0Read_at_once_or_served {s : State} {td : Td} {fn : Fn} {off : Word} {a n : Nat}
    (hans : s.answers (.trd td) = true) (hbar : s.barAddr td fn off.toNat = some a) (hn : n ≠ 0) (hmem : memAt a = none)
    (herr : s.readErrors a n = []) :
    (s.servedBy a n = none → exec (.bar0MemoryRead td fn off n) s =
      .next (s.emit (.completion td fn off (s.readRegs (reqOf td fn) a n) false))) ∧
    ∀ g : CoreId,
      (s.servedBy a n = some g →
        exec (.bar0MemoryRead td fn off n) s = .next (joins s g (.bar0 td fn off n [] false))) ∧
      s.serve g (.bar0 td fn off n [] false) =
        s.emit (.completion td fn off (s.readRegs (reqOf td fn) a n) false) := by
  rw [← s.hostReadNow_regs td fn off hmem herr]
  refine ⟨fun hs => ?_, fun g => ⟨fun hs => ?_, ?_⟩⟩
  · simp only [exec, execBar0MemoryRead, State.bar0Read, hans, hn, hbar, hs, Bool.not_true, Bool.false_or,
      decide_false, Bool.false_eq_true, if_false]
  · simp only [exec, execBar0MemoryRead, State.bar0Read, hans, hn, hbar, hs, Bool.not_true, Bool.false_or,
      decide_false, Bool.false_eq_true, if_false, BitVec.ofNat_toNat, BitVec.setWidth_eq]
  · simp only [State.serve, State.nextRead, hbar, Option.map_some, List.length_nil, Nat.add_zero, hmem]

/-! ## Illegal accesses (R10) -/

/-- A read of no legal size and alignment returns zero bytes. -/
theorem State.readRegs_illegal (s : State) (req : Requester) {a n : Nat} (h4 : ¬ (n = 4 ∧ a % 4 = 0))
    (h8 : ¬ (n = 8 ∧ a % 8 = 0)) : s.readRegs req a n = List.replicate n 0 := by
  rw [State.readRegs, if_neg h4, if_neg h8]

/-- A register write of no legal size and alignment is discarded, in the window of a running core too. -/
theorem State.hostWrite_illegal (s : State) (req : Requester) {a n : Nat} (val : Dword) (h4 : ¬ (n = 4 ∧ a % 4 = 0))
    (h8 : ¬ (n = 8 ∧ a % 8 = 0)) : s.hostWrite req a n val = s := by
  have hlegal : ¬ legalAccess a n = true := fun h => ((legalAccess_iff a n).1 h).elim h4 h8
  unfold State.hostWrite
  split
  · rw [if_neg hlegal]
  · exact s.writeNow_illegal req val h4 h8

/-- Settles O7: an illegal write is discarded at the door, an illegal read answers zero bytes. -/
theorem illegalRegisterAccess : Obligations.IllegalRegisterAccess := by
  intro s a n h4 h8
  refine ⟨fun req val => by rw [exec, execRegisterWrite, s.hostWrite_illegal req val h4 h8],
    fun td fn off hans hbar hn hmem herr => ?_⟩
  have hread := bar0Read_at_once_or_served hans hbar hn hmem herr
  rwa [s.readRegs_illegal _ h4 h8] at hread

/-! ## Reserved addresses (R13) -/

/-- The first register of a snapshot group is a register of its map. -/
theorem snapAt_eq_none_of_spec {b : Block} {o : Nat} (h : b.spec o = none) : snapAt b o = none := by
  unfold snapAt
  split
  case h_6 => rfl
  all_goals exact absurd h (by decide)

/-- 32 bits at a reserved address read 0. -/
theorem State.read32_reserved (s : State) (req : Requester) {a : Nat} (h : reservedAt a) : s.read32 req a = 0 := by
  unfold State.read32
  split
  · rfl
  · next b o hb =>
    obtain ⟨hbytes, hspec, hhalf⟩ := h.2 b o hb
    simp only [hbytes, hspec, Bool.false_eq_true, if_false]
    split_ifs with _ _ ho
    · rfl
    · rfl
    · cases hr : b.spec (o - 4) with
      | none => rfl
      | some r => exact if_neg (by rw [hhalf ho.2 r hr]; exact Bool.false_ne_true)
    · rfl

/-- A 32-bit write at a reserved address changes nothing. -/
theorem State.write32_reserved (s : State) (req : Requester) {a : Nat} (val : Word) (h : reservedAt a) :
    s.write32 req a val = s := by
  unfold State.write32
  split
  · rfl
  · next b o ht =>
    obtain ⟨hbytes, hspec, hhalf⟩ := h.2 b o (State.blockOf_of_target ht)
    simp only [hbytes, snapAt_eq_none_of_spec hspec, Bool.false_eq_true, if_false]
    split
    · cases hspec
    · simp only [hspec]
      split_ifs with ho
      · cases hr : b.spec (o - 4) with
        | none => rfl
        | some r => exact if_neg (by rw [hhalf ho.2 r hr]; exact Bool.false_ne_true)
      · rfl

/-- A 64-bit write at a reserved address changes nothing. -/
theorem State.write64_reserved (s : State) (req : Requester) {a : Nat} (val : Dword) (h : reservedAt a)
    (h' : reservedAt (a + 4)) : s.write64 req a val = s := by
  have hhalves (lo hi : Word) : (s.write32 req a lo).write32 req (a + 4) hi = s := by
    rw [s.write32_reserved req lo h, s.write32_reserved req hi h']
  unfold State.write64
  split
  · exact hhalves _ _
  · next b o ht =>
    obtain ⟨-, hspec, -⟩ := h.2 b o (State.blockOf_of_target ht)
    simp only [hspec, snapAt_eq_none_of_spec hspec, hhalves]

/-- The accesses of a reserved address that R10 admits: a word, or a dword both of whose words are reserved. -/
def reservedAccess (a n : Nat) : Prop :=
  (n = 4 ∧ a % 4 = 0 ∧ reservedAt a) ∨ (n = 8 ∧ a % 8 = 0 ∧ reservedAt a ∧ reservedAt (a + 4))

/-- A register write at a reserved address changes nothing. -/
theorem State.writeNow_reserved (s : State) (req : Requester) {a n : Nat} (val : Dword) (h : reservedAccess a n) :
    s.writeNow req a n val = s := by
  obtain ⟨rfl, ha, hr⟩ | ⟨rfl, ha, hr, hr'⟩ := h
  · rw [s.writeNow_word req val ha, s.write32_reserved req _ hr]
  · rw [s.writeNow_dword req val ha, s.write64_reserved req val hr hr']

/-- A register read at a reserved address returns zero bytes. -/
theorem State.readRegs_reserved (s : State) (req : Requester) {a n : Nat} (h : reservedAccess a n) :
    s.readRegs req a n = List.replicate n 0 := by
  unfold State.readRegs
  obtain ⟨rfl, ha, hr⟩ | ⟨rfl, ha, hr, hr'⟩ := h
  · rw [if_pos ⟨rfl, ha⟩, s.read32_reserved req hr]
    rfl
  · rw [if_neg (by omega), if_pos ⟨rfl, ha⟩, s.read32_reserved req hr, s.read32_reserved req hr']
    rfl

/-- A reserved access is legal, of some bytes, and outside the core memories. -/
theorem reservedAccess_legal {a n : Nat} (h : reservedAccess a n) :
    legalAccess a n = true ∧ n ≠ 0 ∧ memAt a = none := by
  obtain ⟨rfl, ha, hr⟩ | ⟨rfl, ha, hr, _⟩ := h
  · exact ⟨(legalAccess_iff a 4).2 (.inl ⟨rfl, ha⟩), by decide, hr.1⟩
  · exact ⟨(legalAccess_iff a 8).2 (.inr ⟨rfl, ha⟩), by decide, hr.1⟩

/-- Settles O8: neither path of a write or a read finds a register at a reserved address. -/
theorem reservedAddresses : Obligations.ReservedAddresses := by
  intro s a n h
  have hr : reservedAccess a.toNat n := h
  obtain ⟨hlegal, hn, hmem⟩ := reservedAccess_legal hr
  refine ⟨fun req val => ?_, fun td fn off hans hbar herr => ?_⟩
  · have hwrite := registerWrite_at_once_or_served s req val hlegal
    rwa [s.writeNow_reserved req val hr] at hwrite
  · have hread := bar0Read_at_once_or_served hans hbar hn hmem herr
    rwa [s.readRegs_reserved _ hr] at hread

end Sys2Proof.Machine
end

section
/-! PROOFS. Host writes of core memories (01 R29, R32, R33; 04 R153, R168): the lines that a write makes, what becomes
of each, and the count of a write of which a byte is discarded. -/

namespace Sys2Proof.Machine

/-- A host write of the byte at an address is discarded and counted. -/
inductive State.Discards (s : State) (a : Nat) : Prop
  /-- it lies in a memory of a core that answers and runs a deck (R29) -/
  | running {g : CoreId} {k : Nat} (hmem : memAt a = some (g, k)) (hans : s.coreAnswers g = true)
      (hruns : s.runs g = true)
  /-- it lies in the system reserve of a core that answers (R168) -/
  | reserve {g : CoreId} (hmem : memAt a = some (g, 0)) (hans : s.coreAnswers g = true)
      (hres : inReserve (64 * (a / 64)) = true)

/-! ## The lines of a write -/

/-- A line lies in one core memory: boundaries of the memories are boundaries of lines (Tables 1.5, 1.6). -/
theorem memAt_line (a : Nat) : memAt (64 * (a / 64)) = memAt a := by
  unfold memAt
  by_cases hbeam : a < 0x80000000
  · have hcore : 64 * (a / 64) / 0x800000 = a / 0x800000 := by omega
    rw [if_pos hbeam, if_pos (by omega), hcore]
  · have hcore : (64 * (a / 64) - 0x80000000) / 0x400000 = (a - 0x80000000) / 0x400000 := by omega
    have hoff : (64 * (a / 64) - 0x80000000) % 0x400000 = 64 * ((a - 0x80000000) % 0x400000 / 64) := by omega
    rw [if_neg hbeam, if_neg (by omega), hcore, hoff]
    generalize (a - 0x80000000) % 0x400000 = o
    have haux : 64 * (a / 64) < 0xC0000000 ↔ a < 0xC0000000 := by omega
    have hcards : 64 * (o / 64) < 0x80000 ↔ o < 0x80000 := by omega
    have htake : 0x100000 ≤ 64 * (o / 64) ∧ 64 * (o / 64) < 0x200000 ↔ 0x100000 ≤ o ∧ o < 0x200000 := by omega
    simp only [haux, hcards, htake]

/-- The bytes of a write with their addresses, from an address on. -/
def bytesFrom (a : Nat) (l : List Byte) : List (Nat × Byte) := l.zipIdx.map fun e => (a + e.2, e.1)

/-- A byte of a write lies at one of its addresses. -/
theorem exists_lt_of_mem_bytesFrom {a : Nat} {l : List Byte} {p : Nat × Byte} (h : p ∈ bytesFrom a l) :
    ∃ i < l.length, p.1 = a + i := by
  obtain ⟨⟨b, i⟩, he, rfl⟩ := List.mem_map.1 h
  exact ⟨i, (List.mem_zipIdx' he).1, rfl⟩

/-- A write of some bytes has some. -/
theorem bytesFrom_ne_nil (a : Nat) {l : List Byte} (h : l ≠ []) : bytesFrom a l ≠ [] := by
  simpa [bytesFrom] using h

/-- One byte more goes to the group of its line, a new one where there is none. -/
theorem groupLines_concat (l : List (Nat × Byte)) (p : Nat × Byte) :
    groupLines (l ++ [p]) =
      if (groupLines l).any (fun x => x.1 == p.1 / 64) then
        (groupLines l).map fun x => if x.1 == p.1 / 64 then (p.1 / 64, x.2 ++ [(p.1 % 64, p.2)]) else x
      else groupLines l ++ [(p.1 / 64, [(p.1 % 64, p.2)])] := by
  unfold groupLines
  rw [List.foldl_append]
  rfl

/-- Every group is of the line of a byte. -/
theorem exists_line_of_mem_groupLines {l : List (Nat × Byte)} {e : Nat × List (Nat × Byte)} (h : e ∈ groupLines l) :
    ∃ p ∈ l, p.1 / 64 = e.1 := by
  induction l using List.reverseRecOn generalizing e with
  | nil => cases h
  | append_singleton l p ih =>
    have hold {x : Nat × List (Nat × Byte)} (hx : x ∈ groupLines l) : ∃ q ∈ l ++ [p], q.1 / 64 = x.1 := by
      obtain ⟨q, hq, hline⟩ := ih hx
      exact ⟨q, List.mem_append_left _ hq, hline⟩
    have hnew : p ∈ l ++ [p] := List.mem_append_right _ (List.mem_singleton_self p)
    rw [groupLines_concat] at h
    split at h
    · obtain ⟨x, hx, rfl⟩ := List.mem_map.1 h
      split
      · exact ⟨p, hnew, rfl⟩
      · exact hold hx
    · obtain hx | hx := List.mem_append.1 h
      · exact hold hx
      · exact ⟨p, hnew, by rw [List.mem_singleton.1 hx]⟩

/-- Bytes make groups. -/
theorem groupLines_ne_nil {l : List (Nat × Byte)} (h : l ≠ []) : groupLines l ≠ [] := by
  induction l using List.reverseRecOn with
  | nil => exact absurd rfl h
  | append_singleton l p _ =>
    rw [groupLines_concat]
    split
    · next hany =>
      obtain ⟨x, hx, -⟩ := List.any_eq_true.1 hany
      exact List.ne_nil_of_mem (List.mem_map_of_mem hx)
    · exact List.append_ne_nil_of_right_ne_nil _ (List.cons_ne_nil _ _)

/-- Bytes of one line make one group. -/
theorem groupLines_of_one_line {l : List (Nat × Byte)} {n : Nat} (hne : l ≠ []) (h : ∀ p ∈ l, p.1 / 64 = n) :
    groupLines l = [(n, l.map fun p => (p.1 % 64, p.2))] := by
  induction l using List.reverseRecOn with
  | nil => exact absurd rfl hne
  | append_singleton l p ih =>
    have hp : p.1 / 64 = n := h p (List.mem_append_right _ (List.mem_singleton_self p))
    rw [groupLines_concat, hp]
    obtain rfl | hl := eq_or_ne l []
    · rfl
    · rw [ih hl fun q hq => h q (List.mem_append_left _ hq)]
      simp

/-- A write in one line makes one group, its bytes at their places in the line. -/
theorem groupLines_bytesFrom {a : Nat} {l : List Byte} (hne : l ≠ []) (h : (a + (l.length - 1)) / 64 = a / 64) :
    groupLines (bytesFrom a l) = [(a / 64, bytesFrom (a % 64) l)] := by
  have hline : ∀ i < l.length, (a + i) / 64 = a / 64 ∧ (a + i) % 64 = a % 64 + i := by
    intro i hi
    omega
  rw [groupLines_of_one_line (n := a / 64) (bytesFrom_ne_nil a hne) fun p hp => ?_]
  · congr 2
    unfold bytesFrom
    rw [List.map_map]
    refine List.map_congr_left fun e he => ?_
    exact congrArg (·, e.1) (hline e.2 (List.mem_zipIdx' he).1).2
  · obtain ⟨i, hi, hpa⟩ := exists_lt_of_mem_bytesFrom hp
    rw [hpa, (hline i hi).1]

/-! ## What becomes of a line -/

/-- A fold that the first entry brings to a state that every later one keeps. -/
theorem foldl_eq_of_forall_mem {α β : Type} {f : β → α → β} {x y : β} {l : List α} (hne : l ≠ [])
    (hfirst : ∀ e ∈ l, f x e = y) (hlater : ∀ e ∈ l, f y e = y) : l.foldl f x = y := by
  cases l with
  | nil => exact absurd rfl hne
  | cons e t =>
    rw [List.foldl_cons, hfirst e List.mem_cons_self]
    refine List.foldlRecOn (motive := (· = y)) t f rfl fun z hz u hu => ?_
    rw [hz, hlater u (List.mem_cons_of_mem e hu)]

/-- A byte whose write is discarded lies in a memory of a core that answers, and its line is not written. -/
theorem State.Discards.exists_core {s : State} {a : Nat} (h : s.Discards a) :
    ∃ g k, memAt a = some (g, k) ∧ s.coreAnswers g = true ∧
      (s.runs g || (k == 0 && inReserve (64 * (a / 64)))) = true := by
  cases h with
  | running hmem hans hruns => exact ⟨_, _, hmem, hans, by rw [hruns, Bool.true_or]⟩
  | reserve hmem hans hres => exact ⟨_, _, hmem, hans, by rw [hres, beq_self_eq_true, Bool.and_self, Bool.or_true]⟩

/-- A write of which every byte is discarded changes no memory and is to be counted. -/
theorem State.memWrite_of_discards {s : State} {l : List (Nat × Byte)} (hne : l ≠ []) (h : ∀ p ∈ l, s.Discards p.1) :
    s.memWrite l = (s, true) := by
  have hline (e : Nat × List (Nat × Byte)) (he : e ∈ groupLines l) :
      ∃ g k, memAt (64 * e.1) = some (g, k) ∧ s.coreAnswers g = true ∧
        (s.runs g || (k == 0 && inReserve (64 * e.1))) = true := by
    obtain ⟨p, hp, hpe⟩ := exists_line_of_mem_groupLines he
    obtain ⟨g, k, hmem, hans, hwhy⟩ := (h p hp).exists_core
    rw [hpe] at hwhy
    exact ⟨g, k, by rw [← hpe, memAt_line, hmem], hans, hwhy⟩
  unfold State.memWrite
  refine foldl_eq_of_forall_mem (groupLines_ne_nil hne) ?_ ?_ <;>
  · intro e he
    obtain ⟨g, k, hmem, hans, hwhy⟩ := hline e he
    simp [hmem, hans, hwhy]

/-- A write in a line of the card store or take-up of an idle core: each byte in turn, with fresh parity. -/
theorem State.memWrite_of_aux {s : State} {a k : Nat} {g : CoreId} {l : List Byte} (hne : l ≠ [])
    (hline : (a + (l.length - 1)) / 64 = a / 64) (hmem : memAt a = some (g, k)) (hans : s.coreAnswers g = true)
    (hruns : s.runs g = false) (hk : k ≠ 0) :
    s.memWrite (bytesFrom a l) = (l.zipIdx.foldl (fun t e => t.hostBytes (a + e.2) [e.1]) s, false) := by
  have haddr (i : Nat) : 64 * (a / 64) + (a % 64 + i) = a + i := by omega
  unfold State.memWrite
  rw [groupLines_bytesFrom hne hline]
  simp [memAt_line, hmem, hans, hruns, hk, bytesFrom, List.foldl_map, haddr]

/-- A write in a line of the beam of an idle core below the system reserve: through the store buffer, which drains the
line. -/
theorem State.memWrite_of_beam {s : State} {a : Nat} {g : CoreId} {l : List Byte} (hne : l ≠ [])
    (hline : (a + (l.length - 1)) / 64 = a / 64) (hmem : memAt a = some (g, 0)) (hans : s.coreAnswers g = true)
    (hruns : s.runs g = false) (hres : inReserve (64 * (a / 64)) = false) :
    s.memWrite (bytesFrom a l) = ((s.modCore g fun c => { c with sbuf := c.sbuf ++ [{
      line := a % 0x800000 / 64
      mask := maskOf (bytesFrom (a % 64) l)
      data := dataOf (bytesFrom (a % 64) l) }] }).drainLine g (a % 0x800000 / 64), false) := by
  have hbeam : 64 * (a / 64) % 0x800000 / 64 = a % 0x800000 / 64 := by omega
  unfold State.memWrite
  rw [groupLines_bytesFrom hne hline]
  simp [memAt_line, hmem, hans, hruns, hres, hbeam]

/-! ## The command -/

/-- A BAR0 offset reaches a 32-bit device address (Table 11.2). -/
theorem State.barAddr_lt {s : State} {td : Td} {fn : Fn} {off : Word} {a : Nat}
    (h : s.barAddr td fn off.toNat = some a) : a < 2 ^ 32 := by
  have hoff := off.isLt
  unfold State.barAddr at h
  dsimp only at h
  split at h
  · cases h
    omega
  · cases h

/-- A BAR0 write that begins in a core memory: what becomes of its lines, and the count if a byte is discarded. -/
theorem bar0MemoryWrite_of_memWrite {s t : State} {td : Td} {fn : Fn} {off : Word} {l : List Byte} {a : Nat}
    {c : CoreId × Nat} {d : Bool} (hans : s.answers (.trd td) = true) (hbar : s.barAddr td fn off.toNat = some a)
    (hmem : memAt a = some c) (h : s.memWrite (bytesFrom a l) = (t, d)) :
    exec (.bar0MemoryWrite td fn off l) s = .next (if d then t.count (trd td 0x10) 1 else t) := by
  unfold bytesFrom at h
  simp [exec, execBar0MemoryWrite, State.bar0Write, hans, hbar, hmem, h]

/-- A BAR0 write of which every byte is discarded changes the count of such requests alone. -/
theorem bar0MemoryWrite_of_discards {s : State} {td : Td} {fn : Fn} {off : Word} {l : List Byte} {a : Nat}
    (hans : s.answers (.trd td) = true) (hbar : s.barAddr td fn off.toNat = some a) (hne : l ≠ [])
    (h : ∀ i < l.length, s.Discards (a + i)) :
    exec (.bar0MemoryWrite td fn off l) s = .next (s.count (trd td 0x10) 1) := by
  obtain ⟨g, k, hmem, -⟩ := (h 0 (List.length_pos_iff.2 hne)).exists_core
  refine bar0MemoryWrite_of_memWrite hans hbar hmem (State.memWrite_of_discards (bytesFrom_ne_nil a hne) fun p hp => ?_)
  obtain ⟨i, hi, hpa⟩ := exists_lt_of_mem_bytesFrom hp
  rw [hpa]
  exact h i hi

/-- A BAR0 write that begins at a register is the register write of its bytes. -/
theorem bar0MemoryWrite_of_register {s : State} {td : Td} {fn : Fn} {off : Word} {a : Nat} (l : List Byte)
    (hans : s.answers (.trd td) = true) (hbar : s.barAddr td fn off.toNat = some a) (hmem : memAt a = none) :
    exec (.bar0MemoryWrite td fn off l) s =
      exec (.registerWrite (reqOf td fn) (BitVec.ofNat 32 a) l.length (BitVec.ofNat 64 (leNat l))) s := by
  have haddr : (BitVec.ofNat 32 a).toNat = a := by
    rw [BitVec.toNat_ofNat, Nat.mod_eq_of_lt (State.barAddr_lt hbar)]
  simp only [exec, execBar0MemoryWrite, execRegisterWrite, State.bar0Write, hans, hbar, hmem, haddr, Bool.not_true,
    Bool.false_eq_true, if_false, Option.isNone_none, if_true]

/-- Settles O12: every byte of the write lies in a memory of the running core and is discarded; the request counts once,
which is the model's choice (log entry 17). -/
theorem hostWriteToRunningCoreDiscarded : Obligations.HostWriteToRunningCoreDiscarded := by
  intro s td fn off l a g hans hbar hne hmem hcore hruns
  refine bar0MemoryWrite_of_discards hans hbar hne fun i hi => ?_
  obtain ⟨k, hk⟩ := hmem i hi
  exact .running hk hcore hruns

/-- Settles O13: a write in one line is one group, which the memory that holds the line takes in its own way. -/
theorem hostWriteToIdleCore : Obligations.HostWriteToIdleCore := by
  intro s td fn off l a hans hbar hne
  refine ⟨bar0MemoryWrite_of_register l hans hbar, fun g k hline hmem hcore hruns => ⟨fun hk => ?_, ?_, ?_⟩⟩
  · exact bar0MemoryWrite_of_memWrite hans hbar hmem (State.memWrite_of_aux hne hline hmem hcore hruns hk)
  · rintro rfl hres
    exact bar0MemoryWrite_of_memWrite hans hbar hmem (State.memWrite_of_beam hne hline hmem hcore hruns hres)
  · rintro rfl hres
    refine bar0MemoryWrite_of_discards hans hbar hne fun i hi => ?_
    have hsame : (a + i) / 64 = a / 64 := by omega
    exact .reserve (by rw [← memAt_line, hsame, memAt_line, hmem]) hcore (by rw [hsame, hres])

end Sys2Proof.Machine
end

section
/-! PROOFS. Host reads of registers and core memories (01 R30, R31, R33; 04 R163): at once, or by the service beats of a
running core and port SVC, line by line. -/

namespace Sys2Proof.Machine

open Sys2Proof.Claims

/-- A BAR0 read that reaches no running core is performed in its command. -/
theorem bar0MemoryRead_of_not_served {s : State} {td : Td} {fn : Fn} {off : Word} {n a : Nat}
    (hans : s.answers (.trd td) = true) (hbar : s.barAddr td fn off.toNat = some a) (hn : n ≠ 0)
    (hs : s.servedBy a n = none) :
    exec (.bar0MemoryRead td fn off n) s = .next (s.hostReadNow td fn off.toNat a n) := by
  simp [exec, execBar0MemoryRead, State.bar0Read, hans, hn, hbar, hs]

/-- A BAR0 read that reaches a running core joins its service beats. -/
theorem bar0MemoryRead_of_served {s : State} {td : Td} {fn : Fn} {off : Word} {n a : Nat} {g : CoreId}
    (hans : s.answers (.trd td) = true) (hbar : s.barAddr td fn off.toNat = some a) (hn : n ≠ 0)
    (hs : s.servedBy a n = some g) :
    exec (.bar0MemoryRead td fn off n) s = .next (joins s g (.bar0 td fn off n [] false)) := by
  simp [exec, execBar0MemoryRead, State.bar0Read, hans, hn, hbar, hs]

/-- The words in error that a host read counts: those of memories and descriptor tables of cores that answer. -/
def State.answeredErrors (s : State) (a n : Nat) : List (CoreId × Dword) :=
  (s.readErrors a n).filter fun e => s.coreAnswers e.1

/-- A read that begins at a register takes the bytes of registers. -/
theorem State.hostReadNow_of_register (s : State) (td : Td) (fn : Fn) (off : Word) {a : Nat} (n : Nat)
    (hmem : memAt a = none) : s.hostReadNow td fn off.toNat a n =
      (s.countRead td (s.answeredErrors a n)).emit
        (.completion td fn off (s.readRegs (reqOf td fn) a n) (s.answeredErrors a n != [])) := by
  unfold State.hostReadNow
  simp only [hmem, BitVec.ofNat_toNat, BitVec.setWidth_eq]
  rfl

/-- A read of memories of cores that answer takes the bytes that stand there. -/
theorem State.hostReadNow_of_memory {s : State} (td : Td) (fn : Fn) (off : Word) {a n : Nat} (hn : n ≠ 0)
    (hmem : ∀ i < n, ∃ g k, memAt (a + i) = some (g, k) ∧ s.coreAnswers g = true) : s.hostReadNow td fn off.toNat a n =
      (s.countRead td (s.answeredErrors a n)).emit
        (.completion td fn off (s.bytes a n) (s.answeredErrors a n != [])) := by
  obtain ⟨g, k, hfirst, -⟩ := hmem 0 (Nat.pos_of_ne_zero hn)
  unfold State.hostReadNow
  simp only [show memAt a = some (g, k) from hfirst, BitVec.ofNat_toNat, BitVec.setWidth_eq]
  refine congrArg (fun data => (s.countRead td (s.answeredErrors a n)).emit
    (.completion td fn off data (s.answeredErrors a n != []))) (List.map_congr_left fun i hi => ?_)
  obtain ⟨h, j, hbyte, hcore⟩ := hmem i (List.mem_range.1 hi)
  simp only [hbyte, hcore, if_true]

/-- An access of a read that does not reach its last byte: the next line's access follows, before the waiting beats. -/
theorem State.lineRead_of_lt (s : State) (g : CoreId) (td : Td) (fn : Fn) (off : Word) {n : Nat} {got data : List Byte}
    (bad : Bool) (h : got.length + data.length < n) : s.lineRead g td fn off n got bad data [] =
      s.modCore g fun c => { c with svc := .bar0 td fn off n (got ++ data) bad :: c.svc } := by
  simp [State.lineRead, State.countRead, h]

/-- The access with the last byte of a read: the completion leaves. -/
theorem State.lineRead_of_le (s : State) (g : CoreId) (td : Td) (fn : Fn) (off : Word) {n : Nat} {got data : List Byte}
    (bad : Bool) (h : n ≤ got.length + data.length) : s.lineRead g td fn off n got bad data [] =
      s.emit (.completion td fn off (got ++ data) bad) := by
  simp [State.lineRead, State.countRead, h]

/-- The oldest held read goes on at a free port SVC once no drain runs. -/
theorem State.bar0Release_of_held {s : State} {g : CoreId} {x : SvcBeat} {t : List SvcBeat}
    (hdrain : (s.core g).drainLeft = none) (hport : (s.core g).svcPort = none) (hheld : (s.core g).heldReads = x :: t) :
    s.bar0Release g = s.modCore g fun c => { c with heldReads := t, svcPort := some x } := by
  simp [State.bar0Release, hdrain, hport, hheld]

/-- Settles O14: the read at once, by the kind of its bytes; the read as a service beat; its accesses; its release. -/
theorem hostReadOfMemory : Obligations.HostReadOfMemory := by
  intro s td fn off n a hans hbar hn
  refine ⟨fun hs => ⟨fun hmem => ?_, fun hmem => ?_⟩, fun g hs => bar0MemoryRead_of_served hans hbar hn hs,
    fun g _ _ bad h => s.lineRead_of_lt g td fn off bad h, fun g _ _ bad h => s.lineRead_of_le g td fn off bad h,
    fun g x t hdrain hport hheld => ?_⟩
  · rw [bar0MemoryRead_of_not_served hans hbar hn hs, s.hostReadNow_of_register td fn off n hmem]
    rfl
  · rw [bar0MemoryRead_of_not_served hans hbar hn hs, State.hostReadNow_of_memory td fn off hn hmem]
    rfl
  · rw [exec, execBar0ReadRelease, State.bar0Release_of_held hdrain hport hheld]

end Sys2Proof.Machine
end

section
/-! PROOFS. The service slot of a core (01 R26–R28, 04 R148): which of the waiting beats takes it, and what each does;
the Overseer's reads of the reserve (14 R469). -/

namespace Sys2Proof.Machine

open Sys2Proof.Claims

/-- One entry more at the end becomes the entry of least order only if its order is less. -/
theorem leastBy_concat {α : Type} {key : α → Nat} {l : List α} {y : α} (x : α) (h : leastBy key l = some y) :
    leastBy key (l ++ [x]) = if key x < key y then some x else some y := by
  unfold leastBy at h ⊢
  rw [List.foldl_append, h]
  rfl

/-- The entry of least order of some entries is one of them, and none has a lesser order. -/
theorem exists_leastBy_eq_some {α : Type} (key : α → Nat) {l : List α} (h : l ≠ []) :
    ∃ x ∈ l, leastBy key l = some x ∧ ∀ y ∈ l, key x ≤ key y := by
  induction l using List.reverseRecOn with
  | nil => exact absurd rfl h
  | append_singleton l z ih =>
    obtain rfl | hl := eq_or_ne l []
    · exact ⟨z, by simp, rfl, by simp⟩
    · obtain ⟨x, hx, hleast, hmin⟩ := ih hl
      have hsplit {y : α} (hy : y ∈ l ++ [z]) : y ∈ l ∨ y = z := by simpa using hy
      rw [leastBy_concat z hleast]
      split
      · next hlt =>
        exact ⟨z, by simp, rfl, fun y hy => (hsplit hy).elim (fun hy => hlt.le.trans (hmin y hy)) fun hy => hy ▸ le_rfl⟩
      · next hle =>
        exact ⟨x, by simp [hx], rfl, fun y hy => (hsplit hy).elim (hmin y) fun hy => hy ▸ not_lt.1 hle⟩

/-- In a free service slot of a working core a beat of least rank among the first eight takes the slot, leaves the queue
and is served, unless port SVC is taken (R26–R28, R148). -/
theorem State.serviceSlot_of_free {s : State} {g : CoreId} (hworks : s.works g = true)
    (hfree : s.slotFree g .service = true) (hsvc : (s.core g).svc ≠ []) :
    ∃ x ∈ (s.core g).svc.take 8, (∀ y ∈ (s.core g).svc.take 8, x.rank ≤ y.rank) ∧
      s.serviceSlot g = if s.svcBlocked g x then s else
        ((s.useSlot g .service).modCore g fun c => { c with svc := c.svc.erase x }).serve g x := by
  have htake : (s.core g).svc.take 8 ≠ [] := by simpa using hsvc
  obtain ⟨x, hx, hnext, hmin⟩ := exists_leastBy_eq_some SvcBeat.rank htake
  refine ⟨x, hx, hmin, ?_⟩
  unfold State.serviceSlot nextSvc
  simp only [hworks, hfree, hnext, Bool.not_true, Bool.or_self, Bool.false_eq_true, if_false]

/-- Without a free slot, or with no beat, the service slot changes nothing. -/
theorem State.serviceSlot_of_idle {s : State} {g : CoreId}
    (h : s.slotFree g .service = false ∨ (s.core g).svc = []) : s.serviceSlot g = s := by
  unfold State.serviceSlot
  obtain hfree | hsvc := h
  · simp only [hfree, Bool.not_false, Bool.or_true, if_true]
  · simp [hsvc, nextSvc, leastBy]

/-- A host read of a core memory in the service slot: port SVC for the beam, the line at once for the card store and
take-up (R31). -/
theorem State.serve_bar0_of_memory {s : State} (g : CoreId) {td : Td} {fn : Fn} {off : Word} {n a m : Nat}
    {got : List Byte} (bad : Bool) {h : CoreId} {k : Nat} (hnext : s.nextRead td fn off n got = some (a, m))
    (hmem : memAt a = some (h, k)) :
    s.serve g (.bar0 td fn off n got bad) =
      if k = 0 then s.modCore g fun c => { c with svcPort := some (.bar0 td fn off n got bad) }
      else s.lineRead g td fn off n got bad (s.bytes a m) (s.readErrors a m) := by
  cases k with
  | zero => simp only [State.serve, hnext, hmem, if_true]
  | succ k => simp only [State.serve, hnext, hmem, Nat.add_one_ne_zero, if_false, State.bytes]

/-- A copy of any SEQ goes before the host (R27): SEQ is a number of 64 bits. -/
theorem rank_out_lt_rank_host (td : Td) (sp : SpoolId) (q : Dword) (fn : Fn) (a : Word) (n : Nat) (l : List Byte)
    (b : Bool) : (SvcBeat.out td sp q).rank < (SvcBeat.bar0 td fn a n l b).rank := by
  have hq := q.isLt
  simp only [SvcBeat.rank]
  omega

/-- The Overseer's read of a word of the reserve of a working core joins its service beats (R469). -/
theorem overseerReserveRead_joins {s : State} {g : CoreId} (off : BitVec 16) (hworks : s.works g = true)
    (hpwr : 3 ≤ s.pwrState) :
    exec (.overseerReserveRead g off) s = .next (joins s g (.overseer (0x7F0000 + 4 * (off.toNat / 4)) false)) := by
  simp [exec, execOverseerReserveRead, State.reserveRead, hworks, hpwr, Nat.mod_eq_of_lt off.isLt]

/-- The performed read of a word that passes parity changes nothing; of one that fails it counts and logs the word and
queues the rewrite of its area (R164, R469). -/
theorem State.overseerLine_read (s : State) (g : CoreId) {o : Nat} (ho : wordOf o = o) :
    s.overseerLine g o false = if s.badWord (beamBase g + o) then
      ((s.ccount g 0x320 1).logCore g 0x3003 (BitVec.ofNat 64 o)).modCore g fun c =>
        { c with svc := .overseer (areaStart o) true :: c.svc }
    else s := by
  simp only [State.overseerLine, ho, Bool.false_eq_true, if_false]

/-- Settles O15: the slot's choice is the least rank of the landing queue, whose order between spools is the model's
choice (log entry 44); then each kind of beat in turn. -/
theorem serviceSlotServesByPriority : Obligations.ServiceSlotServesByPriority := by
  intro s g hworks
  refine ⟨fun hfree hsvc => ?_, fun h => ?_, fun _ _ => rfl, fun _ _ _ => rfl, fun _ _ _ _ => rfl,
    fun td fn off n got bad a m h k hnext hmem => State.serve_bar0_of_memory g bad hnext hmem,
    fun o i n size rewrite b td sp q q' v l fn a req d m => ?_, fun off hpwr => ?_⟩
  · obtain ⟨x, hx, hmin, hslot⟩ := State.serviceSlot_of_free hworks hfree hsvc
    exact ⟨x, hx, hmin, congrArg _ hslot⟩
  · exact congrArg _ (State.serviceSlot_of_idle h)
  · exact ⟨Nat.lt_add_right _ Nat.one_pos, rfl, fun hq => Nat.add_lt_add_left hq 1,
      rank_out_lt_rank_host td sp q fn a n l b, rfl, Nat.lt_succ_self _⟩
  · have ho : wordOf (0x7F0000 + 4 * (off.toNat / 4)) = 0x7F0000 + 4 * (off.toNat / 4) := by
      unfold wordOf
      omega
    refine ⟨overseerReserveRead_joins off hworks hpwr, fun hgood => ?_, fun hbad => ?_⟩
    · rw [s.overseerLine_read g ho, hgood, if_neg Bool.false_ne_true]
    · rw [s.overseerLine_read g ho, hbad, if_pos rfl]

end Sys2Proof.Machine
end

section
/-! PROOFS. A step on an empty queue (R528, log entry 9): one clk of the core clocks, which only its middle counts. -/

namespace Sys2Proof.Machine

/-- Where the core clocks do not run no clk passes. -/
theorem State.tick_of_stopped {s : State} (h : s.clocksRun = false) : s.tick = s := by
  rw [State.tick, h, if_neg Bool.false_ne_true]

/-- Where they run, a clk ends, is counted, and the next one starts. -/
theorem State.tick_of_running {s : State} (h : s.clocksRun = true) :
    s.tick = ((s.meshHold.endOfClk s.workingCores).nextClk).startOfClk s.workingCores := by
  rw [State.tick, h, if_pos rfl]

/-- The count of clk and the clk of the pick rise by 1 in a clk, the clk of an open fell window too; the phase stays. -/
theorem State.tick_counts {s : State} (h : s.clocksRun = true) :
    s.tick.heddle.now = s.heddle.now + 1 ∧ s.tick.heddle.clk = s.heddle.clk + 1 ∧
      s.tick.heddle.winClk = s.heddle.winClk + (if s.heddle.phase = .window then 1 else 0) ∧
      s.tick.heddle.phase = s.heddle.phase := by
  have before : Clocked s (s.meshHold.endOfClk s.workingCores) :=
    State.endOfClk_clocked _ (State.meshHold_clocked (.refl s))
  have after : Clocked (s.meshHold.endOfClk s.workingCores).nextClk s.tick := by
    rw [State.tick_of_running h]
    exact State.startOfClk_clocked _ (.refl _)
  refine ⟨after.now.trans (congrArg (· + 1) before.now), after.clk.trans (congrArg (· + 1) before.clk), ?_,
    after.phase.trans before.phase⟩
  rw [after.winClk, ← before.winClk, ← before.phase]
  simp only [State.nextClk, State.modHeddle]
  split <;> rfl

/-- Settles O2: the events of a clk leave its counts as they are, and `nextClk` between them counts it.
That an empty queue is one clk is the model's choice (log entry 9). -/
theorem idleStepIsAClk : Obligations.IdleStepIsAClk := fun s hempty =>
  ⟨by rw [step, hempty], State.tick_of_stopped, State.tick_counts⟩

end Sys2Proof.Machine
end

section
/-! PROOFS. The weft counter (02 §2.1): its advance and slews in each ns, its reference, and its load (R45–R48, R54, R408). -/

namespace Sys2Proof.Machine

/-! ## One ns -/

/-- What is owed, with the enabled discipline's condition as a proposition (R48, R408). -/
theorem State.slewNext_eq (s : State) :
    s.slewNext = if s.heddle.slewOwed ≠ 0 then s.heddle.slewOwed
      else if bit (s.getReg (hdl 0x110)) 8 = true ∧ bit (s.getReg (hdl 0x110)) 0 = false then s.heddle.timeOwed else 0 := by
  simp only [State.slewNext, Bool.and_eq_true, Bool.not_eq_true']

/-- What the slew logic holds once d ns of the debt are settled (R46). -/
def Heddle.settled (h : Heddle) (d : Int) : Heddle :=
  if h.slewOwed = 0 then { h with timeOwed := h.timeOwed - d, slewWait := 65535 }
  else { h with slewOwed := h.slewOwed - d, slewWait := 65535 }

/-- A ns in which nothing is slewed advances the counter by 1. -/
theorem State.weftNs_of_no_slew {s : State} (h : s.slewNext = 0 ∨ s.heddle.slewWait ≠ 0) :
    s.weftNs = { s.setReg (hdl 0x00) (BitVec.ofNat 64 ((s.weft + 1) % 2 ^ 64)) with
      heddle := { s.heddle with slewWait := s.heddle.slewWait - 1 } } := by
  have hnot : ¬ (s.heddle.slewWait = 0 ∧ s.slewNext ≠ 0) := by tauto
  rw [State.weftNs]
  simp only [if_neg hnot]
  rfl

/-- A ns owed forward and due advances the counter by 2. -/
theorem State.weftNs_of_forward {s : State} (h : 0 < s.slewNext) (hdue : s.heddle.slewWait = 0) :
    s.weftNs = { s.setReg (hdl 0x00) (BitVec.ofNat 64 ((s.weft + 2) % 2 ^ 64)) with heddle := s.heddle.settled 1 } := by
  rw [State.weftNs]
  simp only [hdue, ne_eq, h.ne', not_false_eq_true, and_self, if_true, h]
  rfl

/-- A ns owed back and due leaves the counter where it stands. -/
theorem State.weftNs_of_back {s : State} (h : s.slewNext < 0) (hdue : s.heddle.slewWait = 0) :
    s.weftNs = { s.setReg (hdl 0x00) (BitVec.ofNat 64 s.weft) with heddle := s.heddle.settled (-1) } := by
  rw [State.weftNs]
  simp only [hdue, ne_eq, h.ne, not_false_eq_true, and_self, if_true, h.not_gt, if_false]
  rfl

/-- A ns changes no other register. -/
theorem State.weftNs_getReg_ne (s : State) {a : Nat} (h : a ≠ hdl 0x00) : s.weftNs.getReg a = s.getReg a := by
  unfold State.weftNs
  dsimp only
  split <;> exact State.setReg_getReg_ne s _ h

/-- A tick of a PLL that runs is one ns, which ends generation once RUN reads 0 and the pick in progress is over (R54). -/
theorem State.weftTick_of_runs {s : State} (h : s.weftRuns = true) :
    s.weftTick = if bit (s.weftNs.getReg (hdl 0x20)) 0 = false ∧ s.weftNs.pickOver = true then s.weftNs.endPicks
      else s.weftNs := by
  simp only [State.weftTick, h, Bool.not_true, Bool.false_eq_true, if_false, Bool.and_eq_true, Bool.not_eq_true']

/-- While RUN reads 1 a tick is one ns. -/
theorem State.weftTick_of_run {s : State} (h : s.weftRuns = true) (hrun : bit (s.getReg (hdl 0x20)) 0 = true) :
    s.weftTick = s.weftNs := by
  rw [State.weftTick_of_runs h, State.weftNs_getReg_ne s (by decide), hrun, if_neg fun hover => nomatch hover.1]

/-- Settles O23: one ns with no slew, forward or back; the tick that ends generation; the reference lost and back. What is
slewed first is the model's choice (log entry 51). -/
theorem weftCounterAdvances : Obligations.WeftCounterAdvances := by
  intro s
  refine ⟨fun hpll hrun => ?_, fun hpll hrun hover => ?_, fun href => ?_, fun err href => ?_⟩
  · rw [← State.slewNext_eq]
    have htick : exec .weftTick s = .next s.weftNs := congrArg _ (State.weftTick_of_run hpll hrun)
    rw [htick]
    exact ⟨fun h => congrArg _ (State.weftNs_of_no_slew h), fun h hdue => congrArg _ (State.weftNs_of_forward h hdue),
      fun h hdue => congrArg _ (State.weftNs_of_back h hdue)⟩
  · exact congrArg _ ((State.weftTick_of_runs hpll).trans (if_pos ⟨hrun, hover⟩))
  · exact congrArg _ (if_neg (by rw [href]; exact Bool.false_ne_true))
  · exact congrArg _ (if_neg (by rw [href]; exact Bool.false_ne_true))

/-! ## Its load (R11, R47) -/

/-- While ACTIVE reads 1, or without an answering Heddle die, a load is discarded. -/
theorem State.loadWeft_of_closed {s : State} (v : Nat) (h : s.answers .hdl = false ∨ s.active = true) : s.loadWeft v = s := by
  obtain h | h := h <;> simp only [State.loadWeft, h, Bool.not_false, Bool.true_or, Bool.or_true, if_true]

/-- A load not below the counter is taken. -/
theorem State.loadWeft_of_le {s : State} {v : Nat} (ha : s.answers .hdl = true) (hi : s.active = false) (h : s.weft ≤ v) :
    s.loadWeft v = (s.setReg (hdl 0x08) (BitVec.ofNat 64 v)).setReg (hdl 0x00) (BitVec.ofNat 64 v) := by
  simp only [State.loadWeft, ha, hi, Bool.not_true, Bool.or_self, Bool.false_eq_true, if_false, if_neg h.not_gt]
  rfl

/-- A load below the counter sets SET_BACK and leaves it. -/
theorem State.loadWeft_of_lt {s : State} {v : Nat} (ha : s.answers .hdl = true) (hi : s.active = false) (h : v < s.weft) :
    s.loadWeft v = s.modReg (hdl 0x10) fun x => putBit x 2 true := by
  simp only [State.loadWeft, ha, hi, Bool.not_true, Bool.or_self, Bool.false_eq_true, if_false, if_pos h]

/-- No load moves the counter back. -/
theorem State.weft_le_loadWeft (s : State) {v : Nat} (hv : v < 2 ^ 64) : s.weft ≤ (s.loadWeft v).weft := by
  by_cases hclosed : s.answers .hdl = false ∨ s.active = true
  · rw [State.loadWeft_of_closed v hclosed]
  · rw [not_or, Bool.not_eq_false, Bool.not_eq_true] at hclosed
    obtain ⟨ha, hi⟩ := hclosed
    obtain h | h := Nat.lt_or_ge v s.weft
    · rw [State.loadWeft_of_lt ha hi h, State.weft, State.weft, State.modReg_getReg, if_neg (by decide)]
    · rw [State.loadWeft_of_le ha hi h, State.weft, State.weft, State.setReg_getReg_self, BitVec.toNat_ofNat, Nat.mod_eq_of_lt hv]
      exact h

/-- Settles O24: the load taken, refused for its value, and discarded; each drops the pending low half. -/
theorem weftLoad : Obligations.WeftLoad := by
  intro s req hi
  have hexec : exec (.weftSetWrite req hi) s =
      .next ((s.loadWeft (hi.toNat * 2 ^ 32 + s.lowFor req (hdl 0x08))).clearLow req (hdl 0x08)) := rfl
  rw [hexec]
  refine ⟨rfl, fun ha => ⟨fun hidle hle => ?_, fun hidle hlt => ?_, fun hactive => ?_⟩, fun hlow => ⟨_, rfl, ?_⟩⟩
  · rw [State.loadWeft_of_le ha hidle hle]
  · rw [State.loadWeft_of_lt ha hidle hlt]
  · rw [State.loadWeft_of_closed _ (.inr hactive)]
  · have := hi.isLt
    exact s.weft_le_loadWeft (by omega)

end Sys2Proof.Machine
end

section
/-! PROOFS. The registers and commands of pick generation (02 §2.2–§2.4, 13 §13.6): the writes of the period and the reserve
(R50, R56, R57), pick starts and their end (R51, R54), a missing acknowledgement (R448), START and STOP of the program
(R433, R435). -/

namespace Sys2Proof.Machine

/-! ## Fields -/

/-- A field that is written to the foot of a register reads back. -/
theorem fld_ofNat_fld {n : Nat} (v : BitVec n) {hi : Nat} (h : hi < 64) : fld (BitVec.ofNat 64 (fld v hi 0)) hi 0 = fld v hi 0 := by
  have hpow : 2 ^ (hi + 1) ∣ 2 ^ 64 := Nat.pow_dvd_pow 2 h
  simp only [fld, BitVec.toNat_ofNat, pow_zero, Nat.div_one, Nat.sub_zero, Nat.mod_mod_of_dvd _ hpow, Nat.mod_mod]

/-- A field below the one that is changed stays. -/
theorem fld_putFld_of_lt {n : Nat} (v : BitVec n) {hi lo top : Nat} (x : Nat) (h : top < lo) :
    fld (putFld v hi lo x) top 0 = fld v top 0 := by
  simp only [fld, pow_zero, Nat.div_one, Nat.sub_zero]
  refine Nat.eq_of_testBit_eq fun i => ?_
  simp only [Nat.testBit_mod_two_pow, BitVec.testBit_toNat]
  by_cases hbelow : i < top + 1
  · have hlo : ¬ i ≥ lo := by omega
    simp only [putFld, BitVec.getLsbD_or, BitVec.getLsbD_and, BitVec.getLsbD_not, BitVec.getLsbD_ofNat, Nat.testBit_mul_two_pow,
      hlo, decide_false, Bool.false_and, Bool.and_false, Bool.not_false, Bool.and_true, Bool.or_false]
    cases hv : v.getLsbD i
    · simp
    · simp [BitVec.lt_of_getLsbD hv]
  · simp only [hbelow, decide_false, Bool.false_and]

/-! ## Writes of HDL_PICK_PERIOD and HDL_PICK_RESERVE -/

/-- Settles O25: the block is idle and the value is legal, or the write is discarded. -/
theorem pickPeriod : Obligations.PickPeriod := by
  intro s v ha
  have hexec : exec (.pickPeriodWrite v) s = .next (s.periodWrite v) := rfl
  rw [hexec, State.periodWrite, ha]
  refine ⟨fun hidle hle => ⟨?_, ?_⟩, fun h => ?_⟩
  · rw [hidle, decide_eq_false hle.not_gt]
    rfl
  · rw [State.period, State.setReg_getReg_self, fld_ofNat_fld v (by decide)]
  · obtain hactive | hlt := h
    · rw [hactive]
      rfl
    · rw [decide_eq_true hlt, Bool.or_true, if_pos rfl]

/-- The budget of R56 is none exactly where less than 1 is left. -/
theorem budgetOf_isNone (p f r : Nat) (ssc : Bool) :
    (budgetOf p f ssc r).isNone = decide ((if ssc then p * f * 995 / 1000 else p * f) < 1024 + r + 1) := by
  unfold budgetOf
  generalize (if ssc then p * f * 995 / 1000 else p * f) = total
  by_cases h : 1024 + r + 1 ≤ total
  · rw [if_pos h, decide_eq_false h.not_gt]
    rfl
  · rw [if_neg h, decide_eq_true (not_le.1 h)]
    rfl

/-- Settles O26: the block is idle and both bounds hold, or the write is discarded. -/
theorem pickReserve : Obligations.PickReserve := by
  intro s v ha
  have hexec : exec (.pickReserveWrite v) s = .next (s.reserveWrite v) := rfl
  have hmin : minReserve s.period s.fcore = 256 + (s.period * s.fcore + 65535) / 65536 := rfl
  rw [hexec, State.reserveWrite]
  simp only [ha, budgetOf_isNone, hmin]
  refine ⟨fun hidle hleast htotal => ?_, fun h => ?_⟩
  · rw [hidle, decide_eq_false hleast.not_gt, decide_eq_false htotal.not_gt]
    rfl
  · have hrefused : (!true || s.active || decide (fld v 23 0 < 256 + (s.period * s.fcore + 65535) / 65536) ||
        decide ((if bit (s.getReg (hdl 0x44)) 16 then s.period * s.fcore * 995 / 1000 else s.period * s.fcore) <
          1024 + fld v 23 0 + 1)) = true := by
      simpa only [Bool.not_true, Bool.false_or, Bool.or_eq_true, decide_eq_true_eq, or_assoc] using h
    rw [if_pos hrefused]

/-! ## Pick starts -/

/-- At its instant, the first or the next, a pick starts while RUN reads 1, and generation ends while it reads 0. -/
theorem State.pickStart_at_instant {s : State}
    (h : (s.heddle.phase = .waiting ∧ s.pickInstant 0 ≤ s.weft) ∨
      (s.heddle.phase = .window ∧ s.heddle.decided = true ∧ s.pickInstant s.heddle.k ≤ s.weft)) :
    s.pickStart = if bit (s.getReg (hdl 0x20)) 0 then s.startPick else s.endPicks := by
  rw [State.pickStart]
  refine if_pos ?_
  obtain ⟨hphase, hinstant⟩ | ⟨hphase, hdecided, hinstant⟩ := h
  · rw [hphase, decide_eq_true hinstant]
    rfl
  · rw [State.pickOver, State.pickEndAt, hphase, hdecided, decide_eq_true hinstant]
    rfl

/-- RUN falls; with no pick in progress generation ends. -/
theorem State.pickStop_of_run {s : State} (ha : s.answers .hdl = true) (hrun : bit (s.getReg (hdl 0x20)) 0 = true) :
    s.pickStop = if s.heddle.phase = .waiting then (s.setReg (hdl 0x20) 0).endPicks else s.setReg (hdl 0x20) 0 := by
  simp only [State.pickStop, State.dropRun, ha, hrun, Bool.not_true, Bool.false_eq_true, if_false, if_true, beq_iff_eq]

/-- A running core that has not acknowledged a pick start after 256 clk halts. -/
theorem State.ackTimeout_of_late {s : State} {g : CoreId} (hrun : s.runs g = true) (hphase : s.heddle.phase ≠ .stopped)
    (hk : s.heddle.k ≠ 0) (hclk : 256 ≤ s.clk) : s.ackTimeout g = s.halt g 0x83 0 0 0 := by
  simp only [State.ackTimeout, hrun, bne_iff_ne.2 hphase, bne_iff_ne.2 hk, decide_eq_true hclk, Bool.and_self, if_true]

/-! ## START and STOP of the program -/

/-- A change of the program's state is written and logged. -/
theorem State.setProg_of_ne {s : State} {st : Nat} (h : fld (s.getReg (hdl 0x234)) 1 0 ≠ st) :
    s.setProg st = (s.setReg (hdl 0x234) (putFld (s.getReg (hdl 0x234)) 1 0 st)).logHdl 0x0003 0
      (putFld (s.getReg (hdl 0x234)) 1 0 st) := if_neg h

/-- STATE of a program fills the low two of the three bits that the model reads it from. -/
theorem State.progState_low {s : State} {n : Nat} (hn : n < 4) (h : s.progState = n) : fld (s.getReg (hdl 0x234)) 1 0 = n := by
  simp only [State.progState, fld, pow_zero, Nat.div_one, Nat.sub_zero] at h ⊢
  rw [← Nat.mod_mod_of_dvd _ (show 2 ^ (1 + 1) ∣ 2 ^ (2 + 1) by decide), h]
  exact Nat.mod_eq_of_lt hn

/-- START at a program that is not IDLE is refused with 1. -/
theorem State.progStart_of_busy {s : State} (ha : s.answers .hdl = true) (hrec : s.power.recovery = false)
    (hsafe : fld (s.getReg (hdl 0x1000)) 1 0 ≠ 2) (hbusy : s.progState ≠ 0) : s.progStart = s.setRefuse 1 := by
  simp only [State.progStart, hrec, ha, beq_eq_false_iff_ne.2 hsafe, hbusy, Bool.false_eq_true, Bool.not_true, Bool.or_self, if_false,
    ne_eq, not_false_eq_true, if_true]

/-- START with no condition against it arms the program. -/
theorem State.progStart_of_idle {s : State} (ha : s.answers .hdl = true) (hrec : s.power.recovery = false)
    (hsafe : fld (s.getReg (hdl 0x1000)) 1 0 ≠ 2) (hidle : s.progState = 0) (hpicks : s.active = false)
    (hboot : bit (s.getReg (tpl 0x204)) 0 = false) (hmap : ∃ m < 8, s.getReg (hdl (0x200 + 4 * m)) ≠ 0) :
    s.progStart = (s.setRefuse 0).setProg 1 := by
  have hsome : ((List.range 8).all fun m => s.getReg (hdl (0x200 + 4 * m)) == 0) = false := by
    obtain ⟨m, hm, hne⟩ := hmap
    exact List.all_eq_false.2 ⟨m, List.mem_range.2 hm, by rwa [beq_iff_eq]⟩
  simp only [State.progStart, hrec, ha, beq_eq_false_iff_ne.2 hsafe, hidle, hpicks, hboot, hsome, Bool.false_eq_true, Bool.not_true,
    Bool.or_self, Bool.false_and, if_false, ne_eq, not_true_eq_false]

/-- An armed program's record: REFUSE clears and STATE becomes ARMED. -/
theorem State.setProg_after_refuse {s : State} (h : s.progState = 0) :
    (s.setRefuse 0).setProg 1 =
      ((s.modReg (hdl 0x234) fun v => putFld v 7 4 0).setReg (hdl 0x234) (putFld (putFld (s.getReg (hdl 0x234)) 7 4 0) 1 0 1)).logHdl
        0x0003 0 (putFld (putFld (s.getReg (hdl 0x234)) 7 4 0) 1 0 1) := by
  have hreg : (s.setRefuse 0).getReg (hdl 0x234) = putFld (s.getReg (hdl 0x234)) 7 4 0 := State.setReg_getReg_self _ _ _
  rw [State.setProg_of_ne, hreg]
  · rfl
  · rw [hreg, fld_putFld_of_lt _ _ (by decide), State.progState_low (by decide) h]
    decide

/-- STOP of an ARMED program. -/
theorem State.progStop_of_armed {s : State} (ha : s.answers .hdl = true) (h : s.progState = 1) : s.progStop = s.setProg 0 := by
  simp only [State.progStop, State.progStopNow, ha, h, if_true]

/-- STOP of a RUNNING program while a pick is in progress. -/
theorem State.progStop_of_running {s : State} (ha : s.answers .hdl = true) (h : s.progState = 2)
    (hphase : s.heddle.phase = .issuing ∨ s.heddle.phase = .window) : s.progStop = s.setProg 3 := by
  obtain hphase | hphase := hphase <;>
  · simp only [State.progStop, State.progStopNow, ha, h, hphase, if_true]
    rfl

/-- Settles O30: the instants, RUN, the acknowledgement, START and STOP, each by its command's law. The end of generation at
a STOP that finds it waiting is the model's choice (log entry 53). -/
theorem pickGenerationStartsAndStops : Obligations.PickGenerationStartsAndStops := by
  intro s
  refine ⟨fun h => congrArg _ (State.pickStart_at_instant h), fun ha hrun => ⟨fun hphase => ?_, fun hphase => ?_⟩,
    fun g hrun hphase hk hclk => congrArg _ (State.ackTimeout_of_late hrun hphase hk hclk),
    fun ha hrec hsafe hidle hpicks hboot hmap => ?_, fun ha => ⟨fun hrec hsafe hbusy => ?_, fun harmed => ?_, fun hrun hphase => ?_⟩⟩
  · exact congrArg _ ((State.pickStop_of_run ha hrun).trans (if_neg hphase))
  · exact congrArg _ ((State.pickStop_of_run ha hrun).trans (if_pos hphase))
  · exact congrArg _ ((State.progStart_of_idle ha hrec hsafe hidle hpicks hboot hmap).trans (State.setProg_after_refuse hidle))
  · exact congrArg _ (State.progStart_of_busy ha hrec hsafe hbusy)
  · exact congrArg _ ((State.progStop_of_armed ha harmed).trans
      (State.setProg_of_ne (by rw [State.progState_low (by decide) harmed]; decide)))
  · exact congrArg _ ((State.progStop_of_running ha hrun hphase).trans
      (State.setProg_of_ne (by rw [State.progState_low (by decide) hrun]; decide)))

end Sys2Proof.Machine
end

section
/-! PROOFS. A fell left unresolved (02 §2.10, R96, R97): which writes of HDL_FELL_RESOLVE are discarded, and what the others do. -/

namespace Sys2Proof.Machine

/-- The outcome of an unresolved pick is known: HDL_FELL_LAST and the history record take it, the record with the pick's X
(R97, R274). -/
def State.fateKnown (s : State) (id out : Nat) (x : BitVec 256) : State :=
  { s.setReg (hdl 0x58) (BitVec.ofNat 64 (id + 2 ^ 48 * out)) with
    heddle := { s.heddle with unresolved := false }
    temple := { s.temple with histQueue := s.temple.histQueue.map fun (r : HistRec) =>
      if r.outcome == 0 then { r with outcome := BitVec.ofNat 8 out, x := x } else r } }

/-- The outcome does not touch the package number. -/
theorem State.fateKnown_pkg (s : State) (id out : Nat) (x : BitVec 256) : (s.fateKnown id out x).pkg = s.pkg :=
  congrArg (fld · 9 0) (State.setReg_getReg_ne s _ (by decide))

/-- Nor the knots of the unresolved pick. -/
theorem State.fateKnown_heldSnap (s : State) (id out : Nat) (x : BitVec 256) :
    (s.fateKnown id out x).heddle.heldSnap = s.heddle.heldSnap := rfl

/-- The model's three updates for an outcome, as one. -/
theorem State.resolveHist_eq_fateKnown (s : State) (id out : Nat) :
    ((s.setReg (hdl 0x58) (BitVec.ofNat 64 (id + 2 ^ 48 * out))).modHeddle fun h => { h with unresolved := false }).resolveHist out =
      s.fateKnown id out (if out = 1 then s.heddle.heldX else 0) := rfl

/-- A write that does not match the unresolved fell, or names neither COMMIT nor DROP, is discarded. -/
theorem State.fellResolve_of_mismatch {s : State} {v : Dword}
    (h : fld (s.getReg (hdl 0x58)) 49 48 ≠ 3 ∨ fld v 47 0 ≠ fld (s.getReg (hdl 0x58)) 47 0 ∨ fld v 49 48 = 0 ∨ fld v 49 48 = 3) :
    s.fellResolve v = s := by
  refine if_pos ?_
  obtain h | h | h | h := h <;>
    simp [h]

/-- A write that matches applies its outcome at once and logs it. -/
theorem State.fellResolve_of_match {s : State} {v : Dword} {out : Nat} (ha : s.answers .hdl = true)
    (hlast : fld (s.getReg (hdl 0x58)) 49 48 = 3) (hid : fld v 47 0 = fld (s.getReg (hdl 0x58)) 47 0) (hout : fld v 49 48 = out)
    (hlegal : out = 1 ∨ out = 2) :
    s.fellResolve v =
      (if out = 1 then (s.fateKnown (fld v 47 0) out (if out = 1 then s.heddle.heldX else 0)).resolveCommit (fld v 47 0)
      else (s.fateKnown (fld v 47 0) out (if out = 1 then s.heddle.heldX else 0)).resolveDrop (fld v 47 0)).logHdl 0x0004 0
        (BitVec.ofNat 64 (fld v 47 0 + 2 ^ 48 * out)) := by
  have hopen : (!s.answers .hdl || fld (s.getReg (hdl 0x58)) 49 48 != 3 || fld v 47 0 != fld (s.getReg (hdl 0x58)) 47 0 ||
      !(fld v 49 48 == 1 || fld v 49 48 == 2)) = false := by
    simpa [ha, hlast, hid, hout, or_iff_not_imp_left] using hlegal
  unfold State.fellResolve
  simp only [hopen, Bool.false_eq_true, if_false, State.resolveHist_eq_fateKnown]
  rw [← hid, hout]

/-- A matching write with outcome COMMIT. -/
theorem State.fellResolve_commit {s : State} {v : Dword} (ha : s.answers .hdl = true)
    (hlast : fld (s.getReg (hdl 0x58)) 49 48 = 3) (hid : fld v 47 0 = fld (s.getReg (hdl 0x58)) 47 0) (hout : fld v 49 48 = 1) :
    s.fellResolve v = ((s.fateKnown (fld v 47 0) 1 s.heddle.heldX).resolveCommit (fld v 47 0)).logHdl 0x0004 0
      (BitVec.ofNat 64 (fld v 47 0 + 2 ^ 48 * 1)) := by
  rw [State.fellResolve_of_match ha hlast hid hout (.inl rfl), if_pos rfl, if_pos rfl]

/-- A matching write with outcome DROP. -/
theorem State.fellResolve_drop {s : State} {v : Dword} (ha : s.answers .hdl = true)
    (hlast : fld (s.getReg (hdl 0x58)) 49 48 = 3) (hid : fld v 47 0 = fld (s.getReg (hdl 0x58)) 47 0) (hout : fld v 49 48 = 2) :
    s.fellResolve v = ((s.fateKnown (fld v 47 0) 2 0).resolveDrop (fld v 47 0)).logHdl 0x0004 0
      (BitVec.ofNat 64 (fld v 47 0 + 2 ^ 48 * 2)) := by
  rw [State.fellResolve_of_match ha hlast hid hout (.inr rfl), if_neg (by decide), if_neg (by decide)]

/-- COMMIT of an unresolved fell: it counts, and every working core drains what it held (R83, R96). -/
theorem State.resolveCommit_eq (s : State) (id : Nat) :
    s.resolveCommit id =
      (let k := s.modReg (hdl 0x50) fun n => n + 1
       let t : State := { k with heddle := { k.heddle with drainPick := id } }
       t.workingCores.foldl (fun (t : State) g =>
         (t.ccount g 0x704 (t.core g).heldResidue).modCore g fun c => { c with
           drainFell := c.heldFell, drainLeft := some (fullest c.heldFell + 16), heldFell := [], heldResidue := 0 }) t) := rfl

/-- DROP of an unresolved fell: bolts, knots and cores return to their state before it, and it is recorded (R86, R96). -/
theorem State.resolveDrop_eq (s : State) (id : Nat) :
    s.resolveDrop id =
      (let t := (s.resolveBolts id).restoreKnots s.heddle.heldSnap
       let t1 : State := { t with heddle := { t.heddle with knotSnap := t.heddle.heldSnap } }
       (t1.listed.foldl (fun (t : State) g => t.modCore g fun c => { c with
         heldFell := [], heldResidue := 0, sbuf := if c.captured then c.sbuf else [], squashing := c.run }) t1).reportFell
           id 0x0C s.pkg 0x100 0 0 0 none) := rfl

/-- Settles O31: the writes that do not match, and the two outcomes of one that does. The cause, voter and count that a DROP
records are the model's choice (log entry 49). -/
theorem unresolvedFellKeepsUntilResolved : Obligations.UnresolvedFellKeepsUntilResolved := by
  intro s v ha
  have hexec : exec (.fellResolve v) s = .next (s.fellResolve v) := rfl
  rw [hexec]
  refine ⟨fun h => congrArg _ (State.fellResolve_of_mismatch h), fun hlast hid => ⟨fun hout => ?_, fun hout => ?_⟩⟩
  · rw [State.fellResolve_commit ha hlast hid hout, State.resolveCommit_eq, State.fateKnown]
  · rw [State.fellResolve_drop ha hlast hid hout, State.resolveDrop_eq, State.fateKnown_pkg, State.fateKnown_heldSnap,
      State.fateKnown]

end Sys2Proof.Machine
end

section
/-! PROOFS. The vote on a pick and its decision (02 §2.6–§2.9, 09 §9.9, 12 §12.10): the ledger check, the opening of the fell
window, the decision deadline, the ends of drains and squashes, and the control records of the vote tree. -/

namespace Sys2Proof.Machine

open Sys2Proof.Claims

/-! ## The ledger check (R79, R307, R310) -/

/-- Every voter is done, now or when the window opened. -/
theorem State.allDone_of_open {s : State}
    (h : (s.heddle.phase = .issuing ∧ s.lateVoters = []) ∨ (s.heddle.phase = .window ∧ s.heddle.onTime = true)) :
    s.allDone = true := by
  obtain ⟨hphase, hlate⟩ | ⟨hphase, hon⟩ := h
  · rw [State.allDone, hphase, hlate, if_neg (by decide)]
    rfl
  · rw [State.allDone, hphase, if_pos rfl, hon]

section
variable {s : State} (hdone : s.allDone = true) (hvote : s.heddle.vote = .none)
  (hdigests : (([0, 1] : List Td).all fun td => (s.boltsOf td fun b =>
    b.phase == .landed && s.curPick == some b.hdr.pickId && b.digest.isNone).isEmpty) = true)
include hdone hvote hdigests

/-- Ledgers that balance make the package READY. -/
theorem State.ledgerCheck_of_balanced (h : s.ledgerFails = []) :
    s.ledgerCheck = (s.modHeddle fun h => { h with vote := .ready }).tryReady := by
  simp only [State.ledgerCheck, hdone, hvote, hdigests, h, bne_self_eq_false, Bool.not_true, Bool.or_self, Bool.false_eq_true,
    if_false]

/-- A ledger that fails is recorded, counted and logged, and makes the package LATE. -/
theorem State.ledgerCheck_of_failed {f : LedgerFail} {more : List LedgerFail} (h : s.ledgerFails = f :: more) :
    s.ledgerCheck = (((s.setReg (hdl 0x300) f.word).count (hdl 0x308) 1).logOvs 0xB001 (min (more.length + 1) 0xFFFF)
      f.word).sendLate 0x02 0x100 0 0 0 := by
  simp only [State.ledgerCheck, hdone, hvote, hdigests, h, bne_self_eq_false, Bool.not_true, Bool.or_self, Bool.false_eq_true,
    if_false]

end

/-! ## The opening of the fell window (R43, R79, R82) -/

/-- What a package does once its window is open: with a vote that it has, it commits what it holds; without one it waits for
its ledgers, or votes LATE. -/
def State.atOpening (s : State) : State :=
  match s.heddle.vote with
  | .none => if s.lateVoters = [] then s.modHeddle fun h => { h with onTime := true } else s.voteLate
  | .ready => if s.heddle.held && !s.heddle.decided then s.commit s.heddle.readyX else s
  | .late => s

/-- The window opens at its instant: bolts that have not landed are late, the Tally channels take the opening, and the
package acts on it. -/
theorem State.windowOpen_of_due {s : State} (hphase : s.heddle.phase = .issuing) (hdue : s.windowAt ≤ s.weft) :
    s.windowOpen = (((s.modHeddle fun h => { h with phase := .window, winClk := 0 }).outsLate).tallyWindow).atOpening := by
  have hopens : (s.heddle.phase != .issuing || decide (s.weft < s.windowAt)) = false := by
    rw [hphase, decide_eq_false hdue.not_gt]
    rfl
  unfold State.windowOpen
  simp only [hopens, Bool.false_eq_true, if_false]
  generalize State.tallyWindow _ = u
  rfl

/-- A package with no vote and no late voter waits for its ledgers. -/
theorem State.atOpening_on_time {s : State} (hvote : s.heddle.vote = .none) (hlate : s.lateVoters = []) :
    s.atOpening = s.modHeddle fun h => { h with onTime := true } := by
  simp only [State.atOpening, hvote, hlate, if_true]

/-- A package with no vote and a late voter sends LATE for the one it names. -/
theorem State.atOpening_late {s : State} {code v : Nat} (hvote : s.heddle.vote = .none) (hlate : s.lateVoters ≠ [])
    (hnamed : namedVoter s.lateVoters = some (code, v)) :
    s.atOpening = if v < 0x100 then s.sendLate code v (lateCount s.lateVoters) (s.oldestCard (BitVec.ofNat 8 v))
        (s.creg (BitVec.ofNat 8 v) 0x108).toNat
      else s.sendLate code v (lateCount s.lateVoters) 0 0 := by
  simp only [State.atOpening, hvote, hlate, if_false, State.voteLate, hnamed]

/-- A COMMIT that is held applies. -/
theorem State.atOpening_held {s : State} (hvote : s.heddle.vote = .ready) (hheld : s.heddle.held = true)
    (hopen : s.heddle.decided = false) : s.atOpening = s.commit s.heddle.readyX := by
  simp only [State.atOpening, hvote, hheld, hopen, Bool.not_false, Bool.and_self, if_true]

/-- A package that has voted LATE does no more. -/
theorem State.atOpening_voted {s : State} (hvote : s.heddle.vote = .late) : s.atOpening = s := by
  simp only [State.atOpening, hvote]

/-- The ledger check and the opening of the window, each in its cases. -/
theorem State.ledgersAndWindow (s : State) : LedgersAndWindow s := by
  refine ⟨fun hdone hvote hdigests => ⟨fun h => ?_, fun f more h => ?_⟩, fun hphase hdue => ?_⟩
  · exact congrArg _ (State.ledgerCheck_of_balanced (State.allDone_of_open hdone) hvote hdigests h)
  · exact congrArg _ (State.ledgerCheck_of_failed (State.allDone_of_open hdone) hvote hdigests h)
  · have hexec : exec .fellWindowOpen s = .next s.windowOpen := rfl
    rw [hexec, State.windowOpen_of_due hphase hdue]
    generalize State.tallyWindow _ = u
    exact ⟨fun hvote hlate => congrArg _ (State.atOpening_on_time hvote hlate),
      fun code v hvote hlate hnamed => congrArg _ (State.atOpening_late hvote hlate hnamed),
      fun hvote hheld hopen => congrArg _ (State.atOpening_held hvote hheld hopen),
      fun hvote => congrArg _ (State.atOpening_voted hvote)⟩

/-! ## The decision deadline (R80, R94, R412) -/

/-- The first package of the domain from which no READY has come. -/
theorem find?_absent {l : List Nat} {p : Nat} (hp : p < 1024) (hnot : p ∉ l) (hleast : ∀ r < p, r ∈ l) :
    (List.range 1024).find? (fun p => !l.contains p) = some p := by
  rw [List.find?_range_eq_some]
  refine ⟨?_, List.mem_range.2 hp, fun r hr => ?_⟩
  · simpa using hnot
  · simpa using hleast r hr

section
variable {s : State} (hphase : s.heddle.phase = .window) (hopen : s.heddle.decided = false) (hvote : s.heddle.vote = .ready)
  (hsync : s.overseer.resync = false) (hdue : s.windowAt + s.deadline ≤ s.weft)
include hphase hopen hvote hsync hdue

/-- A READY package that is no root and has no decision at the deadline is left unresolved. -/
theorem State.decisionDeadline_of_child (hroot : s.isRoot = false) : s.decisionDeadline = s.unresolve := by
  simp only [State.decisionDeadline, hphase, hopen, hvote, hsync, hdue.not_gt, hroot]
  rfl

/-- A READY root drops the pick for the first absent package. -/
theorem State.decisionDeadline_of_root (hroot : s.isRoot = true) {p : Nat} (hp : p < 1024)
    (hnot : p ∉ s.pkg :: s.heddle.childReady.flatMap (·.pkgs)) (hleast : ∀ r < p, r ∈ s.pkg :: s.heddle.childReady.flatMap (·.pkgs)) :
    s.decisionDeadline = (s.toChildren (s.decisionRec 2 { code := 0x0D, pkg := BitVec.ofNat 10 p, voter := 0 } 0)).drop
      0x0D p 0 0 0 0 := by
  simp only [State.decisionDeadline, hphase, hopen, hvote, hsync, hdue.not_gt, hroot, find?_absent hp hnot hleast]
  rfl

end

/-! ## Control records (R80, R88, R412–R414) -/

/-- The first control record that waits on a port is taken by the command of its kind. -/
theorem State.takeCtrl_of_front {s : State} {p : PortId} {b : List Byte} {q : List (List Byte)} (h : (s.port p).ctrlIn = b :: q)
    {kind : Nat} (hkind : leAt b 0 1 = kind) :
    s.takeCtrl p kind = some (b, s.setPort p { s.port p with ctrlIn := q }) := by
  simp only [State.takeCtrl, h, hkind, if_true]

section
variable {s : State} {p : PortId} {b : List Byte} {q : List (List Byte)} (hfront : (s.port p).ctrlIn = b :: q)
include hfront

/-- A READY of the pick joins the children's. -/
theorem State.readyRecord_joins (hkind : leAt b 0 1 = 2) (hpick : leAt b 1 6 = s.pickId.toNat) (hcur : s.curPick.isSome = true)
    (hchild : s.children.contains p = true) (hnew : ∀ c ∈ s.heddle.childReady, c.port ≠ p) :
    s.readyRecord p = ((s.setPort p { s.port p with ctrlIn := q }).modHeddle fun h => { h with childReady := h.childReady ++
      [{ port := p, x := digestWord (slice b 7 32), pkgs := bitmapPkgs (slice b 39 128) }] }).tryReady := by
  have hfirst : (s.heddle.childReady.any fun c => c.port == p) = false := by
    simpa only [List.any_eq_false, beq_iff_eq] using hnew
  simp only [State.readyRecord, State.takeCtrl_of_front hfront hkind, hpick, hcur, hchild, hfirst]
  rfl

/-- A package that is no root passes a LATE up. -/
theorem State.lateRecord_of_child (hkind : leAt b 0 1 = 3) (hroot : s.isRoot = false) :
    s.lateRecord p = (s.setPort p { s.port p with ctrlIn := q }).sendCtrl s.upPort b := by
  simp only [State.lateRecord, State.takeCtrl_of_front hfront hkind, hroot]
  rfl

/-- The root drops the pick for the least of the LATE votes that it holds. -/
theorem State.lateRecord_of_root (hkind : leAt b 0 1 = 3) (hroot : s.isRoot = true) (hpick : leAt b 1 6 = s.pickId.toNat)
    (hcur : s.curPick.isSome = true) (hopen : s.heddle.decided = false) :
    s.lateRecord p =
      (let s1 := s.setPort p { s.port p with ctrlIn := q }
       let w := leastDrop { code := BitVec.ofNat 8 (leAt b 7 1), pkg := BitVec.ofNat 10 (leAt b 8 2)
                            voter := BitVec.ofNat 10 (leAt b 10 2) } s1.lateHeld
       (s1.toChildren (s.decisionRec 2 w 0)).drop 0x0E w.pkg.toNat w.voter.toNat 0 0 0) := by
  have hvote : s.lateVote b = some { code := BitVec.ofNat 8 (leAt b 7 1), pkg := BitVec.ofNat 10 (leAt b 8 2)
                                     voter := BitVec.ofNat 10 (leAt b 10 2) } := if_pos ⟨hkind, hpick⟩
  simp only [State.lateRecord, State.takeCtrl_of_front hfront hkind, hroot, hvote, hcur, hopen]
  rfl

/-- A decision goes to every child; that of another pick, or of one decided, does no more. -/
theorem State.decisionRecord_of_other (hkind : leAt b 0 1 = 4)
    (h : leAt b 1 6 ≠ s.pickId.toNat ∨ s.curPick = none ∨ s.heddle.decided = true) :
    s.decisionRecord p = (s.setPort p { s.port p with ctrlIn := q }).toChildren b := by
  simp only [State.decisionRecord, State.takeCtrl_of_front hfront hkind]
  exact if_pos (by simpa only [Option.isNone_iff_eq_none] using h)

/-- A decision of the pick in progress, by its outcome. -/
theorem State.decisionRecord_of_pick (hkind : leAt b 0 1 = 4) (hpick : leAt b 1 6 = s.pickId.toNat)
    (hcur : s.curPick.isSome = true) (hopen : s.heddle.decided = false) :
    s.decisionRecord p =
      (let s2 := (s.setPort p { s.port p with ctrlIn := q }).toChildren b
       if leAt b 7 1 = 1 then (if s.heddle.vote = .ready then s2.decideCommit (digestWord (slice b 13 32)) else s2)
       else if s.overseer.resync = true then s2 else s2.drop 0x0E (leAt b 9 2) (leAt b 11 2) 0 0 0) := by
  have hthis : ¬ (leAt b 1 6 ≠ s.pickId.toNat ∨ s.curPick.isNone = true ∨ s.heddle.decided = true) := by
    simp [hpick, hopen, Option.isSome_iff_ne_none.1 hcur]
  simp only [State.decisionRecord, State.takeCtrl_of_front hfront hkind, if_neg hthis, beq_iff_eq]

end

/-- What the control record at the front of a port does, by its kind. -/
theorem State.voteRecords {s : State} {p : PortId} {b : List Byte} {q : List (List Byte)} (h : (s.port p).ctrlIn = b :: q) :
    VoteRecords s p b q := by
  refine ⟨fun hkind ⟨hpick, hcur⟩ hchild hnew => ?_, fun hkind hroot => ?_, fun hkind hroot ⟨hpick, hcur⟩ hopen => ?_,
    fun hkind => ⟨fun ⟨hpick, hcur⟩ hopen hout hvote => ?_, fun ⟨hpick, hcur⟩ hopen hout hsync => ?_, fun hother => ?_⟩⟩
  · exact congrArg _ (State.readyRecord_joins h hkind hpick hcur hchild hnew)
  · exact congrArg _ (State.lateRecord_of_child h hkind hroot)
  · exact congrArg _ (State.lateRecord_of_root h hkind hroot hpick hcur hopen)
  · exact congrArg _ ((State.decisionRecord_of_pick h hkind hpick hcur hopen).trans ((if_pos hout).trans (if_pos hvote)))
  · exact congrArg _ ((State.decisionRecord_of_pick h hkind hpick hcur hopen).trans ((if_neg hout).trans
      (if_neg (by rw [hsync]; exact Bool.false_ne_true))))
  · exact congrArg _ (State.decisionRecord_of_other h hkind hother)

/-! ## Drains and squashes (R83, R86) -/

/-- A squash whose undo has ended brings the core to its selection point. -/
theorem State.squashEnd_of_undone {s : State} {g : CoreId} (h : (s.core g).squashing = true) (hundo : (s.core g).undo = none) :
    s.squashEnd g = (s.modCore g fun c => { c with squashing := false }).selectDue g :=
  if_pos (by rw [h, hundo]; rfl)

/-- Settles O32: the ledgers and the window, the deadline, drains and squashes, and the control records. The voter that a
root names for an absent package is the model's choice (log entry 48). -/
theorem votesDecideTheFell : Obligations.VotesDecideTheFell := by
  intro s
  refine ⟨s.ledgersAndWindow, fun hphase hopen hvote hsync hdue => ⟨fun hroot => ?_, fun hroot p hp hnot hleast => ?_⟩,
    fun g hdrained => ?_, fun g hsquash hundo => ?_, fun p b q hfront => State.voteRecords hfront⟩
  · exact congrArg _ (State.decisionDeadline_of_child hphase hopen hvote hsync hdue hroot)
  · exact congrArg _ (State.decisionDeadline_of_root hphase hopen hvote hsync hdue hroot hp hnot hleast)
  · exact congrArg _ (if_pos hdrained)
  · exact congrArg _ (State.squashEnd_of_undone hsquash hundo)

end Sys2Proof.Machine
end

section
/-! PROOFS. The front end of a core (03 §3.2–§3.5): the fetch of the next card with its faults (R99, R100, R116), decode with
what holds it and what each card makes of the front end (R101–R122, R162), and the opening of a loop (R114). -/

namespace Sys2Proof.Machine

/-! ## Fetch -/

/-- A front end that runs and holds no card reaches the tests of the fetch: the store's end, the variant's end, parity. -/
theorem State.cardFetch_of_empty {s : State} {g : CoreId} (hseq : s.sequencing g = true) (hrun : (s.core g).front.run = true)
    (hended : (s.core g).front.ended = false) (hfetched : (s.core g).front.fetched = none)
    (hloop : (s.core g).front.loopCard = none) :
    s.cardFetch g =
      (let f := (s.core g).front
       if 8192 ≤ f.idx then s.halt g 0x07 0 0x7FFC0 f.soff
       else if f.entry + f.len ≤ f.idx then s.halt g 0x07 0 (64 * f.idx) f.soff
       else if (List.range 16).any fun w => s.badWord (auxBase g + 64 * f.idx + 4 * w) then
         (s.ccount g 0x320 1).halt g 0x12 0 (64 * f.idx) f.soff
       else s.modCore g fun c => { c with front := { c.front with fetched := some f.idx } }) := by
  simp [State.cardFetch, hseq, hrun, hended, hfetched, hloop]

/-! ## Decode -/

/-- What a decoded card does: a fault halts, a parity error is a source error, the rest moves the front end (R114, R119, R134,
R162). -/
def State.takeDecoded (s : State) (g : CoreId) (idx : Nat) : Decoded → State
  | .fault code slot soff => s.halt g code slot (64 * idx) soff
  | .source off => s.descSource g off
  | .loop l => s.modCore g fun c => { c with front := { c.front with fetched := none, loopCard := some l } }
  | .endpick => s.modCore g fun c => { c with front := { c.front with fetched := none, ended := true } }
  | .inst i f => s.modCore g fun c => { c with front := f.advance, window := c.window ++ [i] }

section
variable {s : State} {g : CoreId} {idx : Nat} (hseq : s.sequencing g = true) (hrun : (s.core g).front.run = true)
  (hfetched : (s.core g).front.fetched = some idx)
include hseq hrun hfetched

/-- A full window or a full queue that the card needs holds decode. -/
theorem State.cardDecode_of_full (hfull : Config.windowCap ≤ (s.core g).window.length ∨
      (s.core g).queueFull (BitVec.ofNat 64 (leAt (s.bytes (auxBase g + 64 * idx) 64) 0 8)) = true) :
    s.cardDecode g = s := by
  simp only [State.cardDecode, hfetched, hseq, hrun]
  refine if_pos ?_
  obtain hwindow | hqueue := hfull
  · simp [hwindow]
  · simp [hqueue]

/-- With room for it, a fetched card decodes. -/
theorem State.cardDecode_of_room (hwindow : (s.core g).window.length < Config.windowCap)
    (hqueue : (s.core g).queueFull (BitVec.ofNat 64 (leAt (s.bytes (auxBase g + 64 * idx) 64) 0 8)) = false) :
    s.cardDecode g = s.takeDecoded g idx (s.decodeCard g (s.bytes (auxBase g + 64 * idx) 64)) := by
  simp only [State.cardDecode, hfetched, hseq, hrun, decide_eq_false hwindow.not_ge, hqueue, Bool.not_true, Bool.or_self,
    Bool.false_eq_true, if_false]
  rfl

end

/-- A descriptor parity error in a pick that is open is a source error of it, and stops the front end. -/
theorem State.descSource_of_open {s : State} {g : CoreId} (off : Nat) (hdeck : s.deckPick = true)
    (hopen : s.heddle.decided = false) :
    s.descSource g off = (s.sourceError g (BitVec.ofNat 64 (off + 2 ^ 30 * 3 + 2 ^ 32 * 15 + 2 ^ 63))).modCore g
      fun c => { c with front := { c.front with run := false } } :=
  if_pos (by simp [hdeck, hopen])

/-! ## Loops -/

/-- A LOOP card that waits is consumed: its body is the innermost open one. -/
theorem State.loopOpen_of_card {s : State} {g : CoreId} {l : LoopFrame} (h : (s.core g).front.loopCard = some l) :
    s.loopOpen g = s.modCore g fun c =>
      { c with front := { c.front with loopCard := none, idx := l.first, loops := l :: c.front.loops, sawPlain := true } } := by
  simp only [State.loopOpen, h]

/-- Settles O33: each test of the fetch in its order, decode by what the card is, and the opening of a loop. -/
theorem cardFetchAndDecode : Obligations.CardFetchAndDecode := by
  intro s g
  refine ⟨fun hseq hrun hended hfetched hloop => ?_, fun idx hfetched hseq hrun => ⟨fun hfull => ?_, fun hwindow hqueue => ?_⟩,
    fun l hloop => congrArg _ (State.loopOpen_of_card hloop)⟩
  · have hfetch := State.cardFetch_of_empty hseq hrun hended hfetched hloop
    refine ⟨fun hstore => ?_, fun hstore hvariant => ?_, fun hstore hvariant => ⟨fun ⟨w, hw, hbad⟩ => ?_, fun hgood => ?_⟩⟩
    · exact congrArg _ (hfetch.trans (if_pos hstore))
    · exact congrArg _ (hfetch.trans ((if_neg hstore.not_ge).trans (if_pos hvariant)))
    · exact congrArg _ (hfetch.trans ((if_neg hstore.not_ge).trans ((if_neg hvariant.not_ge).trans
        (if_pos (List.any_eq_true.2 ⟨w, List.mem_range.2 hw, hbad⟩)))))
    · exact congrArg _ (hfetch.trans ((if_neg hstore.not_ge).trans ((if_neg hvariant.not_ge).trans
        (if_neg fun hany => by
          obtain ⟨w, hw, hbad⟩ := List.any_eq_true.1 hany
          exact Bool.false_ne_true ((hgood w (List.mem_range.1 hw)).symm.trans hbad)))))
  · exact congrArg _ (State.cardDecode_of_full hseq hrun hfetched hfull)
  · have hdecode := State.cardDecode_of_room hseq hrun hfetched hwindow hqueue
    refine ⟨fun code slot soff h => ?_, fun l h => ?_, fun h => ?_, fun off h hdeck hopen => ?_, fun i f h => ?_⟩ <;>
      rw [h] at hdecode
    · exact congrArg _ hdecode
    · exact congrArg _ hdecode
    · exact congrArg _ hdecode
    · exact congrArg _ (hdecode.trans (State.descSource_of_open off hdeck hopen))
    · exact congrArg _ hdecode

end Sys2Proof.Machine
end

section
/-! PROOFS. The issue stage (03 §3.3): the issue of the head card (R109, R110, R113), the retirement of a live card (R112), the
end of the deck (R336) and the capture of a core (08 R277). -/

namespace Sys2Proof.Machine

/-! ## Issue -/

/-- The core once its head card has issued: it leaves the window, and its commands join the unretired ones (R109, R113). -/
def State.issuedCore (s : State) (g : CoreId) (i : Inst) : Core :=
  let c := s.core g
  let new := s.newCmds g i
  { c with
    window := c.window.drop 1
    lastIssue := some (s.clk, i.step)
    cmds := c.cmds ++ new.filter fun x => !c.cmds.any fun y => y.step == x.step && y.slot == x.slot
    live := if new = [] then c.live else c.live ++ [(i.step, i.card)]
    stepInst := c.stepAfter i new
    capStop := c.capStop || (c.firstPick && bit (s.creg g 0x130) 32 && fld (s.creg g 0x130) 31 0 == i.step) }

/-- The head card with no cause that holds it issues: its core, and CORE_STEP, CORE_SLIP and the lifetime counter. -/
theorem State.issueCard_of_free {s : State} {g : CoreId} {i : Inst} (h : s.headInst g = some (i, [])) :
    s.issueCard g = (((s.setCore g (s.issuedCore g i)).setCreg g 0x108 (BitVec.ofNat 64 (i.step + 1))).setCreg g 0x10C
      (BitVec.ofNat 64 (min (s.clk - i.soff) 0xFFFFFFFF))).setCreg g 0x110
        (BitVec.ofNat 64 ((fld (s.creg g 0x110) 47 0 + 1) % 2 ^ 48)) := by
  simp only [State.issueCard, h]
  rfl

/-- A card of which no load has started issues one command for each occupied slot. -/
theorem State.newCmds_of_not_started {s : State} {g : CoreId} {i : Inst} (h : i.started = false) :
    s.newCmds g i = i.slots.map fun x =>
      { step := i.step, slot := x.1, op := x.2, card := i.card, phase := .issued, at' := s.now } :=
  if_neg (by simp [h])

/-! ## Retirement -/

/-- The core once a live card has retired: its commands move to those that others see to end in the next clk (R110, R112). -/
def Core.retired (c : Core) (x : Nat × Nat) : Core :=
  let live := c.live.erase x
  { c with
    cmds := c.cmds.filter fun y => y.step != x.1
    gone := c.gone ++ c.cmds.filter fun y => y.step == x.1
    live := live
    stepInst := c.stepInst.map fun si => { si with ended := si.ended || (match si.last with
      | some l => !(live.any fun y => si.first ≤ y.1 && y.1 ≤ l)
      | none => false) } }

/-- The first live card whose commands are done retires. -/
theorem State.cardRetire_of_done {s : State} {g : CoreId} {x : Nat × Nat}
    (h : (s.core g).live.find? (fun x => (s.core g).instDone s.now x.1) = some x) :
    s.cardRetire g = s.setCore g ((s.core g).retired x) := by
  simp only [State.cardRetire, h]
  rfl

/-! ## The end of the deck, and the capture -/

/-- A deck of which nothing is left is done. -/
theorem Core.deckDone_of_empty {c : Core} (now : Nat) (hended : c.front.ended = true) (hwindow : c.window = [])
    (hlive : c.live = []) (hcmds : c.cmds = []) (huse : c.inUse = []) : c.deckDone now = true := by
  rw [Core.deckDone, hended, hwindow, hlive, hcmds, huse]
  rfl

/-- A core that works on the pick and whose deck is done is done. -/
theorem State.endPick_of_deckDone {s : State} {g : CoreId} (hdeck : s.inDeck g = true) (hlive : (s.core g).live = [])
    (hdone : (s.core g).deckDone s.now = true) : s.endPick g = s.modCore g fun c => { c with done := true } :=
  if_pos (by simp only [hdeck, hlive, hdone, decide_true, Bool.and_self])

/-- A core that stopped at its capture step is captured once nothing of the pick is left. -/
theorem State.captureHit_of_stopped {s : State} {g : CoreId} (hrun : (s.core g).run = true) (hstop : (s.core g).capStop = true)
    (hfirst : (s.core g).firstPick = true) (hkept : s.dropped = false) (hnew : (s.core g).captured = false)
    (hlive : (s.core g).live = []) (hcmds : (s.core g).cmds = []) (hsbuf : (s.core g).sbuf = []) :
    s.captureHit g = ((s.setCreg g 0x138 (putBit (s.creg g 0x138) 0 true)).modCore g fun c =>
      { c with captured := true, capGen := s.heddle.gen }).logCore g 0x0002
        (BitVec.ofNat 64 (fld (s.creg g 0x130) 31 0)) :=
  if_pos (by simp only [hrun, hstop, hfirst, hkept, hnew, hlive, hcmds, hsbuf, Bool.not_false, decide_true, Bool.and_self])

/-- Settles O34: the issue of the head, the retirement of the first live card that is done, the deck's end, the capture. -/
theorem cardsIssueAndRetireInOrder : Obligations.CardsIssueAndRetireInOrder := by
  intro s g
  refine ⟨fun i hhead => ?_, fun x hfirst => ?_, fun hdeck hended hwindow hlive hcmds huse => ?_,
    fun hrun hstop hfirst hkept hnew hlive hcmds hsbuf => ?_⟩
  · exact ⟨s.issuedCore g i, congrArg _ (State.issueCard_of_free hhead), rfl, rfl, rfl, State.newCmds_of_not_started, rfl, rfl,
      rfl, rfl⟩
  · exact ⟨(s.core g).retired x, congrArg _ (State.cardRetire_of_done hfirst), rfl, rfl, rfl, rfl, rfl⟩
  · exact congrArg _ (State.endPick_of_deckDone hdeck hlive (Core.deckDone_of_empty _ hended hwindow hlive hcmds huse))
  · exact congrArg _ (State.captureHit_of_stopped hrun hstop hfirst hkept hnew hlive hcmds hsbuf)

end Sys2Proof.Machine
end

section
/-! PROOFS. The selection of the next variant (03 §3.6, R123, R124), and the prologue that it confirms, undoes or replaces (§3.7,
R125–R131). -/

namespace Sys2Proof.Machine

/-! ## The selector (R123, R124) -/

/-- The read of a variant's shed table entry: the selection goes on, or the core halts where the entry is not valid. -/
def State.readVariant (s : State) (g : CoreId) (v : Nat) : State :=
  if !bit (s.shedEntry g v) 31 then (s.halt g 0x10 0 0 0).modCore g fun c => { c with sel := .idle }
  else s.modCore g fun c => { c with sel := .reading v s.now }

/-- A valid entry is read. -/
theorem State.readVariant_of_valid {s : State} {g : CoreId} {v : Nat} (h : bit (s.shedEntry g v) 31 = true) :
    s.readVariant g v = s.modCore g fun c => { c with sel := .reading v s.now } := if_neg (by simp [h])

/-- An entry that is not valid halts the core. -/
theorem State.readVariant_of_invalid {s : State} {g : CoreId} {v : Nat} (h : bit (s.shedEntry g v) 31 = false) :
    s.readVariant g v = (s.halt g 0x10 0 0 0).modCore g fun c => { c with sel := .idle } := if_pos (by simp [h])

section
variable {s : State} {g : CoreId} (hdue : (s.core g).sel = .due) (hseq : s.sequencing g = true)
include hdue hseq

/-- Without DYN the static variant is selected. -/
theorem State.shedSelect_static (hdyn : bit (s.creg g 0x200) 31 = false) :
    s.shedSelect g = s.readVariant g (fld (s.creg g 0x200) 30 28) := by
  simp [State.shedSelect, hdue, hseq, hdyn, State.readVariant]

/-- A selector word outside carry halts the core. -/
theorem State.shedSelect_outside_carry (hdyn : bit (s.creg g 0x200) 31 = true)
    (hcarry : s.carryBit g (4 * fld (s.creg g 0x200) 22 2 / 65536) = false) :
    s.shedSelect g = (s.halt g 0x10 0 0 0).modCore g fun c => { c with sel := .idle } := by
  simp [State.shedSelect, hdue, hseq, hdyn, hcarry]

/-- A selector word in carry, with no parity error, names the variant. -/
theorem State.shedSelect_dynamic {off : Nat} (hoff : off = 4 * fld (s.creg g 0x200) 22 2) (hdyn : bit (s.creg g 0x200) 31 = true)
    (hcarry : s.carryBit g (off / 65536) = true) (hgood : s.badOf g [off, off + 1, off + 2, off + 3] = []) :
    s.shedSelect g = s.readVariant g
      (leNat (s.beamBytes g [off, off + 1, off + 2, off + 3]) / 2 ^ fld (s.creg g 0x200) 27 23 % 8) := by
  subst hoff
  simp [State.shedSelect, hdue, hseq, hdyn, hcarry, hgood, State.readVariant]

end

/-! ## The selection made (R129–R131) -/

/-- The selector's read ends 4 clk after it began. -/
theorem State.selectorReadDone_of_due {s : State} {g : CoreId} {v t : Nat} (hsel : (s.core g).sel = .reading v t)
    (hdue : t + 4 ≤ s.now) : s.selectorReadDone g = s.selected g v := by
  simp only [State.selectorReadDone, hsel, hdue, if_true]

/-- The selected variant recorded: the core's own record, and CUR and PRED in a pick that runs it (R125). -/
def State.recordVariant (s : State) (g : CoreId) (v : Nat) : State :=
  let s1 := s.modCore g fun c => { c with sel := .idle, nextVariant := v }
  if s.deckPick then s1.curVariant g v else s1

/-- A prologue of the selected variant is confirmed. -/
theorem State.selected_hit {s : State} {g : CoreId} {v : Nat} (hspec : (s.core g).specRun = true)
    (hv : (s.core g).nextVariant = v) :
    s.selected g v = ((s.recordVariant g v).modCore g fun c => { c with
      specRun := false
      proRun := !s.deckPick
      window := c.window.map fun i => { i with spec := false }
      track := c.track.map fun x => (x.1, { x.2 with tr := x.2.tr.map fun t =>
        if t.pro then { t with confirmed := true } else t }) }).setSpec g false :=
  if_pos (by simp [hspec, hv])

/-- A prologue of another variant is undone. -/
theorem State.selected_miss {s : State} {g : CoreId} {v : Nat} (hspec : (s.core g).specRun = true)
    (hv : (s.core g).nextVariant ≠ v) :
    s.selected g v = (s.recordVariant g v).undoStart g (s.frontFor g v) v :=
  (if_neg (by simp [hv])).trans (if_pos hspec)

/-- With no prologue the front end turns to the selected variant. -/
theorem State.selected_fresh {s : State} {g : CoreId} {v : Nat} (hspec : (s.core g).specRun = false) :
    s.selected g v = (s.recordVariant g v).modCore g fun c => { c with
      front := s.frontFor g v, window := [], proRun := !s.deckPick && c.undo.isNone } :=
  (if_neg (by simp [hspec])).trans (if_neg (by simp [hspec]))

/-! ## Undo and prologue (R127, R130) -/

/-- An awaited acknowledgement that has crossed the mesh both ways leaves the waiting list; the last ends the undo. -/
theorem State.undoCancelAck_of_crossed {s : State} {g src : CoreId} {u : Undo} (hundo : (s.core g).undo = some u)
    (hsrc : src ∈ u.waiting) (hcrossed : u.start + 2 * meshLat g src ≤ s.now) :
    s.undoCancelAck g src =
      (let left := u.waiting.filter fun h => h != src
       let s1 := s.modCore g fun c => { c with undo := some { u with waiting := left } }
       if left = [] then s1.undoEnds g else s1) := by
  have hshorter : (u.waiting.filter fun h => h != src).length < u.waiting.length :=
    List.length_filter_lt_length_iff_exists.2 ⟨src, hsrc, by simp⟩
  simp only [State.undoCancelAck, hundo]
  exact if_neg (not_or.2 ⟨hshorter.ne, hcrossed.not_gt⟩)

/-- After READY in the fell window a done core starts the prologue of the predicted variant. -/
theorem State.prologueStart_of_ready {s : State} {g : CoreId} {v : Nat} (hv : v = s.predicted g (fld (s.creg g 0x204) 2 0))
    (hseq : s.sequencing g = true) (hphase : s.heddle.phase = .window) (hvote : s.heddle.vote = .ready)
    (hopen : s.heddle.decided = false) (hspec : (s.core g).specRun = false) (hsel : (s.core g).sel = .idle)
    (hundo : (s.core g).undo = none) (hfree : (s.core g).captured = false) (hdone : (s.core g).done = true)
    (hvalid : bit (s.shedEntry g v) 31 = true) :
    s.prologueStart g = (((s.modCore g fun c => { c with
      specRun := true, proRun := false, nextVariant := v, window := [], front := s.frontFor g v }).setCreg g 0x204
        (putFld (s.creg g 0x204) 6 4 v)).setSpec g true) := by
  subst hv
  refine if_pos ?_
  rw [hseq, hphase, hvote, hopen, hspec, hsel, hundo, hfree, hdone, hvalid]
  rfl

/-- Settles O35: the selector in its cases, the outcome of a selection, an acknowledged cancel, and the start of a prologue.
That the read takes its 4 clk also with EN or DYN = 0 is the model's choice (log entry 54). -/
theorem variantSelectionAndPrologue : Obligations.VariantSelectionAndPrologue := by
  intro s g
  refine ⟨fun hdue hseq => ⟨fun hdyn hvalid => ?_, fun hdyn hinvalid => ?_, fun hdyn hcarry => ?_,
      fun hdyn hcarry hgood hvalid => ?_⟩,
    fun v t hsel hdue => ?_, fun u src hundo hsrc hcrossed => congrArg _ (State.undoCancelAck_of_crossed hundo hsrc hcrossed),
    fun hseq hphase hvote hopen hspec hsel hundo hfree hdone hvalid => ?_⟩
  · exact congrArg _ ((State.shedSelect_static hdue hseq hdyn).trans (State.readVariant_of_valid hvalid))
  · exact congrArg _ ((State.shedSelect_static hdue hseq hdyn).trans (State.readVariant_of_invalid hinvalid))
  · exact congrArg _ (State.shedSelect_outside_carry hdue hseq hdyn hcarry)
  · exact congrArg _ ((State.shedSelect_dynamic hdue hseq rfl hdyn hcarry hgood).trans (State.readVariant_of_valid hvalid))
  · have hselected := State.selectorReadDone_of_due hsel hdue
    refine ⟨fun hspec hv => ?_, fun hspec hv => ?_, fun hspec => ?_⟩
    · exact congrArg _ (hselected.trans (State.selected_hit hspec hv))
    · exact congrArg _ (hselected.trans (State.selected_miss hspec hv))
    · exact congrArg _ (hselected.trans (State.selected_fresh hspec))
  · exact congrArg _ (State.prologueStart_of_ready rfl hseq hphase hvote hopen hspec hsel hundo hfree hdone hvalid)

end Sys2Proof.Machine
end

section
/-! PROOFS. The weave array (chapter 5): the acceptance of a pass (R184–R187, R195) and of a drain (R192, R193), the entries that a
pass stores in a clk (R189, R190), and the groups that gate and ungate (R194, R195). -/

namespace Sys2Proof.Machine

/-! ## Acceptance of a pass (R184, R195)

An accepted pass gives the core a new array state, moves its command on, and counts a wake. -/

/-- The oldest command of slot 1 is a WV_PASS: it is accepted. -/
theorem State.wvPass_of_next {s : State} {g : CoreId} {x : Cmd} (h : s.nextOp g 1 0x20 = some x) :
    s.wvPass g = s.wvPassWith g x := by
  simp only [State.wvPass, h]

/-- Where the oldest command of slot 1 is no WV_PASS, none is accepted. -/
theorem State.wvPass_of_none {s : State} {g : CoreId} (h : s.nextOp g 1 0x20 = none) : s.wvPass g = s := by
  simp only [State.wvPass, h]

/-- The core of a command whose phase is set. -/
theorem State.setCmd_core_self (s : State) (g : CoreId) (step slot : Nat) (ph : CmdPhase) :
    (s.setCmd g step slot ph).core g = { s.core g with cmds := (s.core g).cmds.map fun x =>
      if x.step == step && x.slot == slot then { x with phase := ph } else x } :=
  s.modCore_core_self g _

section
variable (s : State) (g : CoreId) (w : Weave) (step slot o n : Nat) (ph : CmdPhase)

/-- The core has the new array state, and otherwise changes in its commands only. -/
theorem State.accepted_core :
    (((s.modCore g fun c => { c with weave := w }).setCmd g step slot ph).ccount g o n).core g =
      { (s.setCmd g step slot ph).core g with weave := w } := by
  rw [State.ccount_core, State.setCmd_core_self, State.setCmd_core_self, State.modCore_core_self]

/-- No memory changes. -/
theorem State.accepted_mem :
    (((s.modCore g fun c => { c with weave := w }).setCmd g step slot ph).ccount g o n).mem = s.mem :=
  State.ccount_mem _ g o n

/-- The counter rises as it would alone. -/
theorem State.accepted_creg :
    (((s.modCore g fun c => { c with weave := w }).setCmd g step slot ph).ccount g o n).creg g o =
      (s.ccount g o n).creg g o := by
  rw [State.creg, State.creg, State.ccount_getReg, State.ccount_getReg]
  rfl

end

/-! ## The times of a pass (R187, R195) -/

/-- The array's own clk stays at a wake. -/
@[simp] theorem Weave.wake_clk (w : Weave) (a s : Nat) : (w.wake a s).1.clk = w.clk := by
  unfold Weave.wake
  split <;> rfl

/-- The ungating clk of a pass: none with no group gated, else the end of all groups' ramps. -/
@[simp] theorem Weave.wake_ungating (w : Weave) (a s : Nat) :
    (w.wake a s).2 = if w.gated = 0 then 0 else a + w.gated * s := by
  unfold Weave.wake
  split <;> rfl

/-! ## Drains (R192, R193) -/

/-- The drain of an accepted WV_DRAIN: its first row is read in the next clk of the array. -/
def State.drainOf (s : State) (g : CoreId) (x : Cmd) : DrainTime :=
  { step := x.step, op := x.op, row := fld x.op 30 20, rows := (s.desc g (fld x.op 19 8)).sz 1 + 1, done := 0
    next := (s.core g).weave.clk + 1 }

/-- The oldest command of slot 1 is a WV_DRAIN: it is accepted, and its run joins those of the core. -/
theorem State.wvDrain_of_next {s : State} {g : CoreId} {x : Cmd} (h : s.nextOp g 1 0x21 = some x) :
    s.wvDrain g = (s.setCmd g x.step 1 .waiting).modCore g fun c => { c with
      weave := { c.weave with drain := some (s.drainOf g x) }
      runs := c.runs ++ [{ owner := .cmd x.step 1, chain := false, arr := true, start := s.now, steps := [] }] } := by
  simp only [State.wvDrain, h, State.drainOf]

/-- Where the oldest command of slot 1 is no WV_DRAIN, none is accepted. -/
theorem State.wvDrain_of_none {s : State} {g : CoreId} (h : s.nextOp g 1 0x21 = none) : s.wvDrain g = s := by
  simp only [State.wvDrain, h]

/-! ## Take-up entries (R176) -/

/-- Parity changes no bytes. -/
theorem State.setPar_bytes (s : State) (a : Nat) (bad : Bool) (b n : Nat) : (s.setPar a bad).bytes b n = s.bytes b n :=
  List.map_congr_left fun i _ => s.setPar_byte a bad (b + i)

/-- An entry just written reads its 32 low bits. -/
theorem State.takeEntryBits_putTake_self (s : State) (g : CoreId) (r j v : Nat) :
    (s.putTake g r j v).takeEntryBits g r j = v % 2 ^ 32 := by
  have hbytes := s.setBytes_bytes_self (takeAt g r j) (leBytes 4 v)
  rw [leBytes_length] at hbytes
  rw [State.takeEntryBits, State.putTake, State.setPar_bytes, hbytes, leNat_leBytes]
  rfl

/-- An entry of another row stays; a row has 128 columns. -/
theorem State.takeEntryBits_putTake_ne (s : State) (g : CoreId) {r q j k : Nat} (v : Nat) (hrow : r ≠ q) (hj : j < 128)
    (hk : k < 128) : (s.putTake g q k v).takeEntryBits g r j = s.takeEntryBits g r j := by
  rw [State.takeEntryBits, State.putTake, State.setPar_bytes, State.setBytes_bytes_ne, ← State.takeEntryBits]
  rw [leBytes_length, takeAt, takeAt]
  omega

/-! ## The entries that a pass stores in a clk (R189, R190) -/

/-- A pass stores one entry: the column result, or with ACC the entry plus it. -/
def State.storeEntry (s : State) (g : CoreId) (p : PassTime) (e : Nat × Nat) : State :=
  let r := (p.cols.getD e.1 []).getD e.2 0
  s.putTake g (p.row + e.1) e.2
    (if p.acc then bits32 (fadd (num32 (s.takeEntryBits g (p.row + e.1) e.2)) (num32 r)) else r)

/-- The entries of a clk are stored one after the other. -/
theorem State.passStore_eq_foldl (s : State) (g : CoreId) (p : PassTime) (clk : Nat) :
    s.passStore g p clk = (p.entries clk).foldl (fun s e => s.storeEntry g p e) s := rfl

/-- A pass writes column j of vector v in one clk. -/
theorem PassTime.mem_entries {p : PassTime} {clk v j : Nat} :
    (v, j) ∈ p.entries clk ↔ v < p.m ∧ j < p.n ∧ clk = p.d + p.s * v + 131 + j := by
  simp only [PassTime.entries, List.mem_filterMap, List.mem_range, Option.ite_none_right_eq_some, Option.some.injEq,
    Prod.mk.injEq]
  constructor
  · rintro ⟨_, hv, ⟨hle, hlt⟩, rfl, rfl⟩
    exact ⟨hv, hlt, by omega⟩
  · rintro ⟨hv, hj, rfl⟩
    exact ⟨v, hv, by omega, rfl, by omega⟩

/-- In a clk a pass writes at most one entry of each vector. -/
theorem PassTime.entries_pairwise_ne (p : PassTime) (clk : Nat) : (p.entries clk).Pairwise fun a b => a.1 ≠ b.1 := by
  refine List.pairwise_filterMap.2 (List.nodup_range.imp fun {v w} hvw a ha b hb => ?_)
  obtain ⟨-, ha⟩ := Option.ite_none_right_eq_some.1 ha
  obtain ⟨-, hb⟩ := Option.ite_none_right_eq_some.1 hb
  rw [← Option.some.inj ha, ← Option.some.inj hb]
  exact hvw

/-- Entries of other vectors leave an entry as it was. -/
theorem State.takeEntryBits_foldl_storeEntry (g : CoreId) (p : PassTime) {v j : Nat} (hj : j < 128) (l : List (Nat × Nat))
    (hl : ∀ e ∈ l, e.1 ≠ v ∧ e.2 < 128) (s : State) :
    (l.foldl (fun s e => s.storeEntry g p e) s).takeEntryBits g (p.row + v) j = s.takeEntryBits g (p.row + v) j := by
  induction l generalizing s with
  | nil => rfl
  | cons e l ih =>
    obtain ⟨hv, hcol⟩ := hl e List.mem_cons_self
    rw [List.foldl_cons, ih (fun x hx => hl x (List.mem_cons_of_mem _ hx))]
    exact s.takeEntryBits_putTake_ne g _ (by omega) hj hcol

/-- An entry of the clk, once the pass has stored all of them: it was written once, from what it held before. -/
theorem State.takeEntryBits_passStore (s : State) (g : CoreId) (p : PassTime) {v j : Nat} (hv : v < p.m) (hj : j < p.n)
    (hn : p.n ≤ 128) :
    (s.passStore g p (p.d + p.s * v + 131 + j)).takeEntryBits g (p.row + v) j =
      (if p.acc then bits32 (fadd (num32 (s.takeEntryBits g (p.row + v) j)) (num32 ((p.cols.getD v []).getD j 0)))
        else (p.cols.getD v []).getD j 0) % 2 ^ 32 := by
  have hpair := p.entries_pairwise_ne (p.d + p.s * v + 131 + j)
  have hcol : ∀ e ∈ p.entries (p.d + p.s * v + 131 + j), e.2 < 128 := fun e he =>
    (PassTime.mem_entries.1 he).2.1.trans_le hn
  rw [State.passStore_eq_foldl]
  obtain ⟨before, after, hsplit⟩ := List.append_of_mem (PassTime.mem_entries.2 ⟨hv, hj, rfl⟩)
  rw [hsplit] at hpair hcol ⊢
  obtain ⟨-, hafter, hbefore⟩ := List.pairwise_append.1 hpair
  have hb : ∀ e ∈ before, e.1 ≠ v ∧ e.2 < 128 := fun e he =>
    ⟨hbefore e he _ List.mem_cons_self, hcol e (List.mem_append_left _ he)⟩
  have ha : ∀ e ∈ after, e.1 ≠ v ∧ e.2 < 128 := fun e he =>
    ⟨((List.pairwise_cons.1 hafter).1 e he).symm, hcol e (List.mem_append_right _ (List.mem_cons_of_mem _ he))⟩
  rw [List.foldl_append, List.foldl_cons, State.takeEntryBits_foldl_storeEntry g p (hj.trans_le hn) after ha,
    State.storeEntry, State.takeEntryBits_putTake_self, State.takeEntryBits_foldl_storeEntry g p (hj.trans_le hn) before hb]

/-! ## The activity ramp (R194, R195) -/

section
variable {s : State} {g : CoreId}

/-- A group gates when it is due: the first once the idle count has reached GATE, a later one S clk after the one before. -/
theorem State.gateGroup_of_due
    (hdue : (s.core g).weave.gateSeq = .idle ∧ fld (s.creg g 0x400) 15 4 ≠ 0 ∧
        fld (s.creg g 0x400) 15 4 ≤ (s.core g).weave.idleClk ∨ (s.core g).weave.gateSeq = .gating 0)
    (hroom : (s.core g).weave.gated < 16) (hfree : (s.core g).weave.busy (s.core g).weave.clk = false) :
    s.gateGroup g = s.modCore g fun c => { c with weave :=
      { (s.core g).weave with gated := (s.core g).weave.gated + 1, gateSeq := .gating (s.rampS g) } } := by
  unfold State.gateGroup
  obtain ⟨hseq, hgate, hidle⟩ | hseq := hdue
  · simp [hseq, hgate, hidle, hroom, hfree]
  · simp [hseq, hroom, hfree]

/-- With all groups gated, or a pass held, none gates. -/
theorem State.gateGroup_of_held (h : 16 ≤ (s.core g).weave.gated ∨ (s.core g).weave.busy (s.core g).weave.clk = true) :
    s.gateGroup g = s := by
  unfold State.gateGroup
  obtain hfull | hbusy := h
  · simp [hfull.not_gt]
  · simp [hbusy]

/-- While the array ungates, a group ungates when its S clk are over; the last one ends the sequence. -/
theorem State.ungateGroup_of_due (h : (s.core g).weave.gateSeq = .ungating 0) :
    s.ungateGroup g = s.modCore g fun c => { c with weave :=
      { (s.core g).weave with
        gated := (s.core g).weave.gated - 1
        gateSeq := if (s.core g).weave.gated ≤ 1 then .idle else .ungating (s.rampS g)
        idleClk := 0 } } := by
  simp only [State.ungateGroup, h]

/-- An array that does not ungate keeps its groups. -/
theorem State.ungateGroup_of_not_ungating (h : ∀ n, (s.core g).weave.gateSeq ≠ .ungating n) : s.ungateGroup g = s := by
  simp only [State.ungateGroup]
  split
  · next hseq => exact absurd hseq (h 0)
  · rfl

end

/-- Settles O41: the acceptance of a pass and of a drain, each entry that a clk stores, a stall, and the groups that gate and
ungate. That the column results are those of the acceptance is the model's choice (log entry 23). -/
theorem weavePassesDrainsAndGates : Obligations.WeavePassesDrainsAndGates := by
  intro s g
  refine ⟨fun x h => ⟨s.wvPassWith g x, congrArg _ (State.wvPass_of_next h), ?_⟩,
    fun h => congrArg _ (State.wvPass_of_none h),
    fun x h => ⟨_, congrArg Host.Outcome.next (State.wvDrain_of_next h), rfl, ?_, ?_⟩,
    fun h => congrArg _ (State.wvDrain_of_none h),
    fun p v j hv hj hn => s.takeEntryBits_passStore g p hv hj hn, fun hstall => if_pos hstall, fun _ _ => rfl,
    fun hdue hroom hfree => congrArg _ (State.gateGroup_of_due hdue hroom hfree), fun hseq hmore => ?_, fun hseq hlast => ?_,
    fun hheld => congrArg _ (State.gateGroup_of_held hheld), fun hseq => congrArg _ (State.ungateGroup_of_not_ungating hseq)⟩
  · unfold State.wvPassWith
    rw [State.accepted_core, State.accepted_mem, State.accepted_creg, Weave.wake_ungating]
    refine ⟨rfl, Weave.wake_clk _ _ _, rfl, rfl, ?_, rfl⟩
    cases bit x.op 45 <;> rfl
  · rw [State.modCore_core_self, State.setCmd_core_self]
    rfl
  · rw [State.modCore_core_self, State.setCmd_core_self]
  · refine congrArg _ ((State.ungateGroup_of_due hseq).trans ?_)
    rw [if_neg hmore.not_ge]
    rfl
  · refine congrArg _ ((State.ungateGroup_of_due hseq).trans ?_)
    rw [if_pos hlast.le, hlast]

end Sys2Proof.Machine
end

section
/-! PROOFS. The elements of the Batten commands on INT32 operands without SAT (06 §6.2, R214, R215): exact integer results taken
modulo 2^32. -/

namespace Sys2Proof.Machine

/-! ## Two's complement codes -/

/-- A two's complement value is its code modulo 2^n. -/
theorem signed_modEq (n v : Nat) : signed n v ≡ v [ZMOD 2 ^ n] := by
  unfold signed
  split
  · rfl
  · exact Int.sub_emod_right _ _

/-- The low 32 bits of an integer are those of a natural number that is equal to it modulo 2^32. -/
theorem w32_of_modEq {v : Int} {m : Nat} (h : v ≡ m [ZMOD 2 ^ 32]) : w32 v = m % 2 ^ 32 := by
  rw [w32, unsigned, h.eq]
  omega

/-- The low 32 bits of an integer are a 32-bit code. -/
theorem w32_lt (v : Int) : w32 v < 2 ^ 32 := by
  rw [w32, unsigned]
  omega

/-- The code of a value is the code it was read from. -/
theorem w32_signed {v : Nat} (hv : v < 2 ^ 32) : w32 (signed 32 v) = v :=
  (w32_of_modEq (signed_modEq 32 v)).trans (Nat.mod_eq_of_lt hv)

/-! ## One element (R214, R215) -/

section
variable (sr : Option Nat) (k k1 : Nat) {a b : Nat}

/-- The INT32 value of a 32-bit code. -/
theorem intOf_int32 (ha : a < 2 ^ 32) : intOf 0xD a = signed 32 a :=
  congrArg (signed 32) (Nat.mod_eq_of_lt ha)

/-- An operation other than the conversion and the comparison writes the low 32 bits of its exact result, with no flag. -/
theorem btElem_int32 {op : Nat} (hcvt : op ≠ 0x4A) (hcmp : op ≠ 0x4C) (ha : a < 2 ^ 32) (hb : b < 2 ^ 32) :
    btElem op 0xD 0xD 0xD false sr k k1 a b =
      ⟨w32 (btInt op (signed 32 a) (signed 32 b) (signed 32 k) (signed 32 k1)), false, false, false⟩ := by
  have hwrap : ∀ v : Int, unsigned (intBits 0xD) (signed 32 (w32 v)) = w32 v := fun v => w32_signed (w32_lt v)
  unfold btElem
  rw [if_neg hcvt, if_neg hcmp, intOf_int32 ha, intOf_int32 hb]
  by_cases hbits : 0x4D ≤ op ∧ op ≤ 0x4F
  · simp only [hbits]; rfl
  · simp [isFloat, hbits, intOut, hwrap]

/-- The comparison writes 1 or 0, with no flag. -/
theorem btElem_cmpgt_int32 (ha : a < 2 ^ 32) (hb : b < 2 ^ 32) :
    btElem 0x4C 0xD 0xD 0xD false sr k k1 a b = ⟨if signed 32 b < signed 32 a then 1 else 0, false, false, false⟩ := by
  rw [← intOf_int32 ha, ← intOf_int32 hb]
  by_cases h : intOf 0xD b < intOf 0xD a <;> simp [btElem, isFloat, intOut, h] <;> rfl

end

/-- Settles O37: the exact results are taken modulo 2^32, where a value is its code. -/
theorem battenIntegerElements : Obligations.BattenIntegerElements := by
  intro sr k k1 a b ha hb el sa sb
  have hel : ∀ op, op ≠ 0x4A → op ≠ 0x4C → el op = _ := fun op hcvt hcmp => btElem_int32 sr k k1 hcvt hcmp ha hb
  have hcode : ∀ op, op ≠ 0x4A → op ≠ 0x4C → (el op).code = w32 (btInt op sa sb (signed 32 k) (signed 32 k1)) :=
    fun op hcvt hcmp => congrArg BtOut.code (hel op hcvt hcmp)
  have hcmpgt : el 0x4C = _ := btElem_cmpgt_int32 sr k k1 ha hb
  have hmodA := signed_modEq 32 a
  have hmodB := signed_modEq 32 b
  have hwA : w32 sa = a := w32_signed ha
  have hwB : w32 sb = b := w32_signed hb
  refine ⟨?add, ?sub, ?mul, ?neg, ?and, ?or, ?xor, ?shl, ?shra, ?max, ?min, ?cmpgt, ?flags⟩
  case add => exact (hcode 0x40 (by decide) (by decide)).trans (w32_of_modEq (by push_cast; exact hmodA.add hmodB))
  case sub =>
    refine (hcode 0x41 (by decide) (by decide)).trans (w32_of_modEq ((hmodA.sub hmodB).trans ?_))
    rw [Nat.cast_sub (by omega), Nat.cast_add, Int.ModEq]
    omega
  case mul => exact (hcode 0x42 (by decide) (by decide)).trans (w32_of_modEq (by push_cast; exact hmodA.mul hmodB))
  case neg =>
    refine (hcode 0x48 (by decide) (by decide)).trans (w32_of_modEq (hmodA.neg.trans ?_))
    rw [Nat.cast_sub ha.le, Int.ModEq]
    omega
  case and =>
    rw [hcode 0x4D (by decide) (by decide), btInt, hwA, hwB]
    exact w32_signed (Nat.and_lt_two_pow a hb)
  case or =>
    rw [hcode 0x4E (by decide) (by decide), btInt, hwA, hwB]
    exact w32_signed (Nat.or_lt_two_pow ha hb)
  case xor =>
    rw [hcode 0x4F (by decide) (by decide), btInt, hwA, hwB]
    exact w32_signed (Nat.xor_lt_two_pow ha hb)
  case shl =>
    rw [hcode 0x50 (by decide) (by decide), btInt, hwA, hwB]
    exact w32_signed (Nat.mod_lt _ (by decide))
  case shra =>
    rw [hcode 0x51 (by decide) (by decide), btInt, hwA, hwB]
    rfl
  case max =>
    rw [hcode 0x45 (by decide) (by decide), btInt, max_def_lt, apply_ite w32, hwA, hwB]
  case min =>
    rw [hcode 0x46 (by decide) (by decide), btInt, min_def_lt, apply_ite w32, hwA, hwB]
  case cmpgt => rw [hcmpgt]
  case flags =>
    intro op hop
    have hcvt : op ≠ 0x4A := by rintro rfl; exact absurd hop (by decide)
    obtain rfl | hcmp := eq_or_ne op 0x4C
    · rw [hcmpgt]; exact ⟨rfl, rfl, rfl⟩
    · rw [hel op hcvt hcmp]; exact ⟨rfl, rfl, rfl⟩

end Sys2Proof.Machine
end

section
/-! PROOFS. The commands of the Batten, the Reed and the Heald (06 §6.2–§6.4): each, when it is the oldest of its slot, is accepted
with its reads and its writes (R206–R210), and otherwise nothing changes. -/

namespace Sys2Proof.Machine

/-! ## The command that is accepted, and its groups -/

/-- The oldest command of a slot not yet accepted has the opcode that it was asked for. -/
theorem State.nextOp_opcode {s : State} {g : CoreId} {slot op : Nat} {x : Cmd} (h : s.nextOp g slot op = some x) :
    fld x.op 7 0 = op := by
  unfold State.nextOp at h
  split at h
  · next y _ =>
    obtain ⟨hop, hxy⟩ := Option.ite_none_right_eq_some.1 h
    exact Option.some.inj hxy ▸ hop
  · cases h

/-- Group k of a list in groups of n begins at n × k. -/
theorem chunks_getElem? {α : Type} {n : Nat} (hn : 0 < n) (fuel : Nat) (l : List α) (k : Nat) (hfuel : l.length ≤ fuel)
    (hk : n * k < l.length) : (chunks n fuel l)[k]? = some ((l.drop (n * k)).take n) := by
  induction fuel generalizing l k with
  | zero => omega
  | succ fuel ih =>
    have hne : l.isEmpty = false := by
      cases l with
      | nil => exact absurd hk (Nat.not_lt_zero _)
      | cons => rfl
    rw [chunks, hne, if_neg Bool.false_ne_true]
    cases k with
    | zero => rfl
    | succ k =>
      rw [Nat.mul_succ] at hk ⊢
      rw [List.getElem?_cons_succ, ih (l.drop n) k (by rw [List.length_drop]; omega) (by rw [List.length_drop]; omega),
        List.drop_drop, Nat.add_comm n]

/-! ## The Batten (R213, R214) -/

/-- The command of each Batten opcode. -/
theorem exec_battenOps {e : Nat × (CoreId → Instr)} (he : e ∈ Claims.battenOps) (g : CoreId) (s : State) :
    exec (e.2 g) s = .next (s.batten g e.1) := by
  fin_cases he <;> rfl

/-- The elements that a Batten command of a known opcode writes: a unary operation takes A alone. -/
theorem State.btOutputs_of_opcode {s : State} {g : CoreId} {x : Cmd} {op k k1 : Nat} {un : Bool} {a b d : Desc}
    (hop : fld x.op 7 0 = op) (hun : btUnary op = un) (ha : s.desc g (fld x.op 19 8) = a) (hb : s.desc g (fld x.op 31 20) = b)
    (hd : s.desc g (fld x.op 43 32) = d) (hk : (s.creg g (0x540 + 4 * fld x.op 47 44)).toNat = k)
    (hk1 : (s.creg g (0x540 + 4 * (fld x.op 47 44 + 1))).toNat = k1) :
    s.btOutputs g x =
      (if un then (s.elems g a).zip (s.elems g a) else (s.elems g a).zip (s.elems g b)).zipIdx.map fun y =>
        btElem op a.fmt (if un then a.fmt else b.fmt) d.fmt (bit x.op 49) (s.srOf g (bit x.op 48) x y.2) k k1 y.1.1 y.1.2 := by
  subst hop hun
  simp only [State.btOutputs, ha, hd, hk, hk1]
  cases btUnary (fld x.op 7 0)
  · simp only [Bool.false_eq_true, if_false, hb]
  · simp only [if_true, ha]

/-- Settles O36: the flags of a group are those of its 64 elements. That the results are computed at the acceptance is the model's
choice (log entry 26). -/
theorem battenCommandsPerform : Obligations.BattenCommandsPerform := by
  intro e he s g
  rw [exec_battenOps he]
  refine ⟨fun h => by rw [State.batten, h], fun x h => ?_⟩
  intro t un a b d k k1 pairs outs flags reads
  have houts : s.btOutputs g x = outs := State.btOutputs_of_opcode (State.nextOp_opcode h) rfl rfl rfl rfl rfl rfl
  refine ⟨(((chunks 64 outs.length outs).map btFlags).getD · 0), fun n hn => ?_, ?_⟩
  · beta_reduce
    rw [List.getD_eq_getElem?_getD, List.getElem?_map, chunks_getElem? (by decide) _ _ _ le_rfl hn]
    rfl
  · rw [State.batten, h, ← houts]

/-! ## The Reed (R217–R223) -/

/-- The command of each Reed opcode. -/
theorem exec_reedOps {e : Nat × (CoreId → Instr)} (he : e ∈ Claims.reedOps) (g : CoreId) (s : State) :
    exec (e.2 g) s = .next (s.reed g e.1) := by
  fin_cases he <;> rfl

/-- The clk of a Reed command's groups (R219, R220, R222, R223). -/
theorem reedClk_eq {e : Nat × (CoreId → Instr)} (he : e ∈ Claims.reedOps) (grp rows k : Nat) :
    Claims.reedClk e.1 grp rows k = (rdReadAt e.1 grp k, rdWriteAt e.1 rows grp k) := by
  fin_cases he <;> simp [Claims.reedClk, rdReadAt, rdWriteAt, passTimes, Nat.add_assoc]

/-- Settles O38: the model's clk are those of `reedClk`, and its flags those of the written groups. That the results are computed at
the acceptance is the model's choice (log entry 26). -/
theorem reedCommandsPerform : Obligations.ReedCommandsPerform := by
  intro e he s g
  rw [exec_reedOps he]
  refine ⟨fun h => by rw [State.reed, h], fun x h => ?_⟩
  intro sd dd sc ro codes rows clk nans flags
  have hclk : clk = _ := funext (reedClk_eq he _ rows)
  have hhold : decide (e.1 = 0x66 ∨ e.1 = 0x67 ∨ e.1 = 0x68) = (e.1 == 0x66 || e.1 == 0x67 || e.1 == 0x68) := by
    rw [Bool.eq_iff_iff]
    simp [or_assoc]
  have hsd : s.desc g (fld x.op 19 8) = sd := rfl
  have hdd : s.desc g (fld x.op 31 20) = dd := rfl
  have hsc : s.desc g dd.scale = sc := rfl
  have hro : s.rdOutputs g x sd dd = ro := rfl
  simp only [State.reed, h, hsd, hdd, hsc, hro, hclk, hhold, decide_eq_true_eq, flags, apply_ite (List.map rdFlags)]
  rfl

/-! ## The Heald (R225–R229) -/

/-- The clk of group m of row i, five clk and i rows of c groups after the acceptance. -/
theorem add_rowAt (now c i m : Nat) : now + rowAt c i m = now + 5 + i * c + m := by
  rw [rowAt, ← Nat.add_assoc, ← Nat.add_assoc]

/-- The reads of an index tensor (R228): a group that holds indices out of range counts them and raises their flag (R226). -/
theorem State.indexSteps_eq (s : State) (g : CoreId) (ix : Desc) (oor : Int → Bool) (c : Nat) :
    s.indexSteps g ix oor c =
      ((readSteps 8 ix.gath (ix.readBy 64) fun k => if k = 0 then s.now + 1 else s.now + 5 + 64 * (k - 1) * c + 0).zip
        (chunks 64 (ix.sz 0 + 1) (s.indices g ix))).map fun y =>
          if y.2.countP oor = 0 then y.1 else { y.1 with flags := 64, counts := [(0x508, y.2.countP oor)] } := by
  have hdue : ∀ k, s.now + (if k = 0 then 1 else rowAt c (64 * (k - 1)) 0) =
      if k = 0 then s.now + 1 else s.now + 5 + 64 * (k - 1) * c + 0 := by
    intro k
    rw [apply_ite (s.now + ·), add_rowAt]
  simp only [State.indexSteps, hdue, List.zip_map_right, List.map_map]
  rfl

/-- The steps of a row, in the clk of its groups. -/
theorem rowSteps_eq (kind : StepKind) (port : Nat) (gath : Bool) (now late c i : Nat) (l : List (List Acc)) :
    rowSteps kind port gath now late c i l = l.zipIdx.map fun x =>
      { kind := kind, port := port, due := now + 5 + i * c + x.2 + late, grp := i * c + x.2, gath := gath, accs := x.1 } := by
  simp only [rowSteps, add_rowAt]

/-- Settles O39: the clk of indexed rows and the counts of the index groups are those stated. That the elements are taken at
the acceptance, when a line of several groups is written, and the pace of indexed rows are the model's choices (log entries 26, 40
and 22). -/
theorem healdCommandsMoveElements : Obligations.HealdCommandsMoveElements := by
  intro s g x t sd dd ix idx due indexReads
  have hindex : ∀ (d : Desc) (c : Nat), s.indexSteps g ix (fun v => !d.inRange v) c = indexReads d c :=
    fun d c => s.indexSteps_eq g ix _ c
  refine ⟨fun h => congrArg Host.Outcome.next (?copy : s.hlCopy g = _),
    fun h => congrArg Host.Outcome.next (?transpose : s.hlTranspose g = _),
    fun h => congrArg Host.Outcome.next (?gather : s.hlGather g = _),
    fun h => congrArg Host.Outcome.next (?scatter : s.hlScatter g = _),
    fun h => congrArg Host.Outcome.next (?noCopy : s.hlCopy g = _),
    fun h => congrArg Host.Outcome.next (?noTranspose : s.hlTranspose g = _),
    fun h => congrArg Host.Outcome.next (?noGather : s.hlGather g = _),
    fun h => congrArg Host.Outcome.next (?noScatter : s.hlScatter g = _)⟩
  case copy => rw [State.hlCopy, h]; rfl
  case transpose => rw [State.hlTranspose, h]; rfl
  case gather =>
    simp only [State.hlGather, h, ← hindex, rowSteps_eq, add_rowAt]
    rfl
  case scatter =>
    simp only [State.hlScatter, h, ← hindex, rowSteps_eq, add_rowAt]
    rfl
  case noCopy => rw [State.hlCopy, h]
  case noTranspose => rw [State.hlTranspose, h]
  case noGather => rw [State.hlGather, h]
  case noScatter => rw [State.hlScatter, h]

end Sys2Proof.Machine
end

section
/-! PROOFS. The commands of the Carder (07 §7.2–§7.7, R236–R251): each, when it is the oldest of its slot, is accepted with its
reads and its writes, the counters of Table 7.7 with the last write, and otherwise nothing changes. -/

namespace Sys2Proof.Machine

/-! ## A command accepted with its counts (R236, R251) -/

/-- With nothing to write the counters rise before the acceptance; otherwise the last step carries them. -/
theorem State.carder_eq_carded (s : State) (g : CoreId) (x : Cmd) (n : CdCounts) (steps : List RunStep) :
    s.carder g x n steps = Claims.carded s g x n steps := by
  unfold State.carder Claims.carded
  by_cases hnone : steps = []
  · subst hnone
    rfl
  · simp only [if_neg hnone]
    rfl

/-! ## The points of a voxelisation (R239, R250) -/

/-- A fold over a range that notes what stands before each index notes the folds over the shorter ranges. -/
theorem foldl_range_noting {β γ : Type} (f : β → Nat → β) (note : β → γ) (b : β) (n : Nat) :
    (List.range n).foldl (fun (a : β × List γ) i => (f a.1 i, a.2 ++ [note a.1])) (b, []) =
      ((List.range n).foldl f b, (List.range n).map fun k => note ((List.range k).foldl f b)) := by
  induction n with
  | zero => rfl
  | succ n ih =>
    rw [List.range_succ, List.foldl_append, ih, List.foldl_append, List.map_append]
    rfl

/-- Point i of a voxelisation's list, after those before it. -/
def State.voxelPoint (s : State) (g : CoreId) (op : Dword) (v : Voxels) (i : Nat) : Voxels :=
  let num := fun (o : Nat) => num32 (s.creg g o).toNat
  v.point [num 0x600, num 0x604, num 0x608] [num 0x60C, num 0x610, num 0x614] (s.grid g) (fld op 56 49)
    ((List.range 4).map fun j => num32 (s.elemCode g (s.desc g (fld op 19 8)) (4 * i + j)))

/-- What a voxelisation has made of the first n points of its list. -/
def State.voxelsAfter (s : State) (g : CoreId) (op : Dword) (n : Nat) : Voxels :=
  (List.range n).foldl (s.voxelPoint g op)
    { table := { sites := [], cap := (s.desc g (fld op 31 20)).sz 1 + 1, limit := fld op 48 45 + 1 }, accs := [], n := {} }

/-- A voxelisation is what it has made of all its points, with the probes that the points before each have made. -/
theorem State.voxels_eq (s : State) (g : CoreId) (op : Dword) :
    s.voxels g op = (s.voxelsAfter g op ((s.desc g (fld op 19 8)).sz 1 + 1),
      (List.range ((s.desc g (fld op 19 8)).sz 1 + 1)).map fun k => (s.voxelsAfter g op k).n.probes) :=
  foldl_range_noting (s.voxelPoint g op) (fun v => v.n.probes) _ _

/-- The probes noted before a point of the list are those of the points before it. -/
theorem State.voxels_probes (s : State) (g : CoreId) (op : Dword) {k : Nat} (hk : k ≤ (s.desc g (fld op 19 8)).sz 1) :
    (s.voxels g op).2.getD k 0 = (s.voxelsAfter g op k).n.probes := by
  rw [State.voxels_eq, List.getD_eq_getElem?_getD, List.getElem?_map, List.getElem?_range (Nat.lt_succ_of_le hk)]
  rfl

/-- Settles O40: the clk in which a point is read is that of the probes of the points before it. That the results are computed
at the acceptance, when a line of several groups is written, and the clk of CD_RULES, CD_GATHER and CD_BEV are the model's choices
(log entries 26, 40 and 22). -/
theorem carderCommandsPerform : Obligations.CarderCommandsPerform := by
  intro s g x t d1 d2 d3 limit num
  refine ⟨fun h => ?voxel,
    fun h => ⟨fun hsupp => congrArg Host.Outcome.next (?supp : s.cdRules g = _),
      fun hdilate => congrArg Host.Outcome.next (?dilate : s.cdRules g = _)⟩,
    fun h => congrArg Host.Outcome.next (?gather : s.cdGather g = _),
    fun h => congrArg Host.Outcome.next (?bev : s.cdBev g = _), fun _ _ _ _ _ => rfl,
    fun h => congrArg Host.Outcome.next (?noVoxel : s.cdVoxel g = _),
    fun h => congrArg Host.Outcome.next (?noRules : s.cdRules g = _),
    fun h => congrArg Host.Outcome.next (?noGather : s.cdGather g = _),
    fun h => congrArg Host.Outcome.next (?noBev : s.cdBev g = _)⟩
  case voxel =>
    intro m after v feats
    have hv : (s.voxels g x.op).1 = v := congrArg Prod.fst (s.voxels_eq g x.op)
    -- Only that `v` is what the model made counts from here: an opaque `v` is not folded again at each field read of it.
    clear_value v
    refine ⟨fun k => t + 1 + (s.voxels g x.op).2.getD k 0, fun k hk => congrArg (t + 1 + ·) (s.voxels_probes g x.op hk),
      congrArg Host.Outcome.next (?_ : s.cdVoxel g = _)⟩
    simp only [State.cdVoxel, h, hv, State.carder_eq_carded]
    rfl
  case supp =>
    simp only [State.cdRules, h, hsupp, if_true, State.carder_eq_carded]
    rfl
  case dilate =>
    simp only [State.cdRules, h, hdilate, Bool.false_eq_true, if_false, State.carder_eq_carded]
    rfl
  case gather =>
    simp only [State.cdGather, h, State.carder_eq_carded]
    rfl
  case bev =>
    simp only [State.cdBev, h, State.carder_eq_carded]
    rfl
  case noVoxel => rw [State.cdVoxel, h]
  case noRules => rw [State.cdRules, h]
  case noGather => rw [State.cdGather, h]
  case noBev => rw [State.cdBev, h]

end Sys2Proof.Machine
end

section
/-! PROOFS. Knots (09 §9.1–§9.3): the condition of a KNOT_WAIT (R289), the commands KNOT_ADD, KNOT_ADD_SEND, KNOT_WAIT and MARK
(R283, R284, R459), and which of the signals that have arrived is presented, and what becomes of it (R286, R287, R292). -/

namespace Sys2Proof.Machine

/-! ## The condition of a wait (R289) -/

/-- The model's natural number is the spec's difference modulo 2^32. -/
theorem waitHolds_iff (k w v : Nat) : waitHolds k w v = true ↔ ((k : Int) - (w + v)) % 2 ^ 32 < 2 ^ 31 := by
  rw [waitHolds, decide_eq_true_iff]
  omega

/-- With no increment applied in the clk, a wait compares the knot as it stands. -/
theorem State.knotReady_of_no_new {s : State} {g : CoreId} (h : (s.core g).knotNow = []) (k v : Nat) :
    s.knotReady g k v = waitHolds (s.knot g k) (s.getReg (cursorReg g k)).toNat v := by
  rw [State.knotReady, h, Bool.eq_iff_iff, waitHolds_iff, waitHolds_iff, List.filter_nil, List.map_nil, List.sum_nil]
  omega

/-! ## The sync slot's commands (R283, R284, R459) -/

/-- A KNOT_WAIT whose condition holds, behind no gate, advances its cursor and retires; any other waits. -/
theorem State.knotWait_of_next {s : State} {g : CoreId} {x : Cmd} (h : s.nextOp g 7 0xE1 = some x) :
    s.knotWait g =
      if s.knotReady g (fld x.op 18 8) (fld x.op 58 27) && !s.gatePending g (fld x.op 18 8) x.step then
        (s.consume g (fld x.op 18 8) (fld x.op 58 27)).setCmd g x.step 7 (.running s.now)
      else s := by
  rw [State.knotWait, h]

/-- The signal of a KNOT_ADD sent in this clk: due at once in its own core, L clk later in another. -/
def State.addSignal (s : State) (g : CoreId) (x : Cmd) : KnotSig :=
  let t : CoreId := BitVec.ofNat 8 (fld x.op 26 19)
  { knot := fld x.op 18 8, val := BitVec.ofNat 32 (fld x.op 58 27), pick := s.pickBits
    src := if t = g then .own else .mesh, tr := none, step := some (g, x.step), pro := false, remote := none
    due := if t = g then s.now else s.now + meshLat g t }

/-- The KNOT_ADD next to perform is sent to its target core when it issued in an earlier clk and its fence is open. -/
theorem State.knotAddSend_of_next {s : State} {g : CoreId} {x : Cmd} (h : s.nextSync g 0xE0 = some x) :
    s.knotAddSend g =
      if x.at' < s.now && s.fenceOpen g x.step (BitVec.ofNat 8 (fld x.op 26 19)) then
        (((s.setCmd g x.step 7 .waiting).performed g).modCore (BitVec.ofNat 8 (fld x.op 26 19)) fun c =>
          { c with sigIn := c.sigIn ++ [s.addSignal g x] }).sigCounted true s.pickBits
      else s := by
  rw [State.knotAddSend, h]
  rfl

/-! ## The signal that is presented (R286) -/

/-- The first of a list with one more signal: the new one where its rank is below that of the first before it. -/
theorem firstSig_concat (l : List KnotSig) (x : KnotSig) :
    firstSig (l ++ [x]) = some ((firstSig l).elim x fun y => if sigRank x.src < sigRank y.src then x else y) := by
  unfold firstSig
  rw [List.foldl_append, List.foldl_cons, List.foldl_nil]
  cases List.foldl _ none l with
  | none => rfl
  | some y => exact (apply_ite some _ _ _).symm

/-- Only an empty list has no first signal. -/
theorem firstSig_eq_none {l : List KnotSig} (h : firstSig l = none) : l = [] := by
  cases l using List.reverseRecOn with
  | nil => rfl
  | append_singleton l x =>
    rw [firstSig_concat] at h
    cases h

/-- No signal has a lower rank than the first. -/
theorem firstSig_rank_le {l : List KnotSig} {x y : KnotSig} (h : firstSig l = some x) (hy : y ∈ l) :
    sigRank x.src ≤ sigRank y.src := by
  induction l using List.reverseRecOn generalizing x with
  | nil => cases h
  | append_singleton l z ih =>
    rw [firstSig_concat] at h
    obtain rfl := Option.some.inj h
    rw [List.mem_append, List.mem_singleton] at hy
    cases hfirst : firstSig l with
    | none =>
      obtain rfl := firstSig_eq_none hfirst
      obtain hy | rfl := hy
      · cases hy
      · exact le_rfl
    | some w =>
      have hz : sigRank (if sigRank z.src < sigRank w.src then z else w).src = min (sigRank z.src) (sigRank w.src) := by
        split <;> omega
      dsimp only [Option.elim_some]
      rw [hz, min_le_iff]
      obtain hy | rfl := hy
      · exact .inr (ih hfirst hy)
      · exact .inl le_rfl

/-! ## What becomes of it (R282, R286, R287, R292) -/

/-- A signal enters the knot landing queue. -/
def State.queueSig (s : State) (g : CoreId) (x : KnotSig) : State :=
  s.modCore g fun c => { c with knotQueue := c.knotQueue ++ [x] }
/-- A signal is held at its source until the next clk. -/
def State.holdSig (s : State) (g : CoreId) (x : KnotSig) : State :=
  s.modCore g fun c => { c with sigIn := c.sigIn ++ [{ x with due := s.now + 1 }] }
/-- A signal that is not applied enters the landing queue where it has room, marked as of the next pick or not, and is otherwise
held. -/
def State.deferSig (s : State) (g : CoreId) (x : KnotSig) (pro : Bool) : State :=
  if (s.core g).knotQueue.length < 16 then s.queueSig g { x with pro := pro } else s.holdSig g x
/-- A prologue load's signal of the next pick (R292). -/
def State.ofNextPick (s : State) (x : KnotSig) : Prop := x.pro = true ∧ x.pick = BitVec.ofNat 8 (s.pickNum.toNat + 1)

/-- A signal of the next pick is deferred to it. -/
theorem State.presentSig_of_next {s : State} (g : CoreId) {x : KnotSig} (h : s.ofNextPick x) :
    s.presentSig g x = s.deferSig g x true := by
  obtain ⟨hpro, hpick⟩ := h
  have hnext : (x.pick == BitVec.ofNat 8 (s.pickNum.toNat + 1) && x.pro) = true := by rw [hpick, hpro, beq_self_eq_true]; rfl
  simp only [State.presentSig, hnext]
  rfl

/-- The model's test of a signal that is not of the next pick. -/
theorem State.next_eq_false {s : State} {x : KnotSig} (h : ¬ s.ofNextPick x) :
    (x.pick == BitVec.ofNat 8 (s.pickNum.toNat + 1) && x.pro) = false := by
  rw [Bool.eq_false_iff, ne_eq, Bool.and_eq_true, beq_iff_eq]
  exact fun hn => h hn.symm

/-- A stale signal is discarded and counted. -/
theorem State.presentSig_of_stale {s : State} (g : CoreId) {x : KnotSig} (h : ¬ s.ofNextPick x) (hstale : s.stale x.pick = true) :
    s.presentSig g x = s.ccount g 0x700 1 := by
  simp only [State.presentSig, State.next_eq_false h, hstale, if_true, Bool.false_eq_true, if_false]

/-- A signal of the pick is applied behind fewer than four in the clk and with none queued; otherwise it is deferred. -/
theorem State.presentSig_of_pick {s : State} (g : CoreId) {x : KnotSig} (h : ¬ s.ofNextPick x) (hstale : s.stale x.pick = false) :
    s.presentSig g x =
      if (s.core g).appliedNow < 4 ∧ (s.core g).knotQueue.filter (fun y => !y.pro) = [] then s.applySig g x
      else s.deferSig g x false := by
  simp only [State.presentSig, State.next_eq_false h, hstale, Bool.false_eq_true, if_false, Bool.and_eq_true, decide_eq_true_iff]
  rfl

/-- What bits make a signal, message or credit stale. -/
theorem State.stale_iff (s : State) (b : Byte) : s.stale b = true ↔ b ≠ s.pickBits ∨ s.dropped = true := by
  rw [State.stale, Bool.or_eq_true, bne_iff_ne]

/-- KNOT_SIGNAL_ARRIVE presents the first of the signals that have arrived. -/
theorem State.signalArrive_of_first {s : State} {g : CoreId} {x : KnotSig}
    (h : firstSig ((s.core g).sigIn.filter fun y => y.due ≤ s.now) = some x) :
    s.signalArrive g = (s.modCore g fun c => { c with sigIn := c.sigIn.erase x }).presentSig g x := by
  rw [State.signalArrive, h]

/-- With no signal arrived, nothing changes. -/
theorem State.signalArrive_of_none {s : State} {g : CoreId} (h : ∀ x ∈ (s.core g).sigIn, s.now < x.due) :
    s.signalArrive g = s := by
  have hnone : ((s.core g).sigIn.filter fun y => y.due ≤ s.now) = [] :=
    List.filter_eq_nil_iff.2 fun x hx => by simpa using h x hx
  rw [State.signalArrive, hnone]
  rfl

/-- A signal that no step, transfer or package waits for only adds its value. -/
theorem State.applySig_of_plain (s : State) (g : CoreId) {x : KnotSig} (hstep : x.step = none) (htr : x.tr = none)
    (hremote : x.remote = none) :
    s.applySig g x = ((s.countWrap (knotReg g x.knot) x.val.toNat).modCore g fun c =>
      { c with knotNow := c.knotNow ++ [(x.knot, x.val.toNat)], appliedNow := c.appliedNow + 1 }).sigCounted false x.pick := by
  simp only [State.applySig, hstep, htr, hremote]

/-- The counts of signals are no registers. -/
theorem State.sigCounted_getReg (s : State) (sent : Bool) (pick : Byte) (a : Nat) :
    (s.sigCounted sent pick).getReg a = s.getReg a := by
  cases sent <;> rfl

/-- Settles O43: the cases are those of the model's presentation of a signal; the ranks are by induction on the signals. -/
theorem knotsAreAddedAndWaitedFor : Obligations.KnotsAreAddedAndWaitedFor := by
  intro s g
  refine ⟨waitHolds_iff, fun k v hnew => State.knotReady_of_no_new hnew k v,
    fun x h => congrArg Host.Outcome.next (?add : s.knotAdd g = _),
    fun x h => ⟨fun hready => congrArg Host.Outcome.next (?waitOver : s.knotWait g = _),
      fun hready => congrArg Host.Outcome.next (?waitOn : s.knotWait g = _)⟩,
    fun x h => congrArg Host.Outcome.next (?mark : s.markLog g = _),
    fun x h => ⟨fun hclk hfence => congrArg Host.Outcome.next (?send : s.knotAddSend g = _),
      fun hwait => congrArg Host.Outcome.next (?sendNot : s.knotAddSend g = _)⟩,
    fun x h => ?signal, fun h => congrArg Host.Outcome.next (State.signalArrive_of_none h), fun x hstep htr hremote => ?value⟩
  case add => rw [State.knotAdd, h]
  case waitOver =>
    rw [State.knotWait_of_next h, if_pos hready]
    rfl
  case waitOn => rw [State.knotWait_of_next h, if_neg (Bool.eq_false_iff.1 hready)]
  case mark => rw [State.markLog, h]
  case send =>
    rw [State.knotAddSend_of_next h, if_pos (Bool.and_eq_true_iff.2 ⟨decide_eq_true hclk, hfence⟩)]
    rfl
  case sendNot =>
    refine (State.knotAddSend_of_next h).trans (if_neg fun hnow => ?_)
    obtain ⟨hclk, hfence⟩ := Bool.and_eq_true_iff.1 hnow
    obtain hlate | hshut := hwait
    · exact Nat.not_lt.2 hlate (of_decide_eq_true hclk)
    · exact Bool.eq_false_iff.1 hshut hfence
  case signal =>
    have hpresent := State.signalArrive_of_first h
    refine ⟨fun y hy hdue => firstSig_rank_le h (List.mem_filter.2 ⟨hy, decide_eq_true hdue⟩),
      fun hnext => congrArg Host.Outcome.next (hpresent.trans (State.presentSig_of_next g hnext)),
      fun hnext hstale => congrArg Host.Outcome.next
        (hpresent.trans (State.presentSig_of_stale g hnext ((State.stale_iff _ _).2 hstale))),
      fun hnext hpick hkept => ?_⟩
    have hstale : s.stale x.pick = false := by
      rw [Bool.eq_false_iff, ne_eq, State.stale_iff, hpick, hkept]
      simp
    have hof := hpresent.trans (State.presentSig_of_pick g hnext hstale)
    exact ⟨fun hfree => congrArg Host.Outcome.next (hof.trans (if_pos hfree)),
      fun hfull => congrArg Host.Outcome.next (hof.trans (if_neg hfull))⟩
  case value =>
    rw [State.applySig_of_plain s g hstep htr hremote, State.sigCounted_getReg, State.modCore_getReg, State.countWrap_getReg,
      if_pos rfl]

end Sys2Proof.Machine
end

section
/-! PROOFS. Channels (09 §9.5, §9.6): the credits of a send-end, CHAN_SEND and CHAN_RECV at their issue and in their turn, and the
messages, acknowledgements and credits that arrive (R287, R295–R299, R305). -/

namespace Sys2Proof.Machine

/-! ## Two changes of one core -/

section
variable {β : Type}

/-- An erased key is not listed, so erasing it again changes nothing. -/
theorem serase_serase (l : List (Nat × β)) (k : Nat) : serase (serase l k) k = serase l k := by
  simp only [serase_eq_filter, List.filter_filter, Bool.and_self]

/-- Erasing takes an inserted key out again. -/
theorem serase_sins (l : List (Nat × β)) (k : Nat) (v : β) : serase (sins l k v) k = serase l k := by
  induction l with
  | nil => exact if_pos rfl
  | cons e t ih =>
    obtain ⟨a, b⟩ := e
    rw [sins]
    split
    · exact if_pos rfl
    · rw [serase, serase, ih]

/-- Of two writes at one key the last remains. -/
theorem sset_sset [DecidableEq β] (d : Nat → β) (l : List (Nat × β)) (k : Nat) (v w : β) :
    sset d (sset d l k v) k w = sset d l k w := by
  have herase : serase (sset d l k v) k = serase l k := by
    rw [sset]
    split
    · exact serase_serase l k
    · rw [serase_sins, serase_serase]
  rw [sset, herase, sset]

end

/-- Two changes of one core are one change, of the first and then of the second. -/
theorem State.modCore_modCore (s : State) (g : CoreId) (f₁ f₂ : Core → Core) :
    (s.modCore g f₁).modCore g f₂ = s.modCore g fun c => f₂ (f₁ c) := by
  rw [State.modCore, State.modCore_core_self, State.modCore, State.modCore, State.setCore, State.setCore, State.setCore,
    sset_sset]

/-! ## Credits (R296, R297) -/

/-- The least of a list of numbers is the library's. -/
theorem leastCode_eq_min? (l : List Nat) : leastCode l = l.min? := by
  induction l with
  | nil => rfl
  | cons a t ih =>
    rw [leastCode, ih, List.min?_cons]
    cases t.min? <;> rfl

/-- The credits in clk 0 of a send-end that has consumed and received none in the pick. -/
theorem State.credits_of_first {s : State} {g : CoreId} {ch : Nat} (hnone : (s.core g).send.lookup ch = none)
    (hsend : fld (s.route g ch) 63 62 = 2) :
    s.credits g ch = (List.range 16).filter fun j =>
      j % senders (s.route (BitVec.ofNat 8 (fld (s.route g ch) 59 52)) (fld (s.route g ch) 51 46)) ==
        fld (s.route g ch) 45 44 := by
  have hlist : s.creditList g ch = s.firstCredits g ch := by rw [State.creditList, hnone]
  have hready (l : List Nat) : (l.map fun j => (j, 0)).filter (fun e => e.2 ≤ s.now) = l.map fun j => (j, 0) :=
    List.filter_eq_self.2 fun e he => by
      obtain ⟨j, _, rfl⟩ := List.mem_map.1 he
      exact decide_eq_true (Nat.zero_le _)
  rw [State.credits, hlist, State.firstCredits, if_pos hsend, hready, List.map_map]
  exact List.map_id _

/-- A filter by the Boolean test of inequality. -/
theorem filter_bne_eq {α : Type} (f : α → Nat) (n : Nat) (l : List α) :
    (l.filter fun e => f e != n) = l.filter fun e => f e ≠ n :=
  List.filter_congr fun _ _ => (decide_not).symm

/-- CHAN_SEND consumes the lowest credit and claims its slot. -/
theorem State.chanSend_of_least {s : State} {g : CoreId} {x : Cmd} {j : Nat} (h : s.nextOp g 7 0xE2 = some x)
    (hmem : j ∈ s.credits g (fld x.op 13 8)) (hle : ∀ i ∈ s.credits g (fld x.op 13 8), j ≤ i) :
    s.chanSend g = ((s.setCredits g (fld x.op 13 8)
      ((s.creditList g (fld x.op 13 8)).filter fun e => e.1 ≠ j)).setCmd g x.step 7 .accepted).modCore g fun c =>
        { c with claimed := c.claimed ++ [{ step := x.step, slot := j }] } := by
  have hleast : leastCode (s.credits g (fld x.op 13 8)) = some j :=
    (leastCode_eq_min? _).trans (List.min?_eq_some_iff.2 ⟨hmem, hle⟩)
  simp only [State.chanSend, h, hleast, filter_bne_eq]

/-! ## The sync unit's turn (R284, R297, R298) -/

/-- The sends of a core whose sync unit has performed a command in this clk wait. -/
theorem State.chanSendPerform_of_wait {s : State} {g : CoreId} (h : s.syncTurn g = false) : s.chanSendPerform g = s := by
  unfold State.chanSendPerform
  split
  · rfl
  · split
    · rfl
    · rw [h]; rfl

/-- The receives of a core whose sync unit has performed a command in this clk wait. -/
theorem State.chanRecvPerform_of_wait {s : State} {g : CoreId} (h : s.syncTurn g = false) : s.chanRecvPerform g = s := by
  unfold State.chanRecvPerform
  split
  · rfl
  · split
    · rfl
    · rw [h]; rfl

/-- The CHAN_SEND next to perform, with its credit claimed: its reads begin. -/
theorem State.chanSendPerform_of_turn {s : State} {g : CoreId} {x : Cmd} {y : Claimed} (h : s.nextSync g 0xE2 = some x)
    (hturn : s.syncTurn g = true) (hclaim : (s.core g).claimed.find? (fun y => y.step == x.step) = some y) :
    s.chanSendPerform g = ((s.setCmd g x.step 7 .waiting).modCore g fun c =>
      { c with syncAt := some s.now, claimed := c.claimed.erase y }).addRun g (s.sendRun g x y) := by
  simp only [State.chanSendPerform, h, hclaim, hturn, if_true]
  rw [State.performed, State.modCore_modCore]
  rfl

/-- The CHAN_RECV next to perform, with its message popped: its writes begin, and a size mismatch is counted. -/
theorem State.chanRecvPerform_of_turn {s : State} {g : CoreId} {x : Cmd} {y : Popped} (h : s.nextSync g 0xE3 = some x)
    (hturn : s.syncTurn g = true) (hpopped : (s.core g).popped.find? (fun y => y.step == x.step) = some y) :
    s.chanRecvPerform g =
      let d := s.desc g (fld x.op 25 14)
      let s1 := if y.bytes.length = d.byteCount then s else s.ccount g 0x708 1
      ((s1.setCmd g x.step 7 .waiting).modCore g fun c =>
        { c with syncAt := some s.now, popped := c.popped.erase y }).addRun g
          { owner := .recv x.step, order := s.now * 2048 + g.toNat * 8 + 4, chain := false, start := s.now
            steps := shWrites d.gath (d.stream.zip y.bytes) s.now } := by
  have hnow : ((if y.bytes.length = (s.desc g (fld x.op 25 14)).byteCount then s else s.ccount g 0x708 1).setCmd g x.step 7
      .waiting).now = s.now := by
    rw [State.setCmd, State.now, State.modCore_heddle, apply_ite State.heddle, State.ccount_heddle, ite_self, State.now]
  simp only [State.chanRecvPerform, h, hpopped, hturn, if_true, State.performed, State.modCore_modCore, hnow]

/-! ## Messages (R287, R295, R297) -/

section
variable {s : State} {g : CoreId} {m : Msg} {t : Nat} (h : (s.core g).msgIn.find? (fun e => e.2 ≤ s.now) = some (m, t))
include h

/-- A stale message is discarded and counted. -/
theorem State.messageArrive_of_stale (hstale : s.stale m.pick = true) :
    s.messageArrive g = (s.modCore g fun c => { c with msgIn := c.msgIn.erase (m, t) }).ccount g 0x700 1 := by
  simp only [State.messageArrive, h, hstale, if_true]

/-- A message of another sender than the one listed for its slot is discarded. -/
theorem State.messageArrive_of_unlisted (hstale : s.stale m.pick = false)
    (hlist : ¬ (fld (s.route g m.chan) 63 62 = 3 ∧
      senderAt (s.route g m.chan) (m.slot % senders (s.route g m.chan)) = (m.fromCore, m.fromChan))) :
    s.messageArrive g = s.modCore g fun c => { c with msgIn := c.msgIn.erase (m, t) } := by
  simp only [State.messageArrive, h, hstale, Bool.false_eq_true, if_false]
  exact if_pos (not_and_or.1 hlist)

/-- A message of the listed sender fills its slot and is acknowledged. -/
theorem State.messageArrive_of_listed (hstale : s.stale m.pick = false) (hrecv : fld (s.route g m.chan) 63 62 = 3)
    (hsender : senderAt (s.route g m.chan) (m.slot % senders (s.route g m.chan)) = (m.fromCore, m.fromChan)) :
    s.messageArrive g = ((s.modCore g fun c => { c with msgIn := c.msgIn.erase (m, t) }).setRecv g m.chan
      { (s.core g).recvEnd m.chan with
        slots := ((s.core g).recvEnd m.chan).slots ++ [{ slot := m.slot, bytes := m.bytes, from' := s.now + 1 }] }).modCore
          m.fromCore fun c =>
            { c with msgAckIn := c.msgAckIn ++ [{ step := m.step, pick := m.pick, due := s.now + meshLat g m.fromCore }] } := by
  simp only [State.messageArrive, h, hstale, Bool.false_eq_true, if_false, State.modCore_core_self]
  exact if_neg (not_or.2 ⟨not_not.2 hrecv, not_not.2 hsender⟩)

end

/-- Settles O44: the order that a run of accesses takes among those of the clk is the model's own. -/
theorem channelsCarryMessages : Obligations.ChannelsCarryMessages := by
  intro s g
  refine ⟨fun x j h hmem hle => congrArg Host.Outcome.next (State.chanSend_of_least h hmem hle),
    fun x y h hturn hclaim => ⟨_, congrArg Host.Outcome.next (State.chanSendPerform_of_turn h hturn hclaim)⟩,
    fun m t h => ⟨fun hstale => congrArg Host.Outcome.next (State.messageArrive_of_stale h hstale),
      fun hstale hlist => congrArg Host.Outcome.next (State.messageArrive_of_unlisted h hstale hlist),
      fun hstale ⟨hrecv, hsender⟩ => congrArg Host.Outcome.next (State.messageArrive_of_listed h hstale hrecv hsender)⟩,
    fun a h => congrArg Host.Outcome.next (?ack : s.messageAckArrive g = _),
    fun x f h hhead => congrArg Host.Outcome.next (?recv : s.chanRecv g = _),
    fun x y h hturn hpopped => ⟨_, congrArg Host.Outcome.next (State.chanRecvPerform_of_turn h hturn hpopped)⟩,
    fun hturn => ⟨congrArg Host.Outcome.next (State.chanSendPerform_of_wait hturn),
      congrArg Host.Outcome.next (State.chanRecvPerform_of_wait hturn)⟩,
    fun k h => ⟨fun hstale => congrArg Host.Outcome.next (?creditStale : s.creditArrive g = _),
      fun hstale => congrArg Host.Outcome.next (?credit : s.creditArrive g = _)⟩,
    fun ch hnone hsend => State.credits_of_first hnone hsend⟩
  case ack => simp only [State.messageAckArrive, h]
  case recv =>
    simp only [State.chanRecv, h, RecvEnd.at, hhead, filter_bne_eq]
    rfl
  case creditStale => simp only [State.creditArrive, h, hstale, if_true]
  case credit => simp only [State.creditArrive, h, hstale, Bool.false_eq_true, if_false]

end Sys2Proof.Machine
end

section
/-! PROOFS. The settings of the loader that bind the shuttles, the fabric and the ledger (09 R308, 10 R331, 12 R406): the writes
of HDL_FAB_HOPS, HDL_SH_TIMEOUT and HDL_KPAIRn. -/

namespace Sys2Proof.Machine

/-- HDL_FAB_HOPS is written while no pick runs and the present timeout covers the hops. -/
theorem State.hopsWrite_of_answers {s : State} (ha : s.answers .hdl = true) (v : Word) :
    s.hopsWrite v = if s.active = true ∨ fld (s.getReg (hdl 0x11C)) 15 0 < 40 * fld v 3 0 + 10 then s
      else s.setReg (hdl 0x118) (BitVec.ofNat 64 (fld v 3 0)) := by
  simp only [State.hopsWrite, ha, Bool.not_true, Bool.false_or, Bool.or_eq_true, decide_eq_true_eq]

/-- HDL_SH_TIMEOUT is written while no pick runs and it covers the present hops. -/
theorem State.timeoutWrite_of_answers {s : State} (ha : s.answers .hdl = true) (v : Word) :
    s.timeoutWrite v = if s.active = true ∨ fld v 15 0 < 40 * fld (s.getReg (hdl 0x118)) 3 0 + 10 then s
      else s.setReg (hdl 0x11C) (BitVec.ofNat 64 (fld v 15 0)) := by
  simp only [State.timeoutWrite, ha, Bool.not_true, Bool.false_or, Bool.or_eq_true, decide_eq_true_eq]

/-- A knot pair is written while no pick runs and both its cores work. -/
theorem State.kpairWrite_of_answers {s : State} (ha : s.answers .hdl = true) (n : Nat) (v : Dword) :
    s.kpairWrite n v =
      if s.active = true ∨ (s.works (BitVec.ofNat 8 (fld v 7 0)) && s.works (BitVec.ofNat 8 (fld v 25 18))) = false then s
      else s.setReg (hdl (0x800 + 8 * n)) v := by
  simp only [State.kpairWrite, ha, Bool.not_true, Bool.false_or, Bool.or_eq_true, Bool.not_eq_true', Bool.and_eq_false_iff, or_assoc]

/-- Settles O27: each write is discarded while a pick runs or where its rule fails, and is otherwise performed. -/
theorem loaderRegisterWrites : Obligations.LoaderRegisterWrites := by
  intro s ha
  have hopen {p : Prop} (hidle : s.active = false) (h : ¬ p) : ¬ (s.active = true ∨ p) :=
    not_or.2 ⟨Bool.eq_false_iff.1 hidle, h⟩
  refine ⟨fun v => ?_, fun n v => ?_⟩
  · have hhops := State.hopsWrite_of_answers ha v
    have htimeout := State.timeoutWrite_of_answers ha v
    exact ⟨fun hidle hle => congrArg Host.Outcome.next (hhops.trans (if_neg (hopen hidle hle.not_gt))),
      fun h => congrArg Host.Outcome.next (hhops.trans (if_pos h)),
      fun hidle hle => congrArg Host.Outcome.next (htimeout.trans (if_neg (hopen hidle hle.not_gt))),
      fun h => congrArg Host.Outcome.next (htimeout.trans (if_pos h))⟩
  · have hpair := State.kpairWrite_of_answers ha n.toNat v
    exact ⟨fun hidle hboth => congrArg Host.Outcome.next
        (hpair.trans (if_neg (hopen hidle (Bool.eq_false_iff.not.2 (not_not.2 hboth))))),
      fun h => congrArg Host.Outcome.next (hpair.trans (if_pos h))⟩

end Sys2Proof.Machine
end

section
/-! PROOFS. Transfers (chapter 10): the tracker entry that SH_COPY and SH_RELAY take (R311), cancels and gates (R324, R326), the
start of a transfer and of its legs (R317, R319), and transfers that are abandoned (R331–R333). -/

namespace Sys2Proof.Machine

/-! ## The tracker (R311, R312) -/

/-- A tracker entry after an entry is set. -/
theorem Core.setTrk_trk (c : Core) (e n : Nat) (t : Track) : (c.setTrk e t).trk n = if n = e then t else c.trk n :=
  sget_sset _ _ _ _ _

/-- The most entries in use are noted in a register. -/
theorem State.trackHigh_core (s : State) (g h : CoreId) : (s.trackHigh g).core h = s.core h := by
  unfold State.trackHigh
  dsimp only
  split
  · exact State.setCreg_core ..
  · rfl

/-- The entry that a transfer takes keeps its generation and holds the transfer. -/
theorem State.takeEntry_trk {s : State} {g : CoreId} {n : Nat} (hfree : (s.core g).freeEntry = some n) (op : Dword)
    (card step : Nat) (pick : Byte) (pro confirmed : Bool) :
    ((s.takeEntry g op card step pick pro confirmed).core g).trk n = ⟨((s.core g).trk n).gen, some
      { op := op, card := card, step := step, shu := Fin.ofNat 4 (fld op 10 9), pick := pick
        phase := if fld op 7 0 == 0xC0 && fld op 53 47 != 0 then .gated else .ready s.now
        issueOrder := (s.core g).orderNext, pro := pro, confirmed := confirmed }⟩ := by
  simp only [State.takeEntry, hfree]
  rw [State.trackHigh_core, State.setCore_core_self, Core.setTrk_trk, if_pos rfl]

/-- A change of a transfer leaves every core's runs. -/
theorem State.modTr_runs (s : State) (g h : CoreId) (e : Nat) (f : Transfer → Transfer) :
    ((s.modTr g e f).core h).runs = (s.core h).runs := by
  rw [State.modTr, State.modCore_core]
  split
  · next hg => rw [hg]; rfl
  · rfl

/-- A copy or relay, the oldest of slot 6 not yet accepted, takes an entry and waits. -/
theorem State.shTake_of_next {s : State} {g : CoreId} {opcode : Nat} {x : Cmd} {n : Nat} (h : s.nextOp g 6 opcode = some x)
    (hfree : (s.core g).freeEntry = some n) :
    s.shTake g opcode = (s.takeEntry g x.op x.card x.step s.pickBits false true).setCmd g x.step 6 .waiting := by
  simp only [State.shTake, h, hfree]

/-! ## Cancels and gates (R324, R326) -/

/-- A cancel ends the masked shuttles' transfers that wait at their gate or became ready in this clk. -/
theorem Core.mem_cancelled (c : Core) (mask now n : Nat) (t : Transfer) :
    (n, t) ∈ c.cancelled mask now ↔ (n, t) ∈ c.transfers ∧ mask / 2 ^ t.shu.val % 2 = 1 ∧
      (t.phase = .gated ∨ fld t.op 53 47 ≠ 0 ∧ t.phase = .ready (now + 1)) := by
  rw [Core.cancelled, (List.mergeSort_perm _ _).mem_iff, List.mem_filter]
  simp only [Transfer.pendingAt, Bool.and_eq_true, Bool.or_eq_true, beq_iff_eq, bne_iff_ne, and_comm (a := _ ∨ _)]

/-- SH_CANCEL ends the pending transfers in issue order, each that is gated past its gate, and counts them. -/
theorem State.shCancel_of_next {s : State} {g : CoreId} {x : Cmd} (h : s.nextOp g 6 0xC2 = some x) :
    s.shCancel g =
      let gone := (s.core g).cancelled (fld x.op 12 9) s.now
      (((gone.foldl (fun s y =>
        ((if y.2.phase = .gated then s.consume g (fld y.2.op 63 54) (fld y.2.op 53 47) else s).retireTransfer g y.1).modCore g
          fun c => c.setStart y.2.shu s.now) s).setCmd g x.step 6 (.running s.now)).ccount g 0x808 gone.length) := by
  simp only [State.shCancel, h, beq_iff_eq]

section
variable {s : State} {g : CoreId} {e : Nat} {t : Transfer} (htr : ((s.core g).trk e).tr = some t)
include htr

/-- The first gated transfer of its knot passes its gate once the gate's condition holds. -/
theorem State.gateReady_of_ready (hgated : t.phase = .gated)
    (hready : s.knotReady g (fld t.op 63 54) (fld t.op 53 47) = true)
    (hfirst : ∀ y ∈ (s.core g).transfers, y.2.phase = .gated → fld y.2.op 63 54 = fld t.op 63 54 →
      t.issueOrder ≤ y.2.issueOrder) :
    s.gateReady g e = (s.consume g (fld t.op 63 54) (fld t.op 53 47)).modTr g e fun t =>
      { t with phase := .ready (s.now + 1) } := by
  have hearlier : ((s.core g).transfers.any fun y =>
      y.2.phase == .gated && fld y.2.op 63 54 == fld t.op 63 54 && y.2.issueOrder < t.issueOrder) = false := by
    refine List.any_eq_false.2 fun y hy hlt => ?_
    simp only [Bool.and_eq_true, beq_iff_eq, decide_eq_true_eq] at hlt
    obtain ⟨⟨hphase, hknot⟩, hlt⟩ := hlt
    exact (hfirst y hy hphase hknot).not_gt hlt
  simp only [State.gateReady, htr, hgated, hready, hearlier, beq_self_eq_true, Bool.not_false, Bool.and_self, if_true]

/-- A gate whose condition does not hold stays shut. -/
theorem State.gateReady_of_wait (hready : s.knotReady g (fld t.op 63 54) (fld t.op 53 47) = false) : s.gateReady g e = s := by
  simp only [State.gateReady, htr, hready, Bool.and_false, Bool.false_eq_true, if_false]

/-! ## The start of a transfer (R317) -/

/-- A transfer that is ready starts once its shuttle's earlier ones have started, the last of them in an earlier clk. -/
theorem State.transferStart_of_ready {a : Nat} (hphase : t.phase = .ready a) (ha : a ≤ s.now) (hpro : t.pro = false)
    (hstarted : ∀ y ∈ (s.core g).transfers, y.2.shu = t.shu → y.2.issueOrder < t.issueOrder → ∃ b, y.2.phase = .started b)
    (hlast : ∀ b, (s.core g).shuStart.lookup t.shu.val = some b → b < s.now) :
    s.transferStart g e = ((s.modTr g e fun t => { t with phase := .started s.now }).modCore g fun c =>
      c.setStart t.shu s.now).advance g e := by
  unfold State.transferStart
  simp only [htr, hphase]
  refine if_neg ?_
  rw [Bool.or_eq_true, Bool.or_eq_true, Bool.or_eq_true]
  rintro (((hearlier | hbusy) | hheld) | hlate)
  · obtain ⟨y, hy, hwait⟩ := List.any_eq_true.1 hearlier
    simp only [Bool.and_eq_true, beq_iff_eq, decide_eq_true_eq] at hwait
    obtain ⟨⟨hshu, hlt⟩, hunstarted⟩ := hwait
    obtain ⟨b, hb⟩ := hstarted y hy hshu hlt
    rw [hb] at hunstarted
    cases hunstarted
  · cases hstart : (s.core g).shuStart.lookup t.shu.val with
    | none =>
      rw [hstart] at hbusy
      cases hbusy
    | some b =>
      rw [hstart] at hbusy
      exact of_decide_eq_false (Bool.not_eq_true' _ ▸ hbusy) (hlast b hstart)
  · rw [State.loadHeld, hpro] at hheld
    cases hheld
  · exact ha.not_gt (of_decide_eq_true hlate)

/-- A transfer does not start before the clk from which it is ready. -/
theorem State.transferStart_of_early {a : Nat} (hphase : t.phase = .ready a) (ha : s.now < a) : s.transferStart g e = s := by
  simp only [State.transferStart, htr, hphase, ha, decide_true, Bool.or_true, if_true]

/-! ## Abandoned transfers (R331–R333) -/

/-- A transfer that awaits a response is abandoned HDL_SH_TIMEOUT after its first request. -/
theorem State.transferTimeout_of_late {f : Dword} (hfirst : t.firstOut = some f) (hawaits : s.awaits g t = true)
    (hlate : 1000 * fld (s.getReg (hdl 0x11C)) 15 0 ≤ (s.getReg (hdl 0) - f).toNat) :
    s.transferTimeout g e = s.abandon g e 1 := by
  simp only [State.transferTimeout, htr, hfirst, hawaits, hlate, decide_true, Bool.and_self, if_true]

/-- A transfer that awaits no response does not time out. -/
theorem State.transferTimeout_of_answered (hawaits : s.awaits g t = false) : s.transferTimeout g e = s := by
  unfold State.transferTimeout
  rw [htr]
  cases hfirst : t.firstOut with
  | none => simp only [hfirst]
  | some f => simp only [hfirst, hawaits, Bool.false_and, Bool.false_eq_true, if_false]

/-- A transfer whose first request has not left does not time out. -/
theorem State.transferTimeout_of_unsent (hfirst : t.firstOut = none) : s.transferTimeout g e = s := by
  simp only [State.transferTimeout, htr, hfirst]

end

/-! ## The reads of a leg (R319) -/

/-- The read of a group of a stream on SH_R. -/
def shRead (gath : Bool) (offs : List Nat) (start : Nat) (x : List Nat × Nat) : RunStep :=
  let src := x.1.map fun i => offs.getD i 0
  { kind := .read, port := 12, due := start + 1 + x.2, grp := x.2, gath := gath, src := src
    accs := (touchedLines src []).map fun e => { line := e.1, mask := e.2 } }

/-- The reads among the steps of a stream's groups: one for each group, where what follows a read is none. -/
theorem shReads_filter_read (gath : Bool) (offs : List Nat) (start : Nat) {next : Nat → List Nat → RunStep}
    (hnext : ∀ k places, (next k places).kind ≠ .read) :
    (shReads gath offs start next).filter (fun y => y.kind == .read) =
      ((shGroups gath offs).zipIdx).map (shRead gath offs start) := by
  have hpair (x : List Nat × Nat) :
      [shRead gath offs start x, { next x.2 x.1 with grp := x.2 }].filter (fun y => y.kind == .read) =
        [shRead gath offs start x] := by
    rw [List.filter_cons_of_pos rfl, List.filter_cons_of_neg (by simpa using hnext x.2 x.1), List.filter_nil]
  calc (shReads gath offs start next).filter (fun y => y.kind == .read)
      = (((shGroups gath offs).zipIdx).flatMap fun x =>
          [shRead gath offs start x, { next x.2 x.1 with grp := x.2 }]).filter (fun y => y.kind == .read) := rfl
    _ = ((shGroups gath offs).zipIdx).flatMap fun x => [shRead gath offs start x] := by
        rw [List.filter_flatMap]; simp only [hpair]
    _ = ((shGroups gath offs).zipIdx).map (shRead gath offs start) := List.map_eq_flatMap.symm

/-- A run that begins at a core joins the core's runs. -/
theorem State.addRun_runs (s : State) (g : CoreId) (r : Run) : ((s.addRun g r).core g).runs = (s.core g).runs ++ [r] := by
  rw [State.addRun, State.modCore_core_self]

/-- The run of a leg at the core that holds its source: the reads of its stream begin there when the leg's request has come, and
after each follows the step that `next` makes. -/
def State.legRun (s : State) (g : CoreId) (e : Nat) (t : Transfer) (part : Nat) (dest : RunDest)
    (next : Nat → List Nat → RunStep) : Run :=
  let l := s.leg g t part
  let hs := l.src.core g
  { owner := .leg (s.ackTo g e t part) t.shu, dest := dest, order := startOrder s.now g t.shu, chain := false, start := s.now
    into := l.into, steps := shReads l.src.gath l.from' (s.now + if hs = g then 0 else meshLat g hs) next }

/-- A leg with its source in the package begins its run there; its reads are followed by steps that write or pass on, and its
transfer notes what is outstanding. -/
theorem State.runLeg_eq_addRun {s : State} {g : CoreId} {t : Transfer} {part : Nat} (e : Nat)
    (hsrc : (s.leg g t part).src.remote = false) :
    ∃ dest next note,
      s.runLeg g e t part = (s.addRun ((s.leg g t part).src.core g) (s.legRun g e t part dest next)).modTr g e note ∧
      ∀ k places, (next k places).kind ≠ .read := by
  have hnear := Bool.eq_false_iff.1 hsrc
  by_cases hfar : (s.leg g t part).dst.remote = true
  · exact ⟨_, _, _, (if_neg hnear).trans (if_pos hfar), fun _ _ => nofun⟩
  · by_cases hsame : (s.leg g t part).src.core g = (s.leg g t part).dst.core g
    · by_cases hstaged : (s.leg g t part).staged = true
      · exact ⟨_, _, _, (if_neg hnear).trans ((if_neg hfar).trans ((if_pos hsame).trans (if_pos hstaged))), fun _ _ => nofun⟩
      · exact ⟨_, _, _, (if_neg hnear).trans ((if_neg hfar).trans ((if_pos hsame).trans (if_neg hstaged))), fun _ _ => nofun⟩
    · exact ⟨_, _, _, (if_neg hnear).trans ((if_neg hfar).trans (if_neg hsame)), fun _ _ => nofun⟩

/-- A link failure or refusal that reaches a live transfer abandons it (R333). -/
theorem State.linkFailed_of_live {s : State} {a : AckTo} (cause : Nat) (h : s.live a = true) :
    s.linkFailed a cause = s.abandon a.core a.entry cause := if_pos h

/-- Settles O45: each command by its law; the reads of a leg are the steps of its run that read. -/
theorem transfersTakeStartAndEnd : Obligations.TransfersTakeStartAndEnd := by
  intro s g
  refine ⟨?take, fun x h => ⟨Core.mem_cancelled _ _ _, congrArg Host.Outcome.next (State.shCancel_of_next h)⟩,
    fun e t htr => ⟨fun hgated hready hfirst => congrArg Host.Outcome.next (State.gateReady_of_ready htr hgated hready hfirst),
      fun _ hready => congrArg Host.Outcome.next (State.gateReady_of_wait htr hready),
      fun a hphase ha hpro hstarted hlast => congrArg Host.Outcome.next
        (State.transferStart_of_ready htr hphase ha hpro hstarted fun b hb => ?last),
      fun a hphase ha => congrArg Host.Outcome.next (State.transferStart_of_early htr hphase ha), fun part hsrc => ?leg,
      fun f hfirst hawaits hlate => congrArg Host.Outcome.next (State.transferTimeout_of_late htr hfirst hawaits hlate),
      fun hawaits => congrArg Host.Outcome.next (State.transferTimeout_of_answered htr hawaits),
      fun hfirst => congrArg Host.Outcome.next (State.transferTimeout_of_unsent htr hfirst)⟩,
    fun a cause hlive => State.linkFailed_of_live cause hlive⟩
  case take =>
    intro e he x n h hfree
    have hexec : exec e.2 s = .next (s.shTake g e.1) := by
      obtain rfl | rfl : e = _ ∨ e = _ := by simpa using he
      · rfl
      · rfl
    exact ⟨hexec.trans (congrArg Host.Outcome.next (State.shTake_of_next h hfree)), State.takeEntry_trk hfree ..⟩
  case last => rwa [hb] at hlast
  case leg =>
    obtain ⟨dest, next, note, hrun, hnext⟩ := State.runLeg_eq_addRun e.val hsrc
    exact ⟨_, _, hrun, by rw [State.modTr_runs, State.addRun_runs], rfl, rfl, shReads_filter_read _ _ _ hnext⟩

end Sys2Proof.Machine
end

section
/-! PROOFS. What crosses the mesh (01 R25–R28, 10 R321–R323): the slots of a rotation, the beats that leave and land in them, and
the staged lines and acknowledgements that arrive (02 R71–R73, 03 R130, 08 R278, 09 R283, R305). -/

namespace Sys2Proof.Machine

/-! ## The slots of a rotation (Table 10.6) -/

/-- The slots of each class in each clk of the rotation, by preset. -/
theorem slotsOf_rotation : ∀ c < 16,
    [slotsOf 0 c .read, slotsOf 1 c .read, slotsOf 2 c .read, slotsOf 3 c .read] =
      [1 + (c + 1) % 2, 2 + (if c % 4 = 0 then 1 else 0), if c % 4 = 0 then 0 else 1, 1] ∧
    [slotsOf 0 c .write, slotsOf 1 c .write, slotsOf 2 c .write, slotsOf 3 c .write] =
      [1 + c % 2, if c % 4 = 0 then 0 else 1, 2 + (if c % 4 = 0 then 1 else 0), 1] ∧
    ∀ p < 4, slotsOf p c .service = c / 15 ∧ slotsOf p c .service + slotsOf p c .remote = (if p = 3 then 2 else 1) := by
  decide

/-- Without a slot of the class no beat leaves. -/
theorem State.meshBeatSend_of_no_slot {s : State} {g : CoreId} {cls : SlotClass} (h : s.slotFree g cls = false) :
    s.meshBeatSend g cls = s := if_pos (Bool.not_eq_true' _ ▸ h)

/-! ## Beats that leave (R322, R323) -/

/-- Where a change changes nothing of a core, what follows it is a slot used and one more change. -/
theorem State.useSlot_modCore_of_eq {s : State} {g : CoreId} {f₁ : Core → Core} (h : f₁ (s.core g) = s.core g)
    (cls : SlotClass) (f₂ : Core → Core) :
    ((s.modCore g f₁).useSlot g cls).modCore g f₂ = s.modCore g fun c => f₂ { c with slotsUsed := cls :: c.slotsUsed } := by
  rw [State.useSlot, State.modCore_modCore, State.modCore_modCore, State.modCore, State.modCore, h]

/-- With no beat of an ended transfer at the core, the earliest beat that is ready takes the write slot and sets out for its
destination. -/
theorem State.meshBeatSend_of_write {s : State} {g : CoreId} {b : Beat} (hslot : s.slotFree g .write = true)
    (hlive : ∀ b ∈ (s.core g).meshOut, s.beatLive b.body = true)
    (hleast : leastBy (·.order) ((s.core g).meshOut.filter fun b => b.due ≤ s.now) = some b) :
    s.meshBeatSend g .write =
      (s.modCore g fun c => { c with meshOut := c.meshOut.erase b, slotsUsed := .write :: c.slotsUsed }).modCore b.dst fun c =>
        { c with beatsIn := c.beatsIn ++ [{ b with due := s.now + meshLat g b.dst }] } := by
  have hkeep : (s.core g).meshOut.filter (fun b => s.beatLive b.body) = (s.core g).meshOut := List.filter_eq_self.2 hlive
  have hsame : { s.core g with meshOut := (s.core g).meshOut.filter fun b => s.beatLive b.body } = s.core g := by rw [hkeep]
  simp only [State.meshBeatSend, hslot, Bool.not_true, Bool.false_eq_true, if_false, State.modCore_core_self, hkeep, hleast]
  exact congrArg (fun u => State.modCore u b.dst _) (State.useSlot_modCore_of_eq hsame _ _)

/-- With no beat of an ended transfer at the core, the earliest remote beat that is ready takes the remote slot and leaves. -/
theorem State.meshBeatSend_of_remote {s : State} {g : CoreId} {b : RemoteBeat} (hslot : s.slotFree g .remote = true)
    (hlive : ∀ b ∈ (s.core g).remoteOut, s.remoteLive b.body = true)
    (hleast : leastBy (·.order) ((s.core g).remoteOut.filter fun b => b.due ≤ s.now) = some b) :
    s.meshBeatSend g .remote = (s.modCore g fun c =>
      { c with remoteOut := c.remoteOut.erase b, slotsUsed := .remote :: c.slotsUsed }).remoteLeave g b.body := by
  have hkeep : (s.core g).remoteOut.filter (fun b => s.remoteLive b.body) = (s.core g).remoteOut :=
    List.filter_eq_self.2 hlive
  have hsame : { s.core g with remoteOut := (s.core g).remoteOut.filter fun b => s.remoteLive b.body } = s.core g := by
    rw [hkeep]
  simp only [State.meshBeatSend, hslot, Bool.not_true, Bool.false_eq_true, if_false, State.modCore_core_self, hkeep, hleast]
  exact congrArg (fun u => State.remoteLeave u g b.body) (State.useSlot_modCore_of_eq hsame _ _)

/-! ## Beats that land (R28, R130, R305, R323) -/

/-- Of the class's beats that have come, only those of transfers that have not ended remain. -/
theorem State.dropDead_live {s : State} {g : CoreId} {cls : SlotClass} {b : Beat}
    (hb : b ∈ ((s.dropDead g cls).core g).beatsIn) (hcls : b.cls = cls) (hdue : b.due ≤ s.now) :
    s.beatLive b.body = true := by
  rw [State.dropDead, State.ccount_core, State.modCore_core_self] at hb
  have hkept := (List.mem_filter.1 hb).2
  simpa [hcls, hdue] using hkept

section
variable {s : State} {g : CoreId} {cls : SlotClass}

/-- In a slot the first beat of the landing queue lands. -/
theorem State.meshBeatLand_of_queue {x : Beat} {t : List Beat} (hfree : (s.dropDead g cls).slotFree g cls = true)
    (hq : ((s.dropDead g cls).core g).landQ (classNum cls) = x :: t) (hdue : x.due ≤ s.now) :
    s.meshBeatLand g cls =
      (((s.dropDead g cls).useSlot g cls).modCore g fun c => c.setLandQ (classNum cls) t).landBeat g x := by
  simp only [State.meshBeatLand, hq, hfree, hdue, decide_true, Bool.and_self, if_true]

/-- In a slot, with the landing queue empty, the beat that has come lands. -/
theorem State.meshBeatLand_of_arrival {b : Beat} (hfree : (s.dropDead g cls).slotFree g cls = true)
    (hq : ((s.dropDead g cls).core g).landQ (classNum cls) = [])
    (harr : ((s.dropDead g cls).core g).beatsIn.find? (fun b => b.cls == cls && decide (b.due ≤ s.now)) = some b) :
    s.meshBeatLand g cls =
      (((s.dropDead g cls).useSlot g cls).modCore g fun c => { c with beatsIn := c.beatsIn.erase b }).landBeat g b := by
  simp only [State.meshBeatLand, hq, harr, hfree, if_true]

/-- Without a slot the beat that has come joins the landing queue of eight, or stays where it is. -/
theorem State.meshBeatLand_of_no_slot {b : Beat} (hfree : (s.dropDead g cls).slotFree g cls = false)
    (harr : ((s.dropDead g cls).core g).beatsIn.find? (fun b => b.cls == cls && decide (b.due ≤ s.now)) = some b) :
    s.meshBeatLand g cls =
      let q := ((s.dropDead g cls).core g).landQ (classNum cls)
      if q.length < 8 then
        (s.dropDead g cls).modCore g fun c =>
          { c.setLandQ (classNum cls) (q ++ [{ b with due := s.now + 1 }]) with beatsIn := c.beatsIn.erase b }
      else s.dropDead g cls := by
  cases hq : ((s.dropDead g cls).core g).landQ (classNum cls) with
  | nil =>
    simp only [State.meshBeatLand, hq, harr, hfree]
    rfl
  | cons x t => simp only [State.meshBeatLand, hq, harr, hfree, Bool.false_and, Bool.false_eq_true, if_false]

/-- With nothing queued and nothing come, only the beats of ended transfers are discarded. -/
theorem State.meshBeatLand_of_none (hq : ((s.dropDead g cls).core g).landQ (classNum cls) = [])
    (harr : ((s.dropDead g cls).core g).beatsIn.find? (fun b => b.cls == cls && decide (b.due ≤ s.now)) = none) :
    s.meshBeatLand g cls = s.dropDead g cls := by
  simp only [State.meshBeatLand, hq, harr]

end

section
variable {s : State} {g : CoreId} {b : Beat} {staged : Bool} {l : List (Nat × Byte)} {a : AckTo} {shu : Fin 4}
  (hbody : b.body = .writes staged l a shu)
include hbody

/-- A captured core counts and discards a write that lands (R278). -/
theorem State.landBeat_of_captured (hcap : (s.core g).captured = true) : s.landBeat g b = s.captureDiscard g := by
  simp only [State.landBeat, hbody, hcap, if_true]

/-- A staged write's lines are presented to the fell buffer in the next clk. -/
theorem State.landBeat_of_staged (hcap : (s.core g).captured = false) (hstaged : staged = true) :
    s.landBeat g b = s.modCore g fun c => { c with stagedIn := c.stagedIn ++ (fellLines l (.shuttle a.core shu)).map fun x =>
      { fell := x, ack := some a, due := s.now + 1 } } := by
  simp only [State.landBeat, hbody, hcap, hstaged, Bool.false_eq_true, if_false, if_true]

/-- A direct write is presented on SH_W in the next clk. -/
theorem State.landBeat_of_direct (hcap : (s.core g).captured = false) (hstaged : staged = false) :
    s.landBeat g b = s.addRun g
      { owner := .beat a, order := b.order, chain := false, start := s.now
        steps := [{ kind := .write, port := 13, due := s.now + 1, dst := l.map (·.1)
                    accs := (groupLines l).map fun e => { line := e.1, mask := maskOf e.2, data := some (dataOf e.2) } }] } := by
  simp only [State.landBeat, hbody, hcap, hstaged, Bool.false_eq_true, if_false]

end

/-! ## Staged lines and acknowledgements (R71–R73, R283, R312) -/

/-- A cause noted for the vote leaves the clk. -/
theorem State.cause_now (s : State) (code voter : Nat) : (s.cause code voter).now = s.now := by
  unfold State.cause
  dsimp only
  split <;> rfl

/-- The count of the lines in use leaves the clk. -/
theorem State.fellUse_now (s : State) (g : CoreId) : (s.fellUse g).now = s.now :=
  congrArg Heddle.now (State.setCreg_heddle ..)

/-- A line that is staged or discarded leaves the clk. -/
theorem State.stageLine_now (s : State) (g : CoreId) (x : FellLine) : (s.stageLine g x).now = s.now := by
  unfold State.stageLine
  dsimp only
  split
  · split
    · exact State.cause_now ..
    · rfl
  · split
    · exact State.cause_now ..
    · exact (State.fellUse_now ..).trans (congrArg Heddle.now (State.modCore_heddle ..))

section
variable {s : State} {g : CoreId} {x : StagedWrite} (hx : (s.core g).stagedIn.find? (fun x => x.due ≤ s.now) = some x)
include hx

/-- A staged line that no transfer waits for is staged. -/
theorem State.stagedArrive_of_no_ack (hack : x.ack = none) (hcap : (s.core g).captured = false) :
    s.stagedArrive g = (s.modCore g fun c => { c with stagedIn := c.stagedIn.erase x }).stageLine g x.fell := by
  simp only [State.stagedArrive, hx, hack, hcap, Bool.false_eq_true, if_false]

/-- A staged line of a transfer that has ended is discarded. -/
theorem State.stagedArrive_of_dead {a : AckTo} (hack : x.ack = some a) (hlive : s.live a = false) :
    s.stagedArrive g = s.modCore g fun c => { c with stagedIn := c.stagedIn.erase x } := by
  simp only [State.stagedArrive, hx, hack, hlive, Bool.not_false, if_true]

/-- A staged line of a live transfer is staged, and its acknowledgement sets out. -/
theorem State.stagedArrive_of_live {a : AckTo} (hack : x.ack = some a) (hlive : s.live a = true)
    (hcap : (s.core g).captured = false) :
    s.stagedArrive g =
      ((s.modCore g fun c => { c with stagedIn := c.stagedIn.erase x }).stageLine g x.fell).modCore a.core fun c =>
        { c with acksIn := c.acksIn ++ [{ ack := a, due := s.now + meshLat g a.core, own := g == a.core }] } := by
  simp only [State.stagedArrive, hx, hack, hlive, hcap, Bool.not_true, Bool.false_eq_true, if_false, State.sendAck,
    State.stageLine_now]
  rfl

end

section
variable {s : State} {g : CoreId} {x : AckMsg} (hx : (s.core g).acksIn.find? (fun x => x.due ≤ s.now) = some x)
include hx

/-- An acknowledgement of a live transfer is counted at its part, and the transfer goes on. -/
theorem State.writeAckArrive_of_live (hlive : s.live x.ack = true) :
    s.writeAckArrive g = (((s.modCore g fun c => { c with acksIn := c.acksIn.erase x }).modTr x.ack.core x.ack.entry fun t =>
      t.paid x.ack.part).advance x.ack.core x.ack.entry) := by
  simp only [State.writeAckArrive, hx, hlive, if_true, State.acked]

/-- An acknowledgement of an ended transfer is counted as stale where it has crossed the mesh. -/
theorem State.writeAckArrive_of_stale (hlive : s.live x.ack = false) :
    s.writeAckArrive g =
      if x.own then s.modCore g fun c => { c with acksIn := c.acksIn.erase x }
      else (s.modCore g fun c => { c with acksIn := c.acksIn.erase x }).ccount g 0x804 1 := by
  simp only [State.writeAckArrive, hx, hlive, Bool.false_eq_true, if_false]

end

/-- Settles O46: each command by its law. One WRITE packet for each line is the model's choice (log entry 24). -/
theorem beatsAndStagedWritesLand : Obligations.BeatsAndStagedWritesLand := by
  refine ⟨slotsOf_rotation, fun s g => ⟨fun _ => rfl, fun cls h => congrArg Host.Outcome.next (State.meshBeatSend_of_no_slot h),
    fun hslot hlive b hleast => ⟨_, congrArg Host.Outcome.next (State.meshBeatSend_of_write hslot hlive hleast), fun hdst => ?sent⟩,
    fun hslot hlive b hleast => ?remote, fun cls => ?land, fun b => ⟨fun staged l a shu hbody => ?writes, fun m hbody => ?message,
      fun hbody => ?messagePart⟩,
    fun x hx => ⟨fun hack hcap => congrArg Host.Outcome.next (State.stagedArrive_of_no_ack hx hack hcap),
      fun a hack hlive => congrArg Host.Outcome.next (State.stagedArrive_of_dead hx hack hlive),
      fun a hack hlive hcap => congrArg Host.Outcome.next (State.stagedArrive_of_live hx hack hlive hcap)⟩,
    fun x hx => ⟨fun hlive => congrArg Host.Outcome.next (State.writeAckArrive_of_live hx hlive),
      fun hlive => congrArg Host.Outcome.next (State.writeAckArrive_of_stale hx hlive)⟩⟩⟩
  case sent =>
    rw [State.modCore_core_self, State.modCore_core, if_neg hdst, State.modCore_core, if_neg hdst.symm, State.modCore_core_self]
    exact ⟨rfl, rfl, rfl⟩
  case remote =>
    have hsend := State.meshBeatSend_of_remote hslot hlive hleast
    exact ⟨fun pkg l a hbody => congrArg Host.Outcome.next (hsend.trans (by rw [hbody]; rfl)),
      fun n h d hbody => congrArg Host.Outcome.next (hsend.trans (by rw [hbody]; rfl)),
      fun n h hbody => congrArg Host.Outcome.next (hsend.trans (by rw [hbody]; rfl))⟩
  case land =>
    exact ⟨fun b hb hcls hdue => State.dropDead_live hb hcls hdue,
      fun x t hfree hq hdue => congrArg Host.Outcome.next (State.meshBeatLand_of_queue hfree hq hdue),
      fun b hfree hq harr => congrArg Host.Outcome.next (State.meshBeatLand_of_arrival hfree hq harr),
      fun b hfree harr => congrArg Host.Outcome.next (State.meshBeatLand_of_no_slot hfree harr),
      fun hq harr => congrArg Host.Outcome.next (State.meshBeatLand_of_none hq harr)⟩
  case writes =>
    exact ⟨fun hcap => State.landBeat_of_captured hbody hcap, fun hcap hstaged => State.landBeat_of_staged hbody hcap hstaged,
      fun hcap hstaged => ⟨_, State.landBeat_of_direct hbody hcap hstaged, rfl, _, rfl, rfl, rfl, rfl⟩⟩
  case message => simp only [State.landBeat, hbody]
  case messagePart => simp only [State.landBeat, hbody]

end Sys2Proof.Machine
end

section
/-! PROOFS. The doorbells and the settings of a spool (09 R305; 11 §11.3, R347, R351, R361, R369), and the changes of its STATE
(R350, R360). -/

namespace Sys2Proof.Machine

open Sys2Proof.Claims

/-! ## The clocks beside the spools' registers -/

/-- The registers of a spool lie below those of the Heddle. -/
theorem spoolReg_lt (td : Td) (sp : SpoolId) {o : Nat} (ho : o < 0x40) : spoolReg td sp o < 0xC2000000 := by
  have htd := td.isLt
  have hsp := sp.isLt
  simp only [spoolReg, trd]
  omega

/-- Two registers of one spool at different offsets. -/
theorem spoolReg_ne (td : Td) (sp : SpoolId) {o p : Nat} (h : o ≠ p) : spoolReg td sp o ≠ spoolReg td sp p := by
  simp only [spoolReg, trd]
  omega

/-- A write of a spool's register leaves the core clocks. -/
theorem State.setSreg_clocksRun (s : State) (td : Td) (sp : SpoolId) {o : Nat} (v : Nat) (ho : o < 0x40) :
    (s.setSreg td sp o v).clocksRun = s.clocksRun := by
  have hne : 0xC2001104 ≠ spoolReg td sp o := by
    have := spoolReg_lt td sp ho
    omega
  have hpwr : (s.setSreg td sp o v).pwrState = s.pwrState := congrArg (fld · 2 0) (State.setReg_getReg_ne s _ hne)
  rw [State.clocksRun, hpwr]
  rfl

/-- A change of a spool's logic leaves the core clocks. -/
theorem State.modSpool_clocksRun (s : State) (td : Td) (sp : SpoolId) (f : Spool → Spool) :
    (s.modSpool td sp f).clocksRun = s.clocksRun := by
  unfold State.modSpool State.setSpool State.setTd
  split <;> rfl

/-- A change of a spool's logic leaves the clk. -/
theorem State.modSpool_now (s : State) (td : Td) (sp : SpoolId) (f : Spool → Spool) : (s.modSpool td sp f).now = s.now :=
  congrArg Heddle.now (State.setSpool_heddle ..)

/-- A spool's logic after its change. -/
@[simp] theorem State.modSpool_spool_self (s : State) (td : Td) (sp : SpoolId) (f : Spool → Spool) :
    (s.modSpool td sp f).spool td sp = f (s.spool td sp) := State.setSpool_spool_self ..

/-- A fetch in the clk of an accepted TAIL doorbell still sees the TAIL that the doorbell noted. -/
theorem State.tailSeen_of_rung {s : State} {td : Td} {sp : SpoolId} {tail : Word} (hrung : (s.spool td sp).rung = some (s.now, tail))
    (hclk : s.clocksRun = true) : s.tailSeen td sp = tail.toNat := by
  simp only [State.tailSeen, hrung, hclk, Bool.true_and, beq_self_eq_true, if_true]

/-! ## Doorbells and settings -/

section
variable {s : State} {td : Td} (ha : s.answers (.trd td) = true)
include ha

/-- A TAIL doorbell through the function that decodes the page is accepted by a running spool of bolts with room for the slots
that it adds, and is otherwise counted. -/
theorem State.tailDoorbell_of_answers (sp : SpoolId) (v : Word) :
    s.tailDoorbell td (s.fnOf td sp) sp v =
      if s.spoolState td sp = 1 ∧ s.isReport td sp = false ∧ 0 < sub32 v.toNat (s.sreg td sp 0x18) ∧
          sub32 v.toNat (s.sreg td sp 0x18) ≤ 2 ^ (s.ringSize td sp).1 - sub32 (s.sreg td sp 0x18) (s.sreg td sp 0x20) then
        (s.setSreg td sp 0x18 v.toNat).modSpool td sp fun x =>
          { x with rung := some (s.now, BitVec.ofNat 32 (s.tailSeen td sp)) }
      else s.count (spoolReg td sp 0x38) 1 := by
  have hroom (d r n : Nat) : (0 < d ∧ d ≤ n - r) ↔ (0 < d ∧ d + r ≤ n) := by omega
  simp only [State.tailDoorbell, ha, hroom, Bool.not_true, bne_self_eq_false, Bool.or_false, Bool.false_eq_true, if_false,
    Bool.and_eq_true, beq_iff_eq, Bool.not_eq_true', decide_eq_true_eq, and_assoc, State.dberr]

/-- A THEAD doorbell moves THEAD over tickets that have been written, and is otherwise counted. -/
theorem State.theadDoorbell_of_answers (sp : SpoolId) (v : Word) :
    s.theadDoorbell td (s.fnOf td sp) sp v =
      if sub32 v.toNat (s.spool td sp).thead.toNat ≤ sub32 (s.sreg td sp 0x34) (s.spool td sp).thead.toNat then
        (if sub32 (s.sreg td sp 0x34) v.toNat < 2 ^ (s.ringSize td sp).2 then
          (s.setSpool td sp { s.spool td sp with thead := v }).modReg (spoolReg td sp 0x24) fun x => putBit x 8 false
        else s.setSpool td sp { s.spool td sp with thead := v })
      else s.count (spoolReg td sp 0x38) 1 := by
  simp only [State.theadDoorbell, ha, Bool.not_true, bne_self_eq_false, Bool.or_false, Bool.false_eq_true, if_false, State.dberr]

/-- CFG takes the fields of a legal write while the spool is STOPPED. -/
theorem State.spoolCfg_of_legal {sp : SpoolId} {v : Word} (hst : s.spoolState td sp = 0) (hlo : 6 ≤ fld v 4 0)
    (hhi : fld v 4 0 ≤ 24) (htlo : 6 ≤ fld v 12 8) (hthi : fld v 12 8 ≤ 16) (hrep : bit v 29 = true → td = 0) :
    s.spoolCfg td sp v = s.setSreg td sp 0x10 (v.toNat &&& 0x37FF1F1F) := by
  have hreport : (bit v 29 && td != 0) = false := by
    cases hbit : bit v 29 with
    | false => rfl
    | true => rw [hrep hbit]; rfl
  simp only [State.spoolCfg, ha, hst, hreport, hlo.not_gt, hhi.not_gt, htlo.not_gt, hthi.not_gt, Bool.not_true,
    bne_self_eq_false, decide_false, Bool.or_self, Bool.false_eq_true, if_false]

/-- A HEAD write sets HEAD, TAIL and RELEASE while the spool is STOPPED. -/
theorem State.spoolHead_of_stopped {sp : SpoolId} (v : Word) (hst : s.spoolState td sp = 0) :
    s.spoolHead td sp v = (((s.setSreg td sp 0x1C v.toNat).setSreg td sp 0x18 v.toNat).setSreg td sp 0x20 v.toNat).modSpool
      td sp fun x => { x with rung := none } := by
  simp only [State.spoolHead, ha, hst, Bool.not_true, bne_self_eq_false, Bool.or_self, Bool.false_eq_true, if_false]

/-! ## The states of a spool -/

/-- EN = 1 makes a STOPPED spool RUNNING. -/
theorem State.spoolEnable_of_stopped {sp : SpoolId} (hst : s.spoolState td sp = 0) :
    s.spoolEnable td sp = ((s.setSreg td sp 0x14 1).setSpoolState td sp 1).modSpool td sp fun x =>
      { x with thead := BitVec.ofNat 32 (s.sreg td sp 0x34) } := by
  simp only [State.spoolEnable, ha, hst, Bool.not_true, Bool.false_eq_true, if_false]

/-- EN = 1 sets RESTART of a STOPPING spool. -/
theorem State.spoolEnable_of_stopping {sp : SpoolId} (hst : s.spoolState td sp = 2) :
    s.spoolEnable td sp = (s.setSreg td sp 0x14 1).modReg (spoolReg td sp 0x24) fun v => putBit v 2 true := by
  simp only [State.spoolEnable, ha, hst, Bool.not_true, Bool.false_eq_true, if_false]

/-- EN = 0 makes a RUNNING or HALTED spool STOPPING, with its header reads unwanted and its waiting bolts aborted. -/
theorem State.spoolDisable_of_running {sp : SpoolId} (hst : s.spoolState td sp = 1 ∨ s.spoolState td sp = 3) :
    s.spoolDisable td sp = ((s.spool td sp).bolts.filter fun b => b.phase == .waiting).foldl (fun t b => t.finishBolt td sp b 11)
      (((s.setSreg td sp 0x14 0).setSpoolState td sp 2).modSpool td sp Spool.stopReads) := by
  have hspool : ((s.setSreg td sp 0x14 0).setSpoolState td sp 2).spool td sp = s.spool td sp := rfl
  have hdis : s.spoolDisable td sp =
      (((s.setSreg td sp 0x14 0).setSpoolState td sp 2).modSpool td sp Spool.stopReads).abortWaiting td sp := by
    obtain h | h := hst <;> simp only [State.spoolDisable, ha, h, Bool.not_true, Bool.false_eq_true, if_false]
  rw [hdis, State.abortWaiting, State.modSpool_spool_self, hspool, Spool.stopReads]

/-- EN = 0 clears RESTART of a STOPPING spool. -/
theorem State.spoolDisable_of_stopping {sp : SpoolId} (hst : s.spoolState td sp = 2) :
    s.spoolDisable td sp = (s.setSreg td sp 0x14 0).modReg (spoolReg td sp 0x24) fun v => putBit v 2 false := by
  simp only [State.spoolDisable, ha, hst, Bool.not_true, Bool.false_eq_true, if_false]

end

/-- A STOPPING spool without bolts is STOPPED, or RUNNING where RESTART is set. -/
theorem State.spoolStopped_of_empty {s : State} {td : Td} {sp : SpoolId} (hst : s.spoolState td sp = 2)
    (hbolts : (s.spool td sp).bolts = []) :
    s.spoolStopped td sp = s.modReg (spoolReg td sp 0x24) fun v =>
      if bit v 2 then putBit (putFld v 1 0 1) 2 false else putFld v 1 0 0 := by
  simp only [State.spoolStopped, hst, hbolts, List.isEmpty_nil, beq_self_eq_true, Bool.and_self, if_true]

/-- Settles O16: each doorbell and each write by its law; a fetch of the clk sees what the accepted doorbell noted of TAIL. -/
theorem doorbellsAndSettingsOfSpools : Obligations.DoorbellsAndSettingsOfSpools := by
  intro s td sp v ha
  have htail := State.tailDoorbell_of_answers ha sp v
  have hthead := State.theadDoorbell_of_answers ha sp v
  refine ⟨⟨fun hrun hrep hpos hroom => ?accepted, fun h => congrArg Host.Outcome.next (htail.trans (if_neg ?refused))⟩,
    ⟨fun hle => congrArg Host.Outcome.next (hthead.trans (if_pos hle)),
      fun hlt => congrArg Host.Outcome.next (hthead.trans (if_neg hlt.not_ge))⟩,
    fun hst => ⟨fun hlo hhi htlo hthi hrep => congrArg Host.Outcome.next (State.spoolCfg_of_legal ha hst hlo hhi htlo hthi hrep),
      congrArg Host.Outcome.next (State.spoolHead_of_stopped ha v hst)⟩⟩
  case accepted =>
    have hnext := htail.trans (if_pos ⟨hrun, hrep, hpos, hroom⟩)
    refine ⟨congrArg Host.Outcome.next hnext, fun hclk t ht => ?_⟩
    obtain rfl := Host.Outcome.next.inj (ht.symm.trans (congrArg Host.Outcome.next hnext))
    rw [State.tailSeen_of_rung (tail := BitVec.ofNat 32 (s.tailSeen td sp)), BitVec.toNat_ofNat]
    · rw [State.modSpool_spool_self, State.modSpool_now]
      rfl
    · rw [State.modSpool_clocksRun, State.setSreg_clocksRun _ _ _ _ (by decide), hclk]
  case refused =>
    rintro ⟨hrun, hrep, hpos, hroom⟩
    obtain h | h | h | h := h
    · exact h hrun
    · exact Bool.false_ne_true (hrep.symm.trans h)
    · exact hpos.ne' h
    · exact h.not_ge hroom

/-- Settles O17: each change of STATE by its law. -/
theorem spoolStateChanges : Obligations.SpoolStateChanges := fun _ _ _ ha =>
  ⟨fun hst => congrArg Host.Outcome.next (State.spoolEnable_of_stopped ha hst),
    fun hst => congrArg Host.Outcome.next (State.spoolEnable_of_stopping ha hst),
    fun hst => congrArg Host.Outcome.next (State.spoolDisable_of_running ha hst),
    fun hst => congrArg Host.Outcome.next (State.spoolDisable_of_stopping ha hst),
    fun hst hbolts => congrArg Host.Outcome.next (State.spoolStopped_of_empty hst hbolts)⟩

end Sys2Proof.Machine
end

section
/-! PROOFS. Bolt headers (11 §11.3, §11.4): the read at HEAD (R305, R338, R348, R366), what becomes of its answer (R348, R349,
R352–R356, R359, R367), and the start of the first waiting bolt (R355–R358, R488). -/

namespace Sys2Proof.Machine

open Sys2Proof.Claims

/-! ## The header at HEAD -/

/-- A RUNNING spool of bolts without a wanted header read reads the header at HEAD, where doorbells of earlier clk cover it. -/
theorem State.boltFetch_of_ready {s : State} {td : Td} {sp : SpoolId} (ha : s.answers (.trd td) = true)
    (hrun : s.spoolState td sp = 1) (hrep : s.isReport td sp = false) (hmaster : s.master td (s.fnOf td sp) = true)
    (hhead : s.sreg td sp 0x1C ≠ s.tailSeen td sp) (hreads : true ∉ (s.spool td sp).reads)
    (hshort : ∀ n : Word, (s.spool td sp).short = some n → n.toNat ≤ sub32 (s.tailSeen td sp) (s.sreg td sp 0x1C))
    (hheld : s.held td sp < Config.heldTickets) (hopen : s.openReads td (s.fnOf td sp) < Config.openReadCap) :
    s.boltFetch td sp =
      (s.setSpool td sp { s.spool td sp with reads := (s.spool td sp).reads ++ [true], short := none }).emit (.hostRead td
        (BitVec.ofNat 64 (s.sreg td sp 0x00 + s.sreg td sp 0x1C % 2 ^ (s.ringSize td sp).1 * 64)) 64) := by
  have hwanted : (s.spool td sp).reads.contains true = false := by simpa using hreads
  unfold State.boltFetch
  refine if_pos ?_
  simp only [ha, hrun, hrep, hmaster, hwanted, bne_iff_ne.2 hhead, decide_eq_true hheld, decide_eq_true hopen, beq_self_eq_true,
    Bool.not_false, Bool.true_and, Bool.and_true]
  cases hslots : (s.spool td sp).short with
  | none => rfl
  | some n => exact decide_eq_true (hshort n hslots)

/-- The state after an answer, wanted or not, to the oldest header read. -/
abbrev State.headerTaken (s : State) (td : Td) (sp : SpoolId) : State :=
  s.setSpool td sp { s.spool td sp with reads := (s.spool td sp).reads.drop 1 }

/-- A good answer that is no longer wanted has no effect. -/
theorem State.headerArrive_of_unwanted {s : State} {td : Td} {sp : SpoolId} {rest : List Bool}
    (h : (s.spool td sp).reads = false :: rest ∨ ((s.spool td sp).reads = true :: rest ∧ s.spoolState td sp ≠ 1)) (l : List Byte) :
    s.headerArrive td sp (some l) = s.headerTaken td sp := by
  obtain hreads | ⟨hreads, hst⟩ := h
  · simp only [State.headerArrive, State.headerRead, State.headerTaken, hreads, reduceCtorEq, List.headD_cons, Bool.false_and,
      Bool.not_false, if_false, if_true]
  · simp only [State.headerArrive, State.headerRead, State.headerTaken, hreads, beq_eq_false_iff_ne.2 hst, reduceCtorEq,
      Bool.and_false, Bool.not_false, if_false, if_true]

section
variable {s : State} {td : Td} {sp : SpoolId} {rest : List Bool} (hreads : (s.spool td sp).reads = true :: rest)
  (hrun : s.spoolState td sp = 1)
include hreads hrun

/-- The oldest header read of a RUNNING spool, where it is wanted, is answered. -/
theorem State.headerRead_of_wanted : s.headerRead td sp = (s.headerTaken td sp, true) := by
  simp only [State.headerRead, State.headerTaken, hreads, hrun, List.headD_cons, beq_self_eq_true, Bool.and_self]

/-- A wanted header read that fails halts the spool. -/
theorem State.headerArrive_of_failed :
    s.headerArrive td sp none = ((s.headerTaken td sp).haltSpool td sp 2).aerReport td (s.fnOf td sp) true := by
  have hne : (s.spool td sp).reads ≠ [] := hreads ▸ List.cons_ne_nil true rest
  simp only [State.headerArrive, if_neg hne, State.headerRead_of_wanted hreads hrun, if_true]

/-- A wanted header halts the spool where its SLOTS are impossible, waits for the doorbells that cover it, or is fetched. -/
theorem State.headerArrive_of_wanted (l : List Byte) :
    s.headerArrive td sp (some l) =
      if (parseBolt l).slots = 0 ∨ 2 ^ (s.ringSize td sp).1 < (parseBolt l).slots.toNat then (s.headerTaken td sp).haltSpool td sp 1
      else if sub32 (s.sreg td sp 0x18) (s.sreg td sp 0x1C) < (parseBolt l).slots.toNat then
        (s.headerTaken td sp).modSpool td sp fun y => { y with short := some (parseBolt l).slots }
      else (s.headerTaken td sp).fetched td sp (parseBolt l) := by
  have hne : (s.spool td sp).reads ≠ [] := hreads ▸ List.cons_ne_nil true rest
  simp only [State.headerArrive, if_neg hne, State.headerRead_of_wanted hreads hrun, Bool.not_true, Bool.false_eq_true, if_false]

/-- A wanted header read that times out halts the spool, where the function's completion timeout is enabled. -/
theorem State.completionTimeout_of_header (hcto : (s.fn td (s.fnOf td sp)).ctoOff = false) :
    s.completionTimeout td sp false = ((s.headerTaken td sp).haltSpool td sp 2).aerReport td (s.fnOf td sp) false := by
  have hne : (s.spool td sp).reads ≠ [] := hreads ▸ List.cons_ne_nil true rest
  simp only [State.completionTimeout, hcto, if_neg hne, State.headerRead_of_wanted hreads hrun, Bool.false_eq_true, if_false, if_true]

end

/-! ## A covered header -/

/-- The pick in progress depends on the Heddle alone. -/
theorem State.setSpool_curPick (s : State) (td : Td) (sp : SpoolId) (x : Spool) : (s.setSpool td sp x).curPick = s.curPick := by
  unfold State.setSpool State.setTd
  split <;> rfl

/-- A header whose SEQ the spool has seen is a replay. -/
theorem State.fetched_of_replay {s : State} {td : Td} {sp : SpoolId} {h : BoltHdr} (hseq : h.seq.toNat ≤ s.sreg td sp 0x28) :
    s.fetched td sp h = (queued s td sp h).finishBolt td sp (newBolt s td sp h) 2 := if_pos hseq

section
variable {s : State} {td : Td} {sp : SpoolId} {h : BoltHdr} (hseq : s.sreg td sp 0x28 < h.seq.toNat)
include hseq

/-- A new header that fails a check completes with the check's status. -/
theorem State.fetched_of_bad {st : Nat} (hcheck : s.boltCheck h = some st) :
    s.fetched td sp h = (entersHistory (queued s td sp h) td sp h.seq).finishBolt td sp (newBolt s td sp h) st := by
  simp only [State.fetched, if_neg hseq.not_ge, hcheck]

variable (hcheck : s.boltCheck h = none)
include hcheck

/-- A FENCE starts at its fetch. -/
theorem State.fetched_of_fence (hop : h.op = 4) :
    s.fetched td sp h = (entersHistory (queued s td sp h) td sp h.seq).modBolt td sp (newBolt s td sp h).num fun y =>
      { y with phase := .started } := by
  simp only [State.fetched, if_neg hseq.not_ge, hcheck, if_pos hop]

/-- A landing bolt of a pick that is not later than the one in progress completes PAST at its fetch. -/
theorem State.fetched_of_past {c : Nat} (hop : h.op ≠ 4) (hcur : s.curPick = some c) (hlands : h.lands = true)
    (hpast : earlier48 c h.pickId = false) :
    s.fetched td sp h = (entersHistory (queued s td sp h) td sp h.seq).finishBolt td sp (newBolt s td sp h) 8 := by
  simp only [State.fetched, if_neg hseq.not_ge, hcheck, if_neg hop, hcur, hlands, hpast, Bool.not_false, Bool.and_self, if_true]

/-- Every other good bolt waits. -/
theorem State.fetched_of_waiting (hop : h.op ≠ 4)
    (hlater : ∀ c : Nat, s.curPick = some c → h.lands = false ∨ earlier48 c h.pickId = true) :
    s.fetched td sp h = entersHistory (queued s td sp h) td sp h.seq := by
  simp only [State.fetched, if_neg hseq.not_ge, hcheck, if_neg hop]
  cases hcur : s.curPick with
  | none => rfl
  | some c =>
    have hwait : (h.lands && !earlier48 c h.pickId) = false := by
      obtain hl | hl := hlater c hcur <;> rw [hl]
      · rfl
      · exact Bool.and_false _
    exact if_neg (Bool.eq_false_iff.1 hwait)

end

/-- The headers' reads and answers by their laws. -/
theorem headersAreRead (s : State) (td : Td) (sp : SpoolId) : HeadersAreRead s td sp := by
  refine ⟨fun ha hrun hrep hmaster hhead hreads hshort hheld hopen =>
      congrArg Host.Outcome.next (State.boltFetch_of_ready ha hrun hrep hmaster hhead hreads hshort hheld hopen),
    fun rest h l => congrArg Host.Outcome.next (State.headerArrive_of_unwanted h l),
    fun rest hreads hrun => ⟨congrArg Host.Outcome.next (State.headerArrive_of_failed hreads hrun),
      fun hcto => congrArg Host.Outcome.next (State.completionTimeout_of_header hreads hrun hcto), fun l => ?_⟩⟩
  have harr := State.headerArrive_of_wanted hreads hrun l
  refine ⟨fun hform => congrArg Host.Outcome.next (harr.trans (if_pos hform)), fun hpos hle => ?_⟩
  replace harr := harr.trans (if_neg (not_or.2 ⟨hpos, hle.not_gt⟩))
  refine ⟨fun hlt => congrArg Host.Outcome.next (harr.trans (if_pos hlt)), fun hcov => ?_⟩
  replace harr := harr.trans (if_neg hcov.not_gt)
  have hcur : (s.headerTaken td sp).curPick = s.curPick := State.setSpool_curPick ..
  exact ⟨fun hseq => congrArg Host.Outcome.next (harr.trans (State.fetched_of_replay hseq)),
    fun hseq st hcheck => congrArg Host.Outcome.next (harr.trans (State.fetched_of_bad hseq hcheck)),
    fun hseq hcheck hop => congrArg Host.Outcome.next (harr.trans (State.fetched_of_fence hseq hcheck hop)),
    fun hseq hcheck hop => ⟨fun ⟨c, hc, hlands, hpast⟩ =>
        congrArg Host.Outcome.next (harr.trans (State.fetched_of_past hseq hcheck hop (hcur.trans hc) hlands hpast)),
      fun hlater => congrArg Host.Outcome.next
        (harr.trans (State.fetched_of_waiting hseq hcheck hop fun c hc => hlater c (hcur.symm.trans hc)))⟩⟩

/-! ## The start of a bolt -/

/-- The pick in which a bolt acts: a landing one in the pick it names, a copy in the next. -/
abbrev BoltHdr.actionPick (h : BoltHdr) : Nat := if h.lands then h.pickId else (h.pickId + 1) % 2 ^ 48

section
variable {s : State} {td : Td} {sp : SpoolId} {b : Bolt} {c : Nat}
  (hb : (s.spool td sp).bolts.find? (fun b => b.phase == .waiting) = some b) (hc : s.curPick = some c)
include hb hc

/-- Before its action pick a bolt waits. -/
theorem State.boltStart_of_early (h : earlier48 c b.hdr.actionPick = true) : s.boltStart td sp = s := by
  simp only [State.boltStart, hb, hc, h, if_true]

/-- After its action pick a bolt completes PAST. -/
theorem State.boltStart_of_past (h : earlier48 c b.hdr.actionPick = false) (hne : b.hdr.actionPick ≠ c) :
    s.boltStart td sp = s.finishBolt td sp b 8 := by
  simp only [State.boltStart, hb, hc, h, bne_iff_ne.2 hne, Bool.false_eq_true, if_false, if_true]

/-- In its action pick a bolt whose core does not work completes BADRANGE, a landing one takes its lines of the quota, and a copy
has the fate of its source pick. -/
theorem State.boltStart_of_now (hnow : earlier48 c b.hdr.actionPick = false) (heq : b.hdr.actionPick = c) :
    s.boltStart td sp =
      if s.works b.hdr.core = false then s.finishBolt td sp b 10
      else if b.hdr.lands = true then s.startLand td sp b
      else if s.heddle.srcFate = 2 then s.finishBolt td sp b 4
      else if s.heddle.srcFate = 3 then s.finishBolt td sp b 13
      else if s.heddle.phase = .window then s.finishBolt td sp b 6
      else s.modBolt td sp b.num fun y => { y with phase := .started } := by
  have hnot : (b.hdr.actionPick != c) = false := bne_eq_false_iff_eq.2 heq
  simp only [State.boltStart, hb, hc, hnow, hnot, Bool.false_eq_true, if_false, Bool.not_eq_true', beq_iff_eq]
  refine ite_congr rfl (fun _ => rfl) fun _ => ite_congr rfl (fun _ => rfl) fun _ => ?_
  split
  next h => rw [if_pos h]
  next h => rw [h, if_neg (by decide), if_pos rfl]
  next h2 h3 => rw [if_neg h2, if_neg h3]

end

/-- A waiting bolt by its action pick, its core, its quota and its source. -/
theorem boltsStart (s : State) (td : Td) (sp : SpoolId) : BoltsStart s td sp := by
  intro b c hb hc
  refine ⟨fun h => congrArg Host.Outcome.next (State.boltStart_of_early hb hc h),
    fun h hne => congrArg Host.Outcome.next (State.boltStart_of_past hb hc h hne),
    fun h heq hworks => congrArg Host.Outcome.next ((State.boltStart_of_now hb hc h heq).trans (if_pos hworks)),
    fun h heq hworks hlands => ?lands, fun h heq hworks hlands => ?copy⟩
  all_goals have hstart := (State.boltStart_of_now hb hc h heq).trans (if_neg (Bool.eq_false_iff.not.2 (not_not.2 hworks)))
  case lands =>
    replace hstart := hstart.trans (if_pos hlands)
    exact ⟨fun hover => congrArg Host.Outcome.next (hstart.trans (if_pos hover)),
      fun hfits hop => congrArg Host.Outcome.next (hstart.trans ((if_neg hfits.not_gt).trans (if_neg hop))),
      fun hfits hop => congrArg Host.Outcome.next (hstart.trans ((if_neg hfits.not_gt).trans (if_pos hop)))⟩
  case copy =>
    replace hstart := hstart.trans (if_neg (Bool.eq_false_iff.1 hlands))
    have hcommitted (hfate : s.heddle.srcFate = 1) := hstart.trans ((if_neg (by omega)).trans (if_neg (by omega)))
    exact ⟨fun hfate => congrArg Host.Outcome.next (hstart.trans (if_pos hfate)),
      fun hfate => congrArg Host.Outcome.next (hstart.trans ((if_neg (by omega)).trans (if_pos hfate))),
      fun hfate hwin => congrArg Host.Outcome.next ((hcommitted hfate).trans (if_pos hwin)),
      fun hfate hwin => congrArg Host.Outcome.next ((hcommitted hfate).trans (if_neg hwin))⟩

/-- Settles O18: the headers and the starts apart. That an answer belongs to the oldest read, and that one no longer wanted has no
effect, is the model's choice (log entry 46). -/
theorem boltFetchAndStart : Obligations.BoltFetchAndStart := fun s td sp => ⟨headersAreRead s td sp, boltsStart s td sp⟩

end Sys2Proof.Machine
end

section
/-! PROOFS. Bolts under way and their ends (11 §11.4, §11.5): payloads that arrive or fail (01 R33, R40; R338, R357, R367), the
beats of a copy (R43, R358), fences (R359), and the order of completion (R276, R362). -/

namespace Sys2Proof.Machine

section
variable {s : State} {td : Td} {sp : SpoolId} {b : Bolt}

section
variable (hb : (s.spool td sp).bolts.find? (fun b => b.phase == .started && b.hdr.op == 1 && b.got < b.asked) = some b)
include hb

/-- The bytes that arrive, up to what was requested, are taken and queue as beats. -/
theorem State.payloadArrive_of_bytes (l : List Byte) :
    s.payloadArrive td sp (some l) =
      ((s.modBolt td sp b.num fun y => { y with
          got := y.got + (l.take (b.asked - b.got)).length
          bytes := y.bytes ++ l.take (b.asked - b.got)
          reads := Machine.answered y.reads (l.take (b.asked - b.got)).length }).queueLand td sp b b.got
        (l.take (b.asked - b.got))).askMore td (s.fnOf td sp) := by
  simp only [State.payloadArrive, State.readingBolt, hb]

/-- A payload read that fails fails the bolt. -/
theorem State.payloadArrive_of_failed :
    s.payloadArrive td sp none = ((s.failLand td sp b).aerReport td (s.fnOf td sp) true).askMore td (s.fnOf td sp) := by
  simp only [State.payloadArrive, State.readingBolt, hb]

/-- A payload read that times out fails the bolt, where the function's completion timeout is enabled. -/
theorem State.completionTimeout_of_payload (hcto : (s.fn td (s.fnOf td sp)).ctoOff = false) :
    s.completionTimeout td sp true = ((s.failLand td sp b).aerReport td (s.fnOf td sp) false).askMore td (s.fnOf td sp) := by
  simp only [State.completionTimeout, State.readingBolt, hcto, hb, Bool.false_eq_true, if_false, if_true]

end

/-- The oldest running copy without a waiting beat queues its next one at its core. -/
theorem State.outBeat_of_idle (hb : (s.spool td sp).bolts.find? (fun b => b.phase == .started && b.hdr.op == 3) = some b)
    (hsvc : .out td sp b.hdr.seq ∉ (s.core b.hdr.core).svc) (hport : (s.core b.hdr.core).svcPort ≠ some (.out td sp b.hdr.seq)) :
    s.outBeat td sp = s.modCore b.hdr.core fun c => { c with svc := c.svc ++ [.out td sp b.hdr.seq] } := by
  simp only [State.outBeat, hb, List.contains_eq_mem, hsvc, beq_eq_false_iff_ne.2 hport, decide_false, Bool.or_self,
    Bool.false_eq_true, if_false]

/-- A started FENCE that is the oldest bolt without a ticket completes. -/
theorem State.fenceComplete_of_oldest {t : List Bolt} (hb : (s.spool td sp).bolts = b :: t) (hop : b.hdr.op = 4)
    (hphase : b.phase = .started) : s.fenceComplete td sp = s.finishBolt td sp b 1 := by
  simp only [State.fenceComplete, hb, hop, hphase, and_self, if_true]

end

/-- A spool's bolts and its order of tickets after a completion: only a copy that gets a tag waits for it before its ticket. -/
theorem State.finishBolt_spool (s : State) (td : Td) (sp : SpoolId) (b : Bolt) (st : Nat) :
    (s.finishBolt td sp b st).spool td sp =
      { s.spool td sp with
        bolts := (s.spool td sp).bolts.map fun z =>
          if z.num = b.num then { z with phase := .finished (BitVec.ofNat 8 st), reads := [] } else z
        order := if b.hdr.op = 3 ∧ (st = 1 ∨ st = 6 ∨ st = 7) then (s.spool td sp).order else (s.spool td sp).order ++ [b.num] } := by
  have htag : (b.hdr.op == 3 && (st == 1 || st == 6 || st == 7)) = true ↔ b.hdr.op = 3 ∧ (st = 1 ∨ st = 6 ∨ st = 7) := by
    simp only [Bool.and_eq_true, Bool.or_eq_true, beq_iff_eq, or_assoc]
  simp only [State.finishBolt, htag, State.modBolt, beq_iff_eq]
  split <;> simp only [State.modSpool, State.setSpool_spool_self]

/-- Settles O19: each command by its law. That answers come in the order of the requests, so that those of a spool are for its oldest
started bolt and its oldest reads, is the model's choice (log entry 46). -/
theorem payloadsCopiesAndFences : Obligations.PayloadsCopiesAndFences := by
  intro s td sp b
  refine ⟨fun hb => ⟨fun l => congrArg Host.Outcome.next (State.payloadArrive_of_bytes hb l),
      congrArg Host.Outcome.next (State.payloadArrive_of_failed hb),
      fun hcto => congrArg Host.Outcome.next (State.completionTimeout_of_payload hb hcto),
      fun hcto => congrArg Host.Outcome.next (if_pos hcto : s.completionTimeout td sp true = s)⟩,
    fun hb hsvc hport => congrArg Host.Outcome.next (State.outBeat_of_idle hb hsvc hport),
    fun t hb hop hphase => congrArg Host.Outcome.next (State.fenceComplete_of_oldest hb hop hphase), fun st => ?_⟩
  rw [State.finishBolt_spool]
  exact ⟨rfl, rfl⟩

end Sys2Proof.Machine
end

section
/-! PROOFS. Tickets (11 §11.5): the next report or completed bolt of a spool (R349, R353, R361–R363, 02 R90), its ticket of
Table 11.7, and its way to the ring or into the count of lost ones (R371). -/

namespace Sys2Proof.Machine

open Sys2Proof.Claims

/-- The ticket of Table 11.7. -/
theorem Bolt.ticket_eq (b : Bolt) (sp : SpoolId) (orig phase release : Nat) :
    b.ticket sp orig phase release = ticketBytes b sp orig phase release := by
  simp only [Bolt.ticket, Bolt.moved, ticketBytes, Bool.or_eq_true, Bool.and_eq_true, beq_iff_eq, or_assoc]

/-- A ticket leaves for the slot that DONE names. -/
theorem State.putTicket_eq (s : State) (td : Td) (sp : SpoolId) (seq : Dword) (irq : Bool) (t : List Byte) :
    s.putTicket td sp seq irq t = ticketLeaves s td sp (s.sreg td sp 0x34) seq irq t := rfl

/-- A spool's register after a change of its logic. -/
theorem State.setSpool_sreg (s : State) (td : Td) (sp : SpoolId) (x : Spool) (o : Nat) :
    (s.setSpool td sp x).sreg td sp o = s.sreg td sp o := congrArg BitVec.toNat (State.setSpool_getReg ..)

/-- A spool's register after a write of another. -/
theorem State.setSreg_sreg_ne (s : State) (td : Td) (sp : SpoolId) {o p : Nat} (v : Nat) (h : o ≠ p) :
    (s.setSreg td sp p v).sreg td sp o = s.sreg td sp o :=
  congrArg BitVec.toNat (State.setReg_getReg_ne s _ (spoolReg_ne td sp h))

/-- The ring of a spool has no free slot for a ticket that its function could write. -/
abbrev State.ringFull (s : State) (td : Td) (sp : SpoolId) : Prop :=
  s.master td (s.fnOf td sp) = true ∧ 6 ≤ (s.ringSize td sp).2 ∧
    sub32 (s.sreg td sp 0x34) (s.spool td sp).thead.toNat = 2 ^ (s.ringSize td sp).2

/-- A completed bolt's ticket waits for the digest of what landed, while its function could write it. -/
abbrev State.tagDue (s : State) (td : Td) (sp : SpoolId) (b : Bolt) : Prop :=
  b.hdr.lands = true ∧ b.status = 1 ∧ b.digest = none ∧ s.master td (s.fnOf td sp) = true

/-- The spool's logic when a bolt leaves it with its ticket. -/
abbrev Spool.leave (x : Spool) (b : Bolt) (o : Word) (os : List Word) : Spool :=
  { x with
    history := if b.status = 2 then x.history else histSet b.hdr.seq (BitVec.ofNat 8 b.status) x.history
    order := os
    bolts := x.bolts.filter fun z => z.num != o
    completed := x.completed + 1 }

/-- The history with a status where a condition fails. -/
theorem Spool.ite_setHist (p : Prop) [Decidable p] (x : Spool) (seq : Dword) (st : Byte) :
    (if p then x else x.setHist seq st) = { x with history := if p then x.history else histSet seq st x.history } := by
  split <;> rfl

/-- A choice of two under one condition, as two conditions. -/
theorem ite_ite_and {α : Type} (p q r : Prop) [Decidable p] [Decidable q] [Decidable r] (a b c : α) :
    (if p then if q then a else if r then b else c else c) = if p ∧ q then a else if p ∧ r then b else c := by
  by_cases hp : p
  · simp only [hp, true_and, if_true]
  · simp only [hp, false_and, if_false]

section
variable {s : State} {td : Td} {sp : SpoolId} (ha : s.answers (.trd td) = true)
include ha

/-- The oldest report goes before every bolt. -/
theorem State.ticketWrite_of_report {r : Report} {rs : List Report} (hr : (s.spool td sp).reports = r :: rs) :
    s.ticketWrite td sp =
      if s.ringFull td sp then s.modReg (spoolReg td sp 0x24) fun v => putBit v 8 true
      else (s.setSpool td sp { s.spool td sp with reports := rs }).putTicket td sp 0 true
        (r.bytes.take 10 ++ leBytes 1 ((s.sreg td sp 0x34 / 2 ^ (s.ringSize td sp).2 + 1) % 2) ++ r.bytes.drop 11) := by
  simp only [State.ticketWrite, ha, hr, State.ringFull, Bool.not_true, Bool.false_eq_true, if_false, Bool.and_eq_true,
    decide_eq_true_eq, beq_iff_eq, and_assoc]

/-- Without a report the first bolt of the completion order gets its ticket, once its digest is known. -/
theorem State.ticketWrite_of_bolt {o : Word} {os : List Word} {b : Bolt} (hr : (s.spool td sp).reports = [])
    (ho : (s.spool td sp).order = o :: os) (hb : (s.spool td sp).bolts.find? (fun b => b.num == o) = some b) :
    s.ticketWrite td sp =
      if s.tagDue td sp b then s
      else if s.ringFull td sp then s.modReg (spoolReg td sp 0x24) fun v => putBit v 8 true
      else
        let s1 := s.setSpool td sp ((s.spool td sp).leave b o os)
        let s2 := (s1.setSreg td sp 0x20 (s1.release td sp)).putTicket td sp b.hdr.seq (bit b.hdr.flags 0)
          (b.ticket sp (((s.spool td sp).history.lookup b.hdr.seq).getD 0xFF).toNat
            ((s.sreg td sp 0x34 / 2 ^ (s.ringSize td sp).2 + 1) % 2) (s1.release td sp))
        if b.status = 1 ∧ b.hdr.lands = true then s2.tallyInclude td sp 1 b.bytes
        else if b.status = 1 ∧ b.hdr.op = 3 then s2.tallyInclude td sp 2 b.bytes else s2 := by
  simp only [State.ticketWrite, ha, hr, ho, hb, Bool.not_true, Bool.false_eq_true, if_false, Bool.and_eq_true, beq_iff_eq,
    decide_eq_true_eq, Option.isNone_iff_eq_none, and_assoc, Spool.ite_setHist, Spool.leave]
  refine ite_congr rfl (fun _ => rfl) fun _ => ite_congr rfl (fun _ => rfl) fun _ => ite_ite_and ..

end

/-- Settles O20: the oldest report's ticket, else the first completed bolt's. That a ticket is lost where TSIZE is below 6 is the
model's deduction (log entry 46). -/
theorem ticketsInCompletionOrder : Obligations.TicketsInCompletionOrder := by
  intro s td sp ha
  refine ⟨fun r rs hr => ?report, fun o os b hr ho hb => ?bolt⟩
  case report =>
    have hwrite := State.ticketWrite_of_report ha hr
    refine ⟨fun hfull => congrArg Host.Outcome.next (hwrite.trans (if_pos hfull)),
      fun hfree => congrArg Host.Outcome.next (hwrite.trans ((if_neg hfree).trans ?_))⟩
    rw [State.putTicket_eq, State.setSpool_sreg]
  case bolt =>
    have hwrite := State.ticketWrite_of_bolt ha hr ho hb
    refine ⟨fun htag => congrArg Host.Outcome.next (hwrite.trans (if_pos htag)), fun htag hfull =>
      congrArg Host.Outcome.next (hwrite.trans ((if_neg htag).trans (if_pos hfull))), fun htag hfree =>
      congrArg Host.Outcome.next (hwrite.trans ((if_neg htag).trans ((if_neg hfree).trans ?_)))⟩
    have hdone (v : Nat) : ((s.setSpool td sp ((s.spool td sp).leave b o os)).setSreg td sp 0x20 v).sreg td sp 0x34 =
        s.sreg td sp 0x34 := by
      rw [State.setSreg_sreg_ne _ _ _ _ (by decide), State.setSpool_sreg]
    simp only [State.putTicket_eq, hdone, Bolt.ticket_eq, State.release, State.setSpool_spool_self, State.setSpool_sreg] <;>
      rfl

end Sys2Proof.Machine
end

section
/-! PROOFS. The functions of a Treadle die (11 §11.1, §11.2, §11.8): links (R337, R338), configuration requests (R339, R340, R344),
poisoned writes (R367), resets (R341) and the detach (R371). -/

namespace Sys2Proof.Machine

/-- The MSI-X capability: BAR0, and the offsets of the table and of the Pending Bit Array behind it (Table 11.2). -/
theorem State.msixCap_eq (s : State) (td : Td) (fn : Fn) :
    s.msixCap td fn =
      let below := 2 ^ 32 - 2 ^ (s.fn td fn).bar0Log
      let table := 0xC0100000 + 0x1000000 * td.val + 0x20000 * fn.val
      [0, table - below, table + 0x8000 - below] := by
  have htable : msixEntry td fn 0 = 0xC0100000 + 0x1000000 * td.val + 0x20000 * fn.val := by
    simp only [msixEntry, trd]
    omega
  have hpba : msixPba td fn 0 = 0xC0100000 + 0x1000000 * td.val + 0x20000 * fn.val + 0x8000 := by
    simp only [msixPba, trd]
    omega
  simp only [State.msixCap, htable, hpba]

section
variable {s : State} {td : Td} {fn : Fn}

/-- A link of a running die out of reset comes up at a width that it may have. -/
theorem State.linkUp_of_legal {width : BitVec 5} (rate : Nat) (hruns : s.tdRuns td fn = true) (hperst : s.perst td = true)
    (hfn : fn = 0 ∨ (s.bifurcated td = true ∧ s.power.recovery = false))
    (hwidth : width.toNat ∈ [1, 4, 8] ∨ (width.toNat = 16 ∧ (s.bifurcated td = false ∨ s.power.recovery = true)))
    (hdown : (s.fn td fn).up = false) :
    s.linkUp td fn rate width = s.modFn td fn fun x => { x with up := true, rate := Fin.ofNat 4 (rate + 1), width := width } := by
  have htwo : (s.bifurcated td && !s.power.recovery) = true ↔ s.bifurcated td = true ∧ s.power.recovery = false := by
    rw [Bool.and_eq_true, Bool.not_eq_true']
  have hone : (!(s.bifurcated td && !s.power.recovery)) = true ↔ s.bifurcated td = false ∨ s.power.recovery = true := by
    rw [Bool.not_and, Bool.not_not, Bool.or_eq_true, Bool.not_eq_true']
  unfold State.linkUp
  refine if_pos ?_
  simp only [Bool.and_eq_true, Bool.or_eq_true, beq_iff_eq, htwo, hone, Bool.not_eq_true', List.contains_iff_mem]
  exact ⟨⟨⟨⟨hruns, hperst⟩, hfn⟩, hwidth⟩, hdown⟩

/-- A reset of a function that is down detaches nothing. -/
theorem State.resetDetach_of_down (h : (s.fn td fn).up = false) (cause : Nat) :
    s.resetDetach td fn cause = (s.setFn td fn { s.fn td fn with up := false }).resetFn td fn := by
  simp only [State.resetDetach, h, State.modFn, Bool.false_eq_true, if_false]

section
variable (hup : (s.fn td fn).up = true)
include hup

/-- Before copy selection has ended a configuration request is answered with Retry Status. -/
theorem State.configRequest_of_unselected (hsel : bit (s.getReg (tpl 0x10)) 16 = false) (op : ConfigOp) :
    s.configRequest td fn op = s.emit (.configAnswer td fn none) := by
  simp only [State.configRequest, hup, State.copySelected, hsel, Bool.not_true, Bool.not_false, Bool.false_eq_true, if_false, if_true]

/-- After it, it makes its setting and is answered with the identities and the MSI-X capability. -/
theorem State.configRequest_of_selected (hsel : bit (s.getReg (tpl 0x10)) 16 = true) (op : ConfigOp) :
    s.configRequest td fn op =
      (((s.modFn td fn fun x => x.configure op).flushMsix td fn op).emit (.configAnswer td fn (some (s.identities,
        ((s.modFn td fn fun x => x.configure op).flushMsix td fn op).msixCap td fn)))) := by
  simp only [State.configRequest, hup, State.copySelected, hsel, Bool.not_true, Bool.false_eq_true, if_false]

/-- A reset of a function that is up detaches it. -/
theorem State.resetDetach_of_up (cause : Nat) :
    s.resetDetach td fn cause = ((s.setFn td fn { s.fn td fn with up := false }).detach td fn cause).resetFn td fn := by
  simp only [State.resetDetach, hup, State.modFn, if_true]

/-- Bus Master Enable is cleared, and the function is detached where one of its spools is not STOPPED. -/
theorem State.busMasterClear_of_selected (hsel : bit (s.getReg (tpl 0x10)) 16 = true) :
    s.busMasterClear td fn =
      if (s.fnSpools td fn).any (fun sp => s.spoolState td sp != 0) = true then
        (s.setFn td fn { s.fn td fn with bme := false }).detach td fn 4
      else s.setFn td fn { s.fn td fn with bme := false } := by
  simp only [State.busMasterClear, hup, State.copySelected, hsel, State.modFn, Bool.not_true, Bool.or_self, Bool.false_eq_true,
    if_false]

end

end

/-- A fundamental reset resets every function that the die presents, after its pin fell. -/
theorem State.fundamentalReset_eq (s : State) (td : Td) :
    s.fundamentalReset td =
      if s.bifurcated td = true then ((s.setPerst td false).resetDetach td 0 2).resetDetach td 1 2
      else (s.setPerst td false).resetDetach td 0 2 := by
  rw [State.fundamentalReset, State.fnsOf]
  split <;> rfl

/-- Settles O22: each command by its law. What an MSI-X control write sends is PCI Express's (log entry 33). -/
theorem functionsOfTheHostPort : Obligations.FunctionsOfTheHostPort := by
  intro s td fn
  refine ⟨fun rate width hruns hperst hfn hwidth hdown =>
      congrArg Host.Outcome.next (State.linkUp_of_legal rate.val hruns hperst hfn hwidth hdown),
    fun hup => ⟨fun op => ⟨fun hsel => congrArg Host.Outcome.next (State.configRequest_of_unselected hup hsel op),
        fun hsel => congrArg Host.Outcome.next ((State.configRequest_of_selected hup hsel op).trans (by rw [State.msixCap_eq]; rfl))⟩,
      congrArg Host.Outcome.next (if_pos hup : s.poisonedWrite td fn = _),
      congrArg Host.Outcome.next (if_pos hup : s.linkDown td fn = _),
      congrArg Host.Outcome.next (State.resetDetach_of_up hup 2), congrArg Host.Outcome.next (State.resetDetach_of_up hup 2),
      congrArg Host.Outcome.next (State.resetDetach_of_up hup 3),
      fun hsel hany => congrArg Host.Outcome.next ((State.busMasterClear_of_selected hup hsel).trans (if_pos hany)),
      fun hsel hnone => congrArg Host.Outcome.next
        ((State.busMasterClear_of_selected hup hsel).trans (if_neg (Bool.eq_false_iff.1 hnone)))⟩,
    fun hdown => ⟨congrArg Host.Outcome.next (State.resetDetach_of_down hdown 2),
      congrArg Host.Outcome.next (State.resetDetach_of_down hdown 2), congrArg Host.Outcome.next (State.resetDetach_of_down hdown 3)⟩,
    congrArg Host.Outcome.next (State.fundamentalReset_eq s td)⟩

end Sys2Proof.Machine
end

section
/-! PROOFS. The life of a VXF port (12 §12.2, §12.3, §12.5): STATE after its changes (Table 12.1), what going down leaves in it
(R381, R401, R404), the writes of its registers (R380, R393), its training and measurement (R378, R379, R382, R383), and what takes
it down (R381, R396). -/

namespace Sys2Proof.Machine

/-! ## STATE of a port (Table 12.1) -/

/-- The lowest field of a register reads back what was put there. -/
theorem fld_putFld_low (v : Dword) {hi x : Nat} (hhi : hi < 64) (hx : x < 2 ^ (hi + 1)) : fld (putFld v hi 0 x) hi 0 = x := by
  simp only [fld, pow_zero, Nat.div_one, Nat.sub_zero]
  refine Nat.eq_of_testBit_eq fun i => ?_
  simp only [Nat.testBit_mod_two_pow, BitVec.testBit_toNat]
  by_cases hin : i < hi + 1
  · have hwide : i < 64 := by omega
    simp only [putFld, BitVec.getLsbD_or, BitVec.getLsbD_and, BitVec.getLsbD_not, BitVec.getLsbD_ofNat, pow_zero, mul_one,
      Nat.sub_zero, Nat.testBit_two_pow_sub_one, hin, hwide, decide_true, Bool.true_and, Bool.not_true, Bool.and_false,
      Bool.and_true, Bool.false_or]
  · have hout : x.testBit i = false :=
      Nat.testBit_lt_two_pow (hx.trans_le (Nat.pow_le_pow_right (by decide) (by omega)))
    simp only [hin, decide_false, Bool.false_and, hout]

/-- Registers of one port at different offsets are different. -/
theorem portReg_ne (p : PortId) {o o' : Nat} (h : o ≠ o') : portReg p o ≠ portReg p o' := by
  unfold portReg
  omega

/-- The registers of a port are registers of the package dies. -/
theorem le_portReg (p : PortId) (o : Nat) : 0xC0000000 ≤ portReg p o := by
  unfold portReg
  omega

/-- A register after a change of a field of SLV_PORTk_STATUS. -/
theorem State.portField_getReg (s : State) (p : PortId) (hi lo x b : Nat) :
    (s.portField p hi lo x).getReg b = if b = portReg p 4 then putFld (s.getReg (portReg p 4)) hi lo x else s.getReg b :=
  State.modReg_getReg _ _ _ _

/-- STATE is read from SLV_PORTk_STATUS alone. -/
theorem State.portState_congr {s t : State} {p : PortId} (h : t.getReg (portReg p 4) = s.getReg (portReg p 4)) :
    t.portState p = s.portState p := congrArg (fld · 3 0) h

/-- STATE reads back what was put there. -/
theorem State.portField_state (s : State) (p : PortId) {n : Nat} (hn : n < 16) : (s.portField p 3 0 n).portState p = n := by
  rw [State.portState, State.portField_getReg, if_pos rfl]
  exact fld_putFld_low _ (by decide) hn

/-- STATE stays when a field above it changes. -/
theorem State.portField_state_of_lt (s : State) (p : PortId) (hi x : Nat) {lo : Nat} (h : 3 < lo) :
    (s.portField p hi lo x).portState p = s.portState p := by
  rw [State.portState, State.portField_getReg, if_pos rfl]
  exact fld_putFld_of_lt _ _ h

/-- STATE stays when another register of the port is written. -/
theorem State.setReg_portState (s : State) (p : PortId) {o : Nat} (v : Dword) (h : o ≠ 4) :
    (s.setReg (portReg p o) v).portState p = s.portState p :=
  State.portState_congr (State.setReg_getReg_ne _ _ (portReg_ne p h.symm))

/-- A port that enters DETECT is in it. -/
theorem State.toDetect_state (s : State) (p : PortId) : (s.toDetect p).portState p = 1 := s.portField_state p (by decide)

/-! ## What a lost link leaves in the registers of the package dies (R333, R401, R404) -/

/-- A register that both branches leave alike. -/
theorem State.ite_getReg {c : Prop} [Decidable c] {t u : State} {a : Nat} {v : Dword} (ht : t.getReg a = v) (hu : u.getReg a = v) :
    (if c then t else u).getReg a = v := by
  split
  exacts [ht, hu]

/-- A write of a core register leaves the registers of the package dies. -/
theorem State.setCreg_getReg_of_ge (s : State) (g : CoreId) {o a : Nat} (v : Dword) (ho : o < 0x10000) (ha : 0xC0000000 ≤ a) :
    (s.setCreg g o v).getReg a = s.getReg a := (s.setCreg_getReg g o a v).trans (if_neg (coreReg_ne_of_ge ho ha).symm)

/-- So does a count of a core register. -/
theorem State.ccount_getReg_of_ge (s : State) (g : CoreId) {o a : Nat} (n : Nat) (ho : o < 0x10000) (ha : 0xC0000000 ≤ a) :
    (s.ccount g o n).getReg a = s.getReg a := (s.ccount_getReg g o n a).trans (if_neg (coreReg_ne_of_ge ho ha).symm)

/-- An abandoned transfer is recorded in registers of its core alone. -/
theorem State.abandon_getReg (s : State) (g : CoreId) (e cause : Nat) {a : Nat} (ha : 0xC0000000 ≤ a) :
    (s.abandon g e cause).getReg a = s.getReg a := by
  rw [State.abandon]
  split
  · rfl
  · extract_lets v s0 s1 s2 s3
    have h0 : s0.getReg a = s.getReg a := State.ite_getReg rfl (State.modCore_getReg _ _ _ _)
    have h1 : s1.getReg a = s.getReg a :=
      (State.ccount_getReg_of_ge _ _ _ (by decide) ha).trans ((State.modCore_getReg _ _ _ _).trans h0)
    have h2 : s2.getReg a = s.getReg a := State.ite_getReg h1 ((State.setCreg_getReg_of_ge _ _ _ (by decide) ha).trans h1)
    have h3 : s3.getReg a = s.getReg a := (State.logCore_getReg _ _ _ _ _).trans h2
    exact State.ite_getReg ((State.modCore_getReg _ _ _ _).trans h3) h3

/-- So is one that had timed out in the clk. -/
theorem State.recause_getReg (s : State) (x : AckTo) (cause : Nat) {a : Nat} (ha : 0xC0000000 ≤ a) :
    (s.recause x cause).getReg a = s.getReg a := by
  rw [State.recause]
  split
  · rfl
  · exact (State.setLog_getReg _ _ _ _).trans (State.ite_getReg (State.setCreg_getReg_of_ge _ _ _ (by decide) ha) rfl)

/-- A link failure writes registers of a core alone. -/
theorem State.linkFailed_getReg (s : State) (x : AckTo) (cause : Nat) {a : Nat} (ha : 0xC0000000 ≤ a) :
    (s.linkFailed x cause).getReg a = s.getReg a := State.ite_getReg (s.abandon_getReg _ _ _ ha) (s.recause_getReg _ _ ha)

/-- The transfers that a lost port fails write registers of cores alone. -/
theorem State.linkLost_getReg (s : State) (p : PortId) {a : Nat} (ha : 0xC0000000 ≤ a) : (s.linkLost p).getReg a = s.getReg a :=
  List.foldlRecOn (motive := fun t : State => t.getReg a = s.getReg a) _ _ rfl
    fun t ht x _ => (t.linkFailed_getReg x.owner 3 ha).trans ht

/-- DOWN is set in route entries of the die alone. -/
theorem State.markDown_getReg (s : State) (p : PortId) {a : Nat} (ha : a < slv (sdOf p) 0x10000) :
    (s.markDown p).getReg a = s.getReg a := by
  refine List.foldlRecOn (motive := fun t : State => t.getReg a = s.getReg a) _ _ rfl fun t ht e he => ?_
  have hroute : slv (sdOf p) 0x10000 ≤ e.1 := by
    simp only [State.routesOf, List.mem_filter, Bool.and_eq_true, decide_eq_true_eq] at he
    omega
  rw [State.modReg_getReg, if_neg (by omega), ht]

@[simp] theorem State.cause_getReg (s : State) (code voter a : Nat) : (s.cause code voter).getReg a = s.getReg a := by
  rw [State.cause]
  split <;> rfl

@[simp] theorem State.sdCause_getReg (s : State) (n : Sd) (code a : Nat) : (s.sdCause n code).getReg a = s.getReg a :=
  State.cause_getReg _ _ _ _

/-- The registers of a port lie below the route entries of its die. -/
theorem portReg_lt_routes (p : PortId) {o : Nat} (ho : o < 0x100) : portReg p o < slv (sdOf p) 0x10000 := by
  have hdie : (sdOf p).val = p.val / 6 := Nat.mod_eq_of_lt (by omega)
  simp only [portReg, slv, hdie]
  omega

/-- A port that goes down stands in the state named (R381). -/
theorem State.portDown_state (s : State) (p : PortId) (cause : Nat) {to' : Nat} (h : to' < 16) :
    (s.portDown p cause to').portState p = to' := by
  have hstatus : (s.portDown p cause to').getReg (portReg p 4) =
      ((s.portField p 3 0 to').portField p 15 12 cause).getReg (portReg p 4) := by
    unfold State.portDown
    extract_lets n owed used s1 s2 s3 old s4
    have h1 : s1.getReg (portReg p 4) = ((s.portField p 3 0 to').portField p 15 12 cause).getReg (portReg p 4) :=
      (State.count_getReg _ _ _ _).trans (if_neg (portReg_ne p (by decide)))
    have h2 : s2.getReg (portReg p 4) = s1.getReg (portReg p 4) :=
      (State.setPort_getReg _ _ _ _).trans ((State.markDown_getReg _ _ (portReg_lt_routes p (by decide))).trans
        (State.logSd_getReg _ _ _ _ _ _))
    have h3 : s3.getReg (portReg p 4) = s2.getReg (portReg p 4) := State.linkLost_getReg _ _ (le_portReg p 4)
    have h4 : s4.getReg (portReg p 4) = s3.getReg (portReg p 4) := State.ite_getReg (State.setSd_getReg _ _ _ _) rfl
    have hend : s4.getReg (portReg p 4) = _ := h4.trans (h3.trans (h2.trans h1))
    exact State.ite_getReg hend (State.ite_getReg ((State.sdCause_getReg _ _ _ _).trans hend)
      (State.ite_getReg ((State.sdCause_getReg _ _ _ _).trans hend) hend))
  rw [State.portState_congr hstatus, State.portField_state_of_lt _ _ _ _ (by decide), State.portField_state _ _ h]

/-! ## SLV_PORTk_CTRL and SLV_PORTk_CRED (R380, R381, R393) -/

/-- SLV_PORTk_CTRL as a write leaves it. -/
def State.ctrlWritten (s : State) (p : PortId) (val : Word) : State :=
  s.setReg (portReg p 0) (BitVec.ofNat 64 val.toNat &&& 0x73)

section
variable {s : State} {p : PortId} {val : Word}

theorem State.ctrlWritten_state : (s.ctrlWritten p val).portState p = s.portState p := s.setReg_portState p _ (by decide)

/-- EN = 0 takes a port that is not ACTIVE to DISABLED with its ATTEMPTS cleared. -/
theorem State.portOff_of_not_active (h : s.portState p ≠ 5) :
    s.portOff p = ((s.portField p 3 0 0).setPort p {}).portField p 8 4 0 := by
  rw [State.portOff, if_neg h]

/-- EN = 0 takes an ACTIVE port down. -/
theorem State.portOff_of_active (h : s.portState p = 5) : s.portOff p = (s.portDown p 5 0).portField p 8 4 0 := by
  rw [State.portOff, if_pos h]

section
variable (hon : s.portOn p = true)
include hon

/-- A write of SLV_PORTk_CTRL to a die that answers, by EN and RESET. -/
theorem State.portCtrl_of_on :
    s.portCtrl p val =
      if bit val 0 = true then
        if bit val 2 = true then (s.ctrlWritten p val).portRst p
        else if s.portState p = 0 then (s.ctrlWritten p val).toDetect p else s.ctrlWritten p val
      else (if bit val 2 = true then (s.ctrlWritten p val).portField p 11 9 0 else s.ctrlWritten p val).portOff p := by
  rw [State.portCtrl, hon]
  cases bit val 0 <;> rfl

/-- EN takes a DISABLED port to DETECT. -/
theorem State.portCtrl_enable (hen : bit val 0 = true) (hrst : bit val 2 = false) (hst : s.portState p = 0) :
    s.portCtrl p val = (s.ctrlWritten p val).toDetect p := by
  rw [State.portCtrl_of_on hon, if_pos hen, if_neg (Bool.eq_false_iff.1 hrst), if_pos hst]

/-- EN = 0 without RESET is that fall alone. -/
theorem State.portCtrl_disable (hen : bit val 0 = false) (hrst : bit val 2 = false) :
    s.portCtrl p val = (s.ctrlWritten p val).portOff p := by
  rw [State.portCtrl_of_on hon, if_neg (Bool.eq_false_iff.1 hen), if_neg (Bool.eq_false_iff.1 hrst)]

/-- RESET takes a port that is not ACTIVE to DETECT with ATTEMPTS and FCAUSE cleared. -/
theorem State.portCtrl_reset (hen : bit val 0 = true) (hrst : bit val 2 = true) (hst : s.portState p ≠ 5) :
    s.portCtrl p val = (((s.ctrlWritten p val).portField p 8 4 0).portField p 11 9 0).toDetect p := by
  rw [State.portCtrl_of_on hon, if_pos hen, if_pos hrst, State.portRst, if_neg (by rwa [State.ctrlWritten_state])]

/-- A legal credit split of a port that is not ACTIVE is taken. -/
theorem State.portCred_of_legal (hst : s.portState p ≠ 5) (h0 : 16 ≤ fld val 9 0) (h0' : fld val 9 0 ≤ 496)
    (h1 : 16 ≤ fld val 25 16) (h1' : fld val 25 16 ≤ 496) (hsum : fld val 9 0 + fld val 25 16 ≤ 512) :
    s.portCred p val = s.setReg (portReg p 0x10) (BitVec.ofNat 64 (fld val 9 0 + 2 ^ 16 * fld val 25 16)) :=
  if_neg (by simp [hon, hst, h0.not_gt, h0'.not_gt, h1.not_gt, h1'.not_gt, hsum.not_gt])

end

/-- An illegal credit split is discarded. -/
theorem State.portCred_of_illegal (h : fld val 9 0 < 16 ∨ 496 < fld val 9 0 ∨ fld val 25 16 < 16 ∨ 496 < fld val 25 16 ∨
    512 < fld val 9 0 + fld val 25 16) : s.portCred p val = s :=
  if_pos (by simp only [Bool.or_eq_true, decide_eq_true_eq]; tauto)

end

/-! ## Training (R378, R379, R382) -/

section
variable {s : State} {p : PortId}

/-- A round that is due opens. -/
theorem State.detectRound_of_due (hst : s.portState p = 1) (hclosed : (s.port p).roundOpen = none)
    (hdue : s.reached (s.port p).nextRound = true) :
    s.detectRound p = s.setPort p { s.port p with
      roundOpen := some (s.getReg (hdl 0x00)), nextRound := BitVec.ofNat 64 (s.weft + 100000000) } :=
  if_pos ⟨hst, hclosed, hdue⟩

/-- A round without a signal ends after 1 ms. -/
theorem State.detectEnd_of_late {t : Dword} (hst : s.portState p = 1) (hopen : (s.port p).roundOpen = some t)
    (hlate : 1000000 ≤ s.since t) :
    s.detectEnd p = (s.setPort p { s.port p with roundOpen := none }).portField p 16 16 0 := by
  simp only [State.detectEnd, hopen]
  exact if_pos ⟨hst, hlate⟩

/-- A signal in an open round starts an attempt. -/
theorem State.signalDetect_of_open {t : Dword} (hst : s.portState p = 1) (hopen : (s.port p).roundOpen = some t) :
    s.signalDetect p =
      (((s.portField p 16 16 1).portField p 8 4 (fld (s.getReg (portReg p 4)) 8 4 + 1)).portField p 3 0 2).modPort p fun x =>
        { x with roundOpen := none, attemptAt := s.getReg (hdl 0x00), stageAt := s.getReg (hdl 0x00) } :=
  if_pos ⟨hst, by rw [hopen]; rfl⟩

/-- An attempt has lasted too long, as a whole or in its state. -/
abbrev State.attemptOver (s : State) (p : PortId) : Prop :=
  500000000 ≤ s.since (s.port p).attemptAt ∧ (s.portState p = 2 ∨ s.portState p = 3 ∨ s.portState p = 4) ∨
    s.portState p = 2 ∧ 300000000 < s.since (s.port p).stageAt ∨ s.portState p = 3 ∧ 10000000 < s.since (s.port p).stageAt ∨
    s.portState p = 4 ∧ 1000000 < s.since (s.port p).stageAt

/-- An attempt that is over leaves the port in DETECT, the sixteenth in FAULT with its routes down. -/
theorem State.attemptTimeout_of_over (h : s.attemptOver p) :
    s.attemptTimeout p =
      if 16 ≤ fld (s.getReg (portReg p 4)) 8 4 then (s.portFault p 1).markDown p else s.toDetect p := by
  refine if_pos ?_
  simp only [Bool.and_eq_true, Bool.or_eq_true, beq_iff_eq, decide_eq_true_eq]
  split_ifs <;> omega

/-! ## Measurement (R382, R383) -/

/-- The lowest class that covers the larger latency and both CLASS_MIN is found. -/
theorem find?_class {far low c : Nat} (hc : c < 5) (hcovers : far ≤ 16 * classNs c) (hlow : low ≤ c)
    (hleast : ∀ d < c, 16 * classNs d < far ∨ d < low) :
    ((List.range 5).find? fun c => decide (far ≤ 16 * classNs c) && decide (low ≤ c)) = some c := by
  refine List.find?_range_eq_some.2 ⟨by simp [hcovers, hlow], List.mem_range.2 hc, fun d hd => ?_⟩
  have := hleast d hd
  simp only [Bool.not_eq_true', Bool.and_eq_false_iff, decide_eq_false_iff_not]
  omega

section
variable {meas min' : Nat} (hst : s.portState p = 4) (hprobes : 64 ≤ (s.port p).probes)
include hst hprobes

/-- A latency above 800 ns is a fault. -/
theorem State.measureDone_of_far (hfar : 12800 < max ((s.port p).meas % 2 ^ 16) meas) :
    s.measureDone p meas min' = (s.setReg (portReg p 8) (BitVec.ofNat 64 ((s.port p).meas % 2 ^ 16))).portFault p 2 :=
  (if_neg (by omega)).trans (if_pos hfar)

/-- A measured link takes its class and its credits and becomes ACTIVE. -/
theorem State.measureDone_of_class {c : Nat} (hc : c < 5) (hfar : max ((s.port p).meas % 2 ^ 16) meas ≤ 12800)
    (hcovers : max ((s.port p).meas % 2 ^ 16) meas ≤ 16 * classNs c)
    (hlow : max (fld (s.getReg (portReg p 0)) 6 4) min' ≤ c)
    (hleast : ∀ d < c, 16 * classNs d < max ((s.port p).meas % 2 ^ 16) meas ∨
      d < max (fld (s.getReg (portReg p 0)) 6 4) min') :
    s.measureDone p meas min' =
      (let own := (s.port p).meas % 2 ^ 16
       let lat : Dword := BitVec.ofNat 64 (own + 2 ^ 16 * (16 * classNs c - own) + 2 ^ 32 * c)
       let cred := s.getReg (portReg p 0x10)
       ((((s.setReg (portReg p 8) lat).portField p 3 0 5).portField p 8 4 0).modPort p fun x =>
          { x with
            cred0 := fld cred 9 0, alloc0 := fld cred 9 0, sent0 := 0, ret0 := 0
            cred1 := fld cred 25 16, alloc1 := fld cred 25 16, sent1 := 0, ret1 := 0
            badRun := 0, lastTimeSent := s.getReg (hdl 0x00) }).logSd (sdOf p) 0x4001 p.val lat) := by
  refine (if_neg (by omega)).trans ((if_neg hfar.not_gt).trans ?_)
  rw [find?_class hc hcovers hlow hleast]

end

/-! ## What takes a port down (R381, R396) -/

/-- A malformed packet takes an ACTIVE port down. -/
theorem State.malformedPacket_of_active {vc : Fin 2} (hst : s.portState p = 5)
    (hlen : 16 ≤ (if vc = 0 then (s.port p).rx0 else (s.port p).rx1).length)
    (hbad : (parseHeader (if vc = 0 then (s.port p).rx0 else (s.port p).rx1)).malformed vc = true) :
    s.malformedPacket p vc = s.portDown p 6 1 := if_pos ⟨hst, hlen, hbad⟩

end

/-- Settles O47: each command by its law; a port that goes down keeps its new STATE through all that its lost link does. -/
theorem portsTrainMeasureAndGoDown : Obligations.PortsTrainMeasureAndGoDown := by
  intro s p
  refine ⟨fun n hn => ⟨s.portField_state p hn, fun b hb => (s.portField_getReg p 3 0 n b).trans (if_neg hb)⟩,
    ⟨s.toDetect_state p, State.setPort_port_self _ _ _⟩, fun cause to' h => s.portDown_state p cause h, fun val hon => ?writes,
    fun hst hclosed hdue => congrArg Host.Outcome.next (State.detectRound_of_due hst hclosed hdue),
    fun t hst hopen hlate => congrArg Host.Outcome.next (State.detectEnd_of_late hst hopen hlate),
    fun t hst hopen => congrArg Host.Outcome.next (State.signalDetect_of_open hst hopen),
    fun hst => congrArg Host.Outcome.next (if_pos hst), fun hst => congrArg Host.Outcome.next (if_pos hst),
    fun meas least hst hprobes => ⟨fun hfar => congrArg Host.Outcome.next (State.measureDone_of_far hst hprobes hfar),
      fun c hc hfar hcovers hlow hleast => congrArg Host.Outcome.next
        (State.measureDone_of_class hst hprobes hc hfar hcovers hlow hleast)⟩,
    fun hover => ⟨fun hfew => ?again, fun hlast => ?fault⟩,
    fun hst => ⟨congrArg Host.Outcome.next (if_pos hst), congrArg Host.Outcome.next (if_pos hst)⟩,
    fun hst => congrArg Host.Outcome.next (if_neg hst),
    fun vc hst hlen hbad => congrArg Host.Outcome.next (State.malformedPacket_of_active hst hlen hbad)⟩
  case writes =>
    have hoff (hen : bit val 0 = false) (hrst : bit val 2 = false) : exec (.portDisable p val) s = .next _ :=
      congrArg Host.Outcome.next (State.portCtrl_disable hon hen hrst)
    refine ⟨fun hen hrst hst => congrArg Host.Outcome.next (State.portCtrl_enable hon hen hrst hst),
      fun hen hrst hst => (hoff hen hrst).trans (congrArg Host.Outcome.next (State.portOff_of_not_active ?_)),
      fun hen hrst hst => (hoff hen hrst).trans (congrArg Host.Outcome.next (State.portOff_of_active ?_)),
      fun hen hrst hst => congrArg Host.Outcome.next (State.portCtrl_reset hon hen hrst hst),
      fun hst h0 h0' h1 h1' hsum => congrArg Host.Outcome.next (State.portCred_of_legal hon hst h0 h0' h1 h1' hsum),
      fun hbad => congrArg Host.Outcome.next (State.portCred_of_illegal hbad)⟩
    · rwa [State.ctrlWritten_state]
    · rwa [State.ctrlWritten_state]
  case again => exact congrArg Host.Outcome.next ((State.attemptTimeout_of_over hover).trans (if_neg hfew.not_ge))
  case fault => exact congrArg Host.Outcome.next ((State.attemptTimeout_of_over hover).trans (if_pos hlast))

end Sys2Proof.Machine
end

section
/-! PROOFS. Flits (12 §12.4, Table 12.4): their CRC (R387), what a port sends in its turn (R386, R388, R394), what it does with a
flit that it receives (R381, R387, R388), the replay of what is not acknowledged (R389), and the records of the measurement (R382). -/

namespace Sys2Proof.Machine

/-! ## Two changes of one port -/

/-- Of two updates of one port the last remains. -/
theorem State.setPort_setPort (s : State) (p : PortId) (x y : Port) : (s.setPort p x).setPort p y = s.setPort p y := by
  rw [State.setPort, State.setPort, State.setPort, sset_sset]

/-- A change after an update of one port is one update. -/
theorem State.setPort_modPort (s : State) (p : PortId) (x : Port) (f : Port → Port) :
    (s.setPort p x).modPort p f = s.setPort p (f x) := by
  rw [State.modPort, State.setPort_port_self, State.setPort_setPort]

/-! ## The CRC of a flit (R387) -/

/-- The CRC that is put behind 252 bytes reads back as that of the first 252 bytes. -/
theorem leAt_crc (l : List Byte) (h : l.length = 252) :
    leAt (l ++ leBytes 4 (crc32c l).toNat) 252 4 = (crc32c ((l ++ leBytes 4 (crc32c l).toNat).take 252)).toNat := by
  rw [leAt, slice, List.drop_left' h, List.take_left' h, List.take_of_length_le (leBytes_length 4 _).le, leNat_leBytes]
  exact Nat.mod_eq_of_lt (crc32c l).isLt

/-- A flit is 252 bytes and their CRC. -/
theorem flitBytes_sealed (type vc seq ack : Nat) (nak : Bool) (crvc n : Nat) (body : List Byte) :
    ∃ l, l.length = 252 ∧ flitBytes type vc seq ack nak crvc n body = l ++ leBytes 4 (crc32c l).toNat := by
  refine ⟨_, ?_, rfl⟩
  simp only [List.length_append, leBytes_length, List.length_take, List.length_replicate]
  omega

/-! ## What a port sends (R386, R388, R394) -/

/-- Two channels that are both ready alternate. -/
theorem Port.nextVc_alternates {x : Port} (h0 : x.tx0 ≠ []) (hc0 : x.cred0 ≠ 0) (h1 : x.tx1 ≠ []) (hc1 : x.cred1 ≠ 0) :
    x.nextVc = some (x.lastVc + 1) :=
  if_pos (by simp [h0, hc0, h1, hc1])

section
variable {s : State} {p : PortId} (hopen : s.portState p = 4 ∨ s.portState p = 5)
include hopen

/-- The next flit of a replay leaves again, and waits from here. -/
theorem State.flitSend_of_resend {f : SentFlit} {t : List SentFlit} (h : (s.port p).resend = f :: t) :
    s.flitSend p = s.putFlit p { s.port p with
        resend := t
        replay := (s.port p).replay.map fun y => if y.seq = f.seq then { y with at' := s.getReg (hdl 0) } else y }
      (leAt f.bytes 0 1 % 16) (leAt f.bytes 0 1 / 16) f.seq (f.bytes.drop 1) := by
  refine (if_neg (by omega)).trans ?_
  simp only [h, Port.sentAgain, beq_iff_eq]

section
variable (hresend : (s.port p).resend = [])
include hresend

/-- With a full replay buffer NULL leaves. -/
theorem State.flitSend_of_full (h : Config.replayCap ≤ (s.port p).replay.length) :
    s.flitSend p = s.putFlit p (s.port p) 0 0 0 [] := by
  refine (if_neg (by omega)).trans ?_
  rw [hresend]
  exact if_pos h

section
variable (hroom : (s.port p).replay.length < Config.replayCap)
include hroom

/-- The oldest control record leaves first. -/
theorem State.flitSend_of_record {b : List Byte} {t : List (List Byte)} (h : (s.port p).ctrlOut = b :: t) :
    s.flitSend p = s.newFlit p { s.port p with ctrlOut := t } 2 0 (s.recordOut b) := by
  refine (if_neg (by omega)).trans ?_
  simp only [hresend, if_neg hroom.not_ge, h]

section
variable (hctrl : (s.port p).ctrlOut = [])
include hctrl

/-- Without a record the channel whose turn it is sends its oldest 246 bytes. -/
theorem State.flitSend_of_channel {vc : Fin 2} (h : (s.port p).nextVc = some vc) :
    s.flitSend p =
      if vc = 0 then
        s.newFlit p { s.port p with
          tx0 := (s.port p).tx0.drop 246, cred0 := (s.port p).cred0 - 1, sent0 := (s.port p).sent0 + 1, lastVc := 0 } 1 0
          ((s.port p).tx0.take 246)
      else
        s.newFlit p { s.port p with
          tx1 := (s.port p).tx1.drop 246, cred1 := (s.port p).cred1 - 1, sent1 := (s.port p).sent1 + 1, lastVc := 1 } 1 1
          ((s.port p).tx1.take 246) := by
  refine (if_neg (by omega)).trans ?_
  simp only [hresend, if_neg hroom.not_ge, hctrl, h]

/-- With nothing to send NULL leaves. -/
theorem State.flitSend_of_idle (h : (s.port p).nextVc = none) : s.flitSend p = s.putFlit p (s.port p) 0 0 0 [] := by
  refine (if_neg (by omega)).trans ?_
  simp only [hresend, if_neg hroom.not_ge, hctrl, h]

end

end

end

end

/-! ## What a port receives (R381, R387, R388, R394) -/

/-- A field of a flit. -/
def flitField (flit : List Byte) (hi lo : Nat) : Nat := leAt flit 0 6 / 2 ^ lo % 2 ^ (hi + 1 - lo)

/-- The port after the ACK and the credits of a valid flit. -/
def Port.credited (x : Port) (flit : List Byte) : Port :=
  let x1 := ({ x with badRun := 0 } : Port).ack (flitField flit 29 18)
  if flitField flit 32 31 = 0 then { x1 with cred0 := x1.cred0 + flitField flit 38 33, sent0 := x1.sent0 - flitField flit 38 33 }
  else if flitField flit 32 31 = 1 then
    { x1 with cred1 := x1.cred1 + flitField flit 38 33, sent1 := x1.sent1 - flitField flit 38 33 }
  else x1

/-- How far the SEQ of a flit lies before the expected one. -/
def Port.back (x : Port) (flit : List Byte) : Nat := (x.rxSeq + 4096 - flitField flit 17 6) % 4096

/-- A set NAK bit starts a replay after all else that the flit does. -/
def State.afterNak (t : State) (p : PortId) (flit : List Byte) : State :=
  if flitField flit 30 30 = 1 then t.replayStart p else t

/-- A flit asks for a replay, once. -/
def State.askReplay (s : State) (p : PortId) (y : Port) : State :=
  s.setPort p { y with nakOwed := y.nakOwed || !y.nakSent }

section
variable {s : State} {p : PortId} {flit : List Byte} (hopen : s.portState p = 4 ∨ s.portState p = 5) (hlen : flit.length = 256)
include hopen hlen

/-- A flit with a bad CRC is counted and discarded. -/
theorem State.flitReceive_of_bad_crc (hcrc : ¬ leAt flit 252 4 = (crc32c (flit.take 252)).toNat) :
    s.flitReceive p flit = s.badFlit p (s.port p) true := (if_neg (by omega)).trans (if_pos hcrc)

section
variable (hcrc : leAt flit 252 4 = (crc32c (flit.take 252)).toNat)
include hcrc

/-- A flit of a reserved TYPE is discarded. -/
theorem State.flitReceive_of_reserved_type (htype : 2 < flitField flit 3 0) :
    s.flitReceive p flit = s.badFlit p (s.port p) false :=
  (if_neg (by omega)).trans ((if_neg (not_not.2 hcrc)).trans (if_pos htype))

/-- A data flit of a reserved virtual channel is discarded. -/
theorem State.flitReceive_of_reserved_vc (htype : flitField flit 3 0 = 1) (hvc : 1 < flitField flit 5 4) :
    s.flitReceive p flit = s.setPort p { s.port p with badRun := 0 } :=
  (if_neg (by omega)).trans ((if_neg (not_not.2 hcrc)).trans
    ((if_neg (show ¬ 2 < flitField flit 3 0 by omega)).trans (if_pos ⟨htype, hvc⟩)))

/-- A NULL flit acknowledges and returns credits. -/
theorem State.flitReceive_of_null (htype : flitField flit 3 0 = 0) :
    s.flitReceive p flit = (s.setPort p ((s.port p).credited flit)).afterNak p flit :=
  (if_neg (by omega)).trans ((if_neg (not_not.2 hcrc)).trans
    ((if_neg (show ¬ 2 < flitField flit 3 0 by omega)).trans
      ((if_neg (show ¬ (flitField flit 3 0 = 1 ∧ 1 < flitField flit 5 4) by omega)).trans
        (congrArg (State.afterNak · p flit) (if_pos htype)))))

section
variable (htype : flitField flit 3 0 = 1 ∧ flitField flit 5 4 ≤ 1 ∨ flitField flit 3 0 = 2)
include htype

/-- A flit of data or of a record, by its SEQ. -/
theorem State.flitReceive_of_numbered :
    s.flitReceive p flit = State.afterNak (
      if (s.port p).back flit = 0 ∧ ¬ (flitField flit 3 0 = 2 ∧ Config.controlCap ≤ ((s.port p).credited flit).ctrlIn.length) then
        s.acceptFlit p ((s.port p).credited flit) (flitField flit 3 0) (flitField flit 5 4) (slice flit 6 246)
      else if 1 ≤ (s.port p).back flit ∧ (s.port p).back flit ≤ 512 then
        (s.setPort p ((s.port p).credited flit)).count (portReg p 0x20) 1
      else s.askReplay p ((s.port p).credited flit)) p flit :=
  (if_neg (by omega)).trans ((if_neg (not_not.2 hcrc)).trans
    ((if_neg (show ¬ 2 < flitField flit 3 0 by omega)).trans
      ((if_neg (show ¬ (flitField flit 3 0 = 1 ∧ 1 < flitField flit 5 4) by omega)).trans
        (congrArg (State.afterNak · p flit) (if_neg (show ¬ flitField flit 3 0 = 0 by omega))))))

/-- The expected flit is accepted, but for a record that finds the control buffer full. -/
theorem State.flitReceive_of_expected (hback : (s.port p).back flit = 0)
    (hroom : ¬ (flitField flit 3 0 = 2 ∧ Config.controlCap ≤ ((s.port p).credited flit).ctrlIn.length)) :
    s.flitReceive p flit = State.afterNak
      (s.acceptFlit p ((s.port p).credited flit) (flitField flit 3 0) (flitField flit 5 4) (slice flit 6 246)) p flit :=
  (State.flitReceive_of_numbered hopen hlen hcrc htype).trans
    (congrArg (State.afterNak · p flit) (if_pos ⟨hback, hroom⟩))

/-- Such a record asks for a replay (log entry 51). -/
theorem State.flitReceive_of_full (hback : (s.port p).back flit = 0)
    (hfull : flitField flit 3 0 = 2 ∧ Config.controlCap ≤ ((s.port p).credited flit).ctrlIn.length) :
    s.flitReceive p flit = (s.askReplay p ((s.port p).credited flit)).afterNak p flit :=
  (State.flitReceive_of_numbered hopen hlen hcrc htype).trans
    (congrArg (State.afterNak · p flit) ((if_neg fun h => h.2 hfull).trans (if_neg (by omega))))

/-- One of the 512 flits before it is a duplicate, which is counted. -/
theorem State.flitReceive_of_duplicate (hlow : 1 ≤ (s.port p).back flit) (hhigh : (s.port p).back flit ≤ 512) :
    s.flitReceive p flit = ((s.setPort p ((s.port p).credited flit)).count (portReg p 0x20) 1).afterNak p flit :=
  (State.flitReceive_of_numbered hopen hlen hcrc htype).trans
    (congrArg (State.afterNak · p flit) ((if_neg (by omega)).trans (if_pos ⟨hlow, hhigh⟩)))

/-- Any other asks for a replay. -/
theorem State.flitReceive_of_gap (hfar : 512 < (s.port p).back flit) :
    s.flitReceive p flit = (s.askReplay p ((s.port p).credited flit)).afterNak p flit :=
  (State.flitReceive_of_numbered hopen hlen hcrc htype).trans
    (congrArg (State.afterNak · p flit) ((if_neg (by omega)).trans (if_neg (by omega))))

end

end

end

/-! ## Replay (R389) -/

section
variable {s : State} {p : PortId} {f : SentFlit} {t : List SentFlit} (hreplay : (s.port p).replay = f :: t)
  (hst : s.portState p = 5)
include hreplay hst

/-- A flit that has waited 2 µs starts a replay. -/
theorem State.replayTimeout_of_late (hlate : 2000 ≤ s.since f.at') : s.replayTimeout p = s.replayStart p := by
  simp only [State.replayTimeout, hreplay]
  exact if_pos ⟨hst, hlate⟩

/-- The ninth replay in a row takes the port down; an earlier one sends all that is not acknowledged again. -/
theorem State.replayStart_of_waiting (hnew : (s.port p).replayAt ≠ some s.now) :
    s.replayStart p =
      if 8 ≤ (s.port p).replayCount then s.portDown p 1 1
      else
        let l := (s.port p).replay.map fun f => { f with at' := s.getReg (hdl 0x00) }
        (s.setPort p { s.port p with
          replayCount := (s.port p).replayCount + 1, replay := l, resend := l, replayAt := some s.now }).count (portReg p 0x18) 1 := by
  have hwaits : (s.port p).replay ≠ [] := hreplay ▸ List.cons_ne_nil f t
  refine (if_neg (not_or.2 ⟨hwaits, hnew⟩)).trans ?_
  simp only [hst, and_true]

end

/-! ## Probes and echoes (R382) -/

section
variable {s : State} {p : PortId} {b : List Byte} {t : List (List Byte)} (hfront : (s.port p).ctrlIn = b :: t)
  (hst : s.portState p = 4)
include hfront hst

/-- A probe is echoed. -/
theorem State.probeRecord_of_measure (hkind : leAt b 0 1 = 6) :
    s.probeRecord p = s.setPort p { s.port p with ctrlIn := t, ctrlOut := (s.port p).ctrlOut ++ [[7]] } := by
  simp only [State.probeRecord, State.takeCtrl_of_front hfront hkind, hst, if_true, State.sendCtrl, State.setPort_port_self,
    State.setPort_setPort]
  rfl

/-- An echo is counted, and the smallest round trip kept. -/
theorem State.echoRecord_of_measure (rtt : Nat) (hkind : leAt b 0 1 = 7) :
    s.echoRecord p rtt = s.setPort p { s.port p with
      ctrlIn := t, probes := (s.port p).probes + 1, bestRtt := some (min rtt ((s.port p).bestRtt.getD rtt)) } := by
  simp only [State.echoRecord, State.takeCtrl_of_front hfront hkind, hst, if_true, State.setPort_modPort]

end

/-- Settles O48: each flit by its law. That a DATA body is filled with zero bytes is the model's choice (log entry 30), and so is
the replay that a full control buffer asks for (log entry 51). -/
theorem flitsAreSentAndReceived : Obligations.FlitsAreSentAndReceived := by
  refine ⟨fun type vc seq ack nak crvc n body => ?crc, fun s p => ⟨fun hopen =>
    ⟨fun f t h => congrArg Host.Outcome.next (State.flitSend_of_resend hopen h),
      fun hresend hfull => congrArg Host.Outcome.next (State.flitSend_of_full hopen hresend hfull),
      fun hresend hroom =>
        ⟨fun b t h => congrArg Host.Outcome.next (State.flitSend_of_record hopen hresend hroom h),
          fun hctrl h => congrArg Host.Outcome.next ((State.flitSend_of_channel hopen hresend hroom hctrl h).trans (if_pos rfl)),
          fun hctrl h => congrArg Host.Outcome.next
            ((State.flitSend_of_channel hopen hresend hroom hctrl h).trans (if_neg (by decide))),
          fun hctrl h => congrArg Host.Outcome.next (State.flitSend_of_idle hopen hresend hroom hctrl h)⟩⟩,
    Port.nextVc_alternates, fun flit hopen hlen => ?receive, fun f t hreplay hst hlate hnew => ?replay,
    fun b t hfront hst => ⟨fun hkind => congrArg Host.Outcome.next (State.probeRecord_of_measure hfront hst hkind),
      fun rtt hkind => congrArg Host.Outcome.next (State.echoRecord_of_measure hfront hst rtt.toNat hkind)⟩⟩⟩
  case crc =>
    obtain ⟨l, hl, hflit⟩ := flitBytes_sealed type vc seq ack nak crvc n body
    rw [hflit]
    exact ⟨by rw [List.length_append, hl, leBytes_length], leAt_crc l hl⟩
  case receive =>
    refine ⟨fun hcrc => congrArg Host.Outcome.next (State.flitReceive_of_bad_crc hopen hlen hcrc),
      fun hcrc htype => congrArg Host.Outcome.next (State.flitReceive_of_reserved_type hopen hlen hcrc htype),
      fun hcrc htype hvc => congrArg Host.Outcome.next (State.flitReceive_of_reserved_vc hopen hlen hcrc htype hvc),
      fun hcrc => ⟨fun htype => congrArg Host.Outcome.next (State.flitReceive_of_null hopen hlen hcrc htype), fun htype => ?_⟩⟩
    exact ⟨fun hback hroom => congrArg Host.Outcome.next (State.flitReceive_of_expected hopen hlen hcrc htype hback hroom),
      fun hback hfull => congrArg Host.Outcome.next (State.flitReceive_of_full hopen hlen hcrc htype hback hfull),
      fun hlow hhigh => congrArg Host.Outcome.next (State.flitReceive_of_duplicate hopen hlen hcrc htype hlow hhigh),
      fun hfar => congrArg Host.Outcome.next (State.flitReceive_of_gap hopen hlen hcrc htype hfar)⟩
  case replay =>
    have hstart := (State.replayTimeout_of_late hreplay hst hlate).trans (State.replayStart_of_waiting hreplay hst hnew)
    exact ⟨fun hninth => congrArg Host.Outcome.next (hstart.trans (if_pos hninth)),
      fun hfew => congrArg Host.Outcome.next (hstart.trans (if_neg hfew.not_ge))⟩

end Sys2Proof.Machine
end

section
/-! PROOFS. Responses at a Selvedge die (10 R312, R333; 12 R395, R398, R404): whom a response is for, what each of the four types
does, at its delivery and once it has crossed the mesh, and the clearing of DOWN in a route entry (12 R403). -/

namespace Sys2Proof.Machine

/-! ## Whom a response is for (R395, R404) -/

/-- A launched request that is struck off belongs to the entry that the response names. -/
theorem State.answered_owner (s : State) (n : Sd) (a : AckTo) :
    a.core = (s.answered n a).2.core ∧ a.entry = (s.answered n a).2.entry ∧ a.gen = (s.answered n a).2.gen ∧
      a.pick = (s.answered n a).2.pick := by
  rw [State.answered]
  split
  case h_1 x hx =>
    have hsame : ({ x.owner with part := 0 } : AckTo) = a := by simpa using List.find?_some hx
    exact hsame ▸ ⟨rfl, rfl, rfl, rfl⟩
  case h_2 => exact ⟨rfl, rfl, rfl, rfl⟩

section
variable {s : State} {p : PortId} {type : Nat} {h : Header} {data : List Byte} {s1 : State}
  (htake : s.takePacket p 1 type = some (h, data, s1))
include htake

/-- A response for another package goes on. -/
theorem State.response_of_transit (hpkg : h.dpkg ≠ s.pkg) (f : State → AckTo → List Byte → State) :
    s.response p type f = s1.sendPacket (sdOf p) 1 h data := by
  have htransit : s.transit h = true := bne_iff_ne.2 hpkg
  simp only [State.response, htake, htransit, if_true]

/-- A response for this package acts on the request that it answers. -/
theorem State.response_of_here (hpkg : h.dpkg = s.pkg) (f : State → AckTo → List Byte → State) :
    s.response p type f = f (s1.answered (sdOf p) h.owner).1 (s1.answered (sdOf p) h.owner).2 data := by
  have hhere : s.transit h = false := bne_eq_false_iff_eq.2 hpkg
  simp only [State.response, htake, hhere, Bool.false_eq_true, if_false]

end

/-! ## Responses that have ended (R312, R333) -/

/-- A response to a working core whose transfer has ended is counted. -/
theorem State.staleAt_of_works {s : State} {g : CoreId} (h : s.works g = true) : s.staleAt g = s.ccount g 0x804 1 := if_pos h

section
variable {s : State} {n : Sd} {b : AckTo}

/-- A SIGNAL_ACK that has crossed retires a live transfer, and is counted for another. -/
theorem State.arrived_signalAck :
    s.arrived n (.signalAck b) = if s.live b = true then s.retireTransfer b.core b.entry else s.staleAt b.core := rfl

/-- A REFUSED that has crossed fails a live transfer. -/
theorem State.arrived_refused_of_live (h : s.live b = true) : s.arrived n (.refused b) = s.linkFailed b 2 :=
  if_pos (by rw [h]; rfl)

/-- Where no transfer has timed out in the clk it is counted for another. -/
theorem State.arrived_refused_of_ended (h : s.live b = false) (hnone : (s.core b.core).timedOut = []) :
    s.arrived n (.refused b) = s.staleAt b.core :=
  if_neg (by rw [h, hnone]; exact Bool.false_ne_true)

end

/-! ## DOWN of a route entry (R403) -/

section
variable {s : State} {n : Sd} {pkg : Nat}

/-- With no deck running and the port of the entry ACTIVE, DOWN is cleared. -/
theorem State.routeClear_of_active (ha : s.answers (.slv n) = true) (hidle : s.anyRuns = false)
    (hport : fld (s.routeTo n pkg) 6 4 < 6) (hst : s.portState (portOf n (fld (s.routeTo n pkg) 6 4)) = 5) :
    s.routeClear n pkg = s.setReg (slv n (0x10000 + 8 * (pkg % 1024))) (putBit (s.routeTo n pkg) 3 false) :=
  if_pos (by simp [ha, hidle, hport, hst])

/-- While a core runs a deck the clear does nothing. -/
theorem State.routeClear_of_running (hrun : s.anyRuns = true) : s.routeClear n pkg = s :=
  if_neg (by simp [hrun])

end

/-- Settles O50: the responses of a port, their arrival at a shuttle, and the clear of DOWN. That a response is matched to the
launched requests in launch order, and transit whatever the tag, are the model's choice (log entry 52). -/
theorem responsesReachTheirTransfers : Obligations.ResponsesReachTheirTransfers := by
  refine ⟨fun s p h data s1 => ⟨s1.answered_owner (sdOf p) h.owner, fun e he htake hpkg => ?transit, fun hpkg =>
      ⟨fun htake => ⟨fun hlive => ?lines, fun hlive hworks => ?stale⟩, fun htake hworks => ?ack,
        fun htake => congrArg Host.Outcome.next (State.response_of_here htake hpkg _),
        fun htake => congrArg Host.Outcome.next (State.response_of_here htake hpkg _)⟩⟩,
    fun s n b => ⟨fun hlive => ⟨State.arrived_signalAck.trans (if_pos hlive),
        (State.arrived_refused_of_live hlive).trans (State.linkFailed_of_live 2 hlive)⟩,
      fun hlive hworks => ⟨?signal, fun hnone => (State.arrived_refused_of_ended hlive hnone).trans (State.staleAt_of_works hworks)⟩⟩,
    fun s n pkg => ⟨fun ha hidle hport hst => ?clear,
      fun hrun => congrArg Host.Outcome.next (State.routeClear_of_running hrun)⟩⟩
  case transit =>
    obtain rfl | rfl | rfl | rfl : e = _ ∨ e = _ ∨ e = _ ∨ e = _ := by simpa using he
    all_goals exact congrArg Host.Outcome.next (State.response_of_transit htake hpkg _)
  case lines => exact congrArg Host.Outcome.next ((State.response_of_here htake hpkg _).trans (if_pos hlive))
  case stale =>
    exact congrArg Host.Outcome.next ((State.response_of_here htake hpkg _).trans
      ((if_neg (Bool.eq_false_iff.1 hlive)).trans (State.staleAt_of_works hworks)))
  case ack => exact congrArg Host.Outcome.next ((State.response_of_here htake hpkg _).trans (if_pos hworks))
  case signal =>
    exact State.arrived_signalAck.trans ((if_neg (Bool.eq_false_iff.1 hlive)).trans (State.staleAt_of_works hworks))
  case clear =>
    have hentry : pkg.toNat % 1024 = pkg.toNat := Nat.mod_eq_of_lt pkg.isLt
    have hclear := State.routeClear_of_active ha hidle hport hst
    rw [hentry] at hclear
    exact congrArg Host.Outcome.next hclear

end Sys2Proof.Machine
end

section
/-! PROOFS. Weft discipline between packages (12 §12.9, R407–R409) and the barrier launch (12 §12.11, R416–R418; 14 R454;
16 R511). -/

namespace Sys2Proof.Machine

/-! ## TIME records (R407–R409) -/

section
variable {s : State}

/-- A port whose last TIME record is 65,536 ns old sends one. -/
theorem State.timeSend_of_due {p : PortId} (hst : s.portState p = 5) (hdue : 65536 ≤ s.since (s.port p).lastTimeSent) :
    s.timeSend p = s.setPort p { s.port p with
      lastTimeSent := s.getReg (hdl 0x00), ctrlOut := (s.port p).ctrlOut ++ [leBytes 1 1 ++ leBytes 8 s.weft] } :=
  if_pos ⟨hst, hdue⟩

/-- HDL_TIME_STATUS reads what it is set to. -/
theorem State.setTime_getReg_self (s : State) (v : Dword) : (s.setTime v).getReg (hdl 0x114) = v := by
  rw [State.setTime]
  split
  · exact State.setReg_getReg_self _ _ _
  · exact (State.logHdl_getReg _ _ _ _ _).trans (State.setReg_getReg_self _ _ _)

section
variable {p : PortId} {b : List Byte} {t : List (List Byte)} (hfront : (s.port p).ctrlIn = b :: t) (hkind : leAt b 0 1 = 1)
include hfront hkind

/-- A TIME record at the time root, or not through UP, is discarded. -/
theorem State.timeRecord_of_other (h : s.timeRoot = true ∨ p ≠ s.timeUp) :
    s.timeRecord p = s.setPort p { s.port p with ctrlIn := t } := by
  simp only [State.timeRecord, State.takeCtrl_of_front hfront hkind]
  exact if_pos (by simpa using h)

/-- One through UP gives the offset that is owed, and moves LOCK by the runs of good and of bad offsets. -/
theorem State.timeRecord_of_upstream (hroot : s.timeRoot = false) (hup : p = s.timeUp) :
    s.timeRecord p =
      (let off : Int := signed 64 ((leAt b 1 8 + s.portNs p + 2 ^ 64 - s.weft) % 2 ^ 64)
       let good := if off.natAbs ≤ 1 then s.heddle.goodRun + 1 else 0
       let bad := if 4 < off.natAbs then s.heddle.badRun + 1 else 0
       let lock := if 16 ≤ good then true else if 3 ≤ bad then false else bit (s.getReg (hdl 0x114)) 0
       ((s.setPort p { s.port p with ctrlIn := t }).modHeddle fun h =>
          { h with
            goodRun := min good 16, badRun := min bad 3, lastTime := s.getReg (hdl 0x00), timeOwed := off }).setTime
          (BitVec.ofNat 64 (flagBit lock 0 + 2 ^ 16 * unsigned 16 off))) := by
  simp only [State.timeRecord, State.takeCtrl_of_front hfront hkind]
  exact if_neg (by simp [hroot, hup])

end

/-- 200 µs without a TIME record set HOLD. -/
theorem State.timeHoldover_of_late (hroot : s.timeRoot = false) (hlate : 200000 ≤ s.since s.heddle.lastTime) :
    s.timeHoldover = s.setTime (putBit (s.getReg (hdl 0x114)) 1 true) :=
  if_pos (by simp [hroot, hlate])

/-! ## HDL_BARRIER_CFG and HDL_BARRIER_GO (R416, R454, R511) -/

/-- Outside pick generation HDL_BARRIER_CFG is written, and arming clears the status. -/
theorem State.barrierCfg_of_idle (val : Word) (ha : s.answers .hdl = true) (hidle : s.active = false) :
    s.barrierCfg val =
      if bit val 0 = true then
        (s.setReg (hdl 0x120) (BitVec.ofNat 64 val.toNat &&& 0xFFFF0001)).setReg (hdl 0x128) 0
      else s.setReg (hdl 0x120) (BitVec.ofNat 64 val.toNat &&& 0xFFFF0001) :=
  if_neg (by simp [ha, hidle])

/-- While pick generation is active it is not. -/
theorem State.barrierCfg_of_active (val : Word) (h : s.active = true) : s.barrierCfg val = s := if_pos (by simp [h])

/-- A GO at an armed root outside SAFE sends its record and holds the fire. -/
theorem State.barrierGo_of_armed (val : Word) (ha : s.answers .hdl = true) (hsafe : s.safe = false)
    (hroot : bit (s.getReg (hdl 0x108)) 0 = true) (harmed : s.armed = true) :
    s.barrierGo val =
      (let tree := fld (s.getReg (hdl 0x120)) 31 16
       let t := s.weft + ceilDiv tree 16 + fld val 15 0 * 1000
       (s.toChildren (barrierRec t tree)).modHeddle fun h =>
         { h with barrier := some ⟨BitVec.ofNat 64 t, BitVec.ofNat 64 (s.weft + ceilDiv tree 16), false⟩ }) :=
  if_neg (by simp [ha, hsafe, hroot, harmed])

/-! ## The BARRIER record and the fire (R417) -/

/-- A BARRIER record less its hop goes to the children; at an armed package it fires at once if it is late, and is held
otherwise. -/
theorem State.barrierRecord_of_front {p : PortId} {b : List Byte} {l : List (List Byte)} (hfront : (s.port p).ctrlIn = b :: l)
    (hkind : leAt b 0 1 = 5) :
    s.barrierRecord p =
      (let t := leAt b 1 8
       let rest := signed 32 (leAt b 9 4) - 16 * ((s.portNs p : Int) + 10)
       let s2 := (s.setPort p { s.port p with ctrlIn := l }).toChildren (barrierRec t rest)
       if s.armed = false then s2
       else if rest < 0 then s2.fire ⟨BitVec.ofNat 64 t, s.getReg (hdl 0x00), true⟩
       else s2.modHeddle fun h =>
         { h with barrier := some ⟨BitVec.ofNat 64 t, BitVec.ofNat 64 (s.weft + ceilDiv rest.toNat 16), false⟩ }) := by
  simp only [State.barrierRecord, State.takeCtrl_of_front hfront hkind, Bool.not_eq_true']

/-- A fire whose delay is over comes, and another waits. -/
theorem State.barrierFire_of_held {b : Barrier} (h : s.heddle.barrier = some b) :
    s.barrierFire = if s.reached b.fireAt = true then s.fire b else s := by
  rw [State.barrierFire, h]

/-- A bit that is cleared reads 0. -/
theorem bit_putBit_false {n : Nat} (v : BitVec n) : bit (putBit v 0 false) 0 = false := by
  simp [bit, putBit, putFld]

/-- ARM clears at a fire. -/
def State.disarmed (s : State) : State :=
  (s.modHeddle fun h => { h with barrier := none }).modReg (hdl 0x120) fun v => putBit v 0 false

/-- A fire whose T has passed is refused in the status. -/
theorem State.fire_of_past {b : Barrier} (harmed : s.armed = true) (hpast : b.t.toNat ≤ s.weft) :
    s.fire b =
      (let s1 := s.disarmed.modReg (hdl 0x128) fun v => v ||| 2 ||| (if b.early = true then 4 else 0)
       s1.logHdl 0x6004 0 (s1.getReg (hdl 0x128))) := by
  rw [State.fire, if_neg (by simp [harmed])]
  simp only [if_neg hpast.not_gt]
  rfl

end

/-- Settles O51: each record and each write by its law. The fire asks for no time lock (log entry 32), and OFS shows the low 16
bits of the offset (log entry 51). -/
theorem timeRecordsAndBarrier : Obligations.TimeRecordsAndBarrier := by
  intro s
  refine ⟨fun p hst hdue => congrArg Host.Outcome.next (State.timeSend_of_due hst hdue),
    fun p b t hfront hkind => ⟨fun hroot hup => ?upstream,
      fun hother => congrArg Host.Outcome.next (State.timeRecord_of_other hfront hkind hother)⟩,
    fun hroot hlate => congrArg Host.Outcome.next (State.timeHoldover_of_late hroot hlate), s.setTime_getReg_self,
    fun val ha hidle => ⟨fun harm => congrArg Host.Outcome.next ((State.barrierCfg_of_idle val ha hidle).trans (if_pos harm)),
      fun harm => congrArg Host.Outcome.next ((State.barrierCfg_of_idle val ha hidle).trans
        (if_neg (Bool.eq_false_iff.1 harm)))⟩,
    fun val hactive => congrArg Host.Outcome.next (State.barrierCfg_of_active val hactive),
    fun val ha hsafe hroot harmed => congrArg Host.Outcome.next (State.barrierGo_of_armed val ha hsafe hroot harmed),
    fun p b l hfront hkind => ?barrier,
    fun b hheld => ⟨fun hreached => congrArg Host.Outcome.next ((State.barrierFire_of_held hheld).trans (if_pos hreached)),
      fun hearly => congrArg Host.Outcome.next ((State.barrierFire_of_held hheld).trans
        (if_neg (Bool.eq_false_iff.1 hearly)))⟩,
    fun b harmed hpast => ?past⟩
  case upstream =>
    refine congrArg Host.Outcome.next ((State.timeRecord_of_upstream hfront hkind hroot hup).trans ?_)
    simp only [apply_ite (flagBit · 0)]
    rfl
  case barrier =>
    have hrecord := State.barrierRecord_of_front hfront hkind
    exact ⟨fun harmed => congrArg Host.Outcome.next (hrecord.trans (if_pos harmed)),
      fun harmed hlate => congrArg Host.Outcome.next (hrecord.trans ((if_neg (by simp [harmed])).trans (if_pos hlate))),
      fun harmed htime => congrArg Host.Outcome.next (hrecord.trans ((if_neg (by simp [harmed])).trans (if_neg htime.not_gt)))⟩
  case past =>
    have hreg (a : Nat) : (s.fire b).getReg a = _ := (congrArg (State.getReg · a) (State.fire_of_past harmed hpast)).trans
      ((State.logHdl_getReg _ _ _ _ _).trans (State.modReg_getReg _ _ _ _))
    have harm (a : Nat) : s.disarmed.getReg a =
        if a = hdl 0x120 then putBit (s.getReg (hdl 0x120)) 0 false else s.getReg a := State.modReg_getReg _ _ _ _
    rw [hreg, hreg, if_neg (by decide), if_pos rfl, harm, harm, if_pos rfl, if_neg (by decide)]
    exact ⟨bit_putBit_false _, rfl⟩

end Sys2Proof.Machine
end

section
/-! PROOFS. A step by its front command, the invariants of a step and of the machine before a power-on (15 R478, 16 R503). -/

namespace Sys2Proof.Machine

/-- Settles O1: the step takes the front of the queue, and the queue's rest is what stood behind it. -/
theorem stepTakesFront : Obligations.StepTakesFront := fun _ _ => rfl

/-- Settles O3: a step is one clk or one command, and each operation of the model keeps both canonical forms (`Keeps`). -/
theorem everyStepKeepsCanonicalForms : Obligations.EveryStepKeepsCanonicalForms := fun _ _ hregs hmem hstep =>
  have hkeeps := step_keeps hstep
  ⟨hkeeps.regs hregs, hkeeps.mem hmem⟩

/-- Settles O5: before a power-on nothing is listed and nothing waits. That the fuses are those of an OZ40-256 is the model's choice
(log entry 4), and so are the low pins (log entry 5). -/
theorem resetMeetsTheInvariant : Obligations.ResetMeetsTheInvariant :=
  ⟨rfl, rfl, rfl, rfl, fun _ => rfl, fun _ => rfl, rfl, rfl, rfl, rfl, rfl⟩

end Sys2Proof.Machine
end

section
/-! PROOFS. Fields and bits of a register after one of them is changed (Table 0.6). -/

namespace Sys2Proof.Machine

/-- A bit of a value of which a field was replaced. -/
theorem putFld_getLsbD {n : Nat} (v : BitVec n) (hi lo x : Nat) {i : Nat} (hin : i < n) :
    (putFld v hi lo x).getLsbD i = if lo ≤ i ∧ i < hi + 1 then x.testBit (i - lo) else v.getLsbD i := by
  have hmask : (2 ^ (hi + 1 - lo) - 1).testBit (i - lo) = decide (i - lo < hi + 1 - lo) := Nat.testBit_two_pow_sub_one _ _
  simp only [putFld, BitVec.getLsbD_or, BitVec.getLsbD_and, BitVec.getLsbD_not, BitVec.getLsbD_ofNat, Nat.testBit_mul_two_pow, hmask,
    hin, decide_true, Bool.true_and]
  by_cases hlo : lo ≤ i
  · by_cases hhi : i < hi + 1
    · simp [hlo, hhi, show i - lo < hi + 1 - lo by omega]
    · simp [hlo, hhi, show ¬ i - lo < hi + 1 - lo by omega]
  · simp [hlo]

/-- A bit of a value of which one bit was set or cleared. -/
theorem putBit_getLsbD {n : Nat} (v : BitVec n) (j : Nat) (b : Bool) {i : Nat} (hin : i < n) :
    (putBit v j b).getLsbD i = if i = j then b else v.getLsbD i := by
  rw [putBit, putFld_getLsbD v j j _ hin]
  by_cases h : i = j
  · subst h; cases b <;> simp
  · rw [if_neg (by omega), if_neg h]

/-- The bit that was set or cleared. -/
theorem bit_putBit_self {n : Nat} (v : BitVec n) {i : Nat} (b : Bool) (hin : i < n) : bit (putBit v i b) i = b := by
  rw [bit, putBit_getLsbD v i b hin, if_pos rfl]

/-- Another bit. -/
theorem bit_putBit_ne {n : Nat} (v : BitVec n) {i j : Nat} (b : Bool) (hin : i < n) (h : i ≠ j) :
    bit (putBit v j b) i = bit v i := by
  rw [bit, putBit_getLsbD v j b hin, if_neg h, bit]

/-- A bit of a number's field is a bit of the number. -/
theorem testBit_fld {n : Nat} (v : BitVec n) (hi lo i : Nat) :
    (fld v hi lo).testBit i = (decide (i < hi + 1 - lo) && v.getLsbD (lo + i)) := by
  rw [fld, Nat.testBit_mod_two_pow, Nat.testBit_div_two_pow, Nat.add_comm i lo, BitVec.testBit_toNat]

/-- The field that was replaced reads what was written, as far as its bits hold it. -/
theorem fld_putFld_self {n : Nat} (v : BitVec n) {hi lo : Nat} (x : Nat) (h : hi < n) :
    fld (putFld v hi lo x) hi lo = x % 2 ^ (hi + 1 - lo) := by
  refine Nat.eq_of_testBit_eq fun i => ?_
  rw [testBit_fld, Nat.testBit_mod_two_pow]
  by_cases hi' : i < hi + 1 - lo
  · rw [putFld_getLsbD v hi lo x (by omega), if_pos (by omega), Nat.add_sub_cancel_left]
  · simp [hi']

/-- A field that shares no bit with the one replaced stays. -/
theorem fld_putFld_of_disjoint {n : Nat} (v : BitVec n) {hi lo hi' lo' : Nat} (x : Nat) (h' : hi' < n) (h : hi' < lo ∨ hi < lo') :
    fld (putFld v hi lo x) hi' lo' = fld v hi' lo' := by
  refine Nat.eq_of_testBit_eq fun i => ?_
  rw [testBit_fld, testBit_fld]
  by_cases hi'' : i < hi' + 1 - lo'
  · rw [putFld_getLsbD v hi lo x (by omega), if_neg (by omega)]
  · simp [hi'']

end Sys2Proof.Machine
end

section
/-! PROOFS. Snapshot groups (16 R506, 17 R523): their latch and release, and the reads of a requester that holds a latch. -/

namespace Sys2Proof.Machine

/-- Settles O10: while its block answers, bit 0 of the value latches the group or releases it. -/
theorem snapshotLatchAndRelease : Obligations.SnapshotLatchAndRelease := by
  refine fun s req => ⟨fun grp ha => ?_, fun g ha => ?_⟩
  · have hanswers : ¬ ((!s.answers (snapBlock grp)) = true) := by simp [ha]
    exact ⟨congrArg _ (if_neg hanswers), congrArg _ (if_neg hanswers)⟩
  · have hanswers : ¬ ((!s.coreAnswers g) = true) := by simp [ha]
    exact ⟨congrArg _ (if_neg hanswers), congrArg _ (if_neg hanswers)⟩

/-- A requester with one latch reads from it what the latch lists. -/
theorem State.readReg_of_only_latch {s : State} {req : Requester} {l : Latch} {b : Block} {o : Nat} {v : Dword}
    (honly : s.latches.filter (fun l => l.req == req) = [l]) (hval : l.vals.lookup (b.base + o) = some v) :
    s.readReg req b o = v := by
  rw [State.readReg, honly, List.findSome?_cons, hval]

/-- A list of pairs by keys that are all different gives each key its own value. -/
theorem lookup_map_of_nodup {α : Type} (key : α → Nat) (val : α → Dword) {l : List α} (hl : (l.map key).Nodup) {r : α} (hr : r ∈ l) :
    (l.map fun x => (key x, val x)).lookup (key r) = some (val r) := by
  induction l with
  | nil => cases hr
  | cons x l ih =>
    obtain ⟨hx, hl⟩ := List.nodup_cons.1 hl
    rw [List.map_cons, List.lookup_cons]
    obtain rfl | hr := List.mem_cons.1 hr
    · rw [beq_self_eq_true]
    · have hne : key r ≠ key x := fun h => hx (h ▸ List.mem_map_of_mem hr)
      rw [beq_eq_false_iff_ne.2 hne]
      exact ih hl hr

/-- The members of a group lie at different addresses. -/
theorem snapRegs_nodup (grp : SnapGroup) : ((snapRegs grp).map fun r => r.1.base + r.2).Nodup := by
  cases grp <;> decide

/-- The latches of a requester that takes a group while it holds no other: that group's alone. -/
theorem State.holdLatch_filter_self {s : State} {req : Requester} {first : Nat} (vals : List (Nat × Dword))
    (honly : ∀ l ∈ s.latches, l.req = req → l.first = first) :
    (s.holdLatch req first vals).latches.filter (fun l => l.req == req) = [{ req := req, first := first, vals := vals }] := by
  have hold : (s.dropLatch req first).latches.filter (fun l => l.req == req) = [] := by
    rw [State.dropLatch, List.filter_filter, List.filter_eq_nil_iff]
    intro l hl
    by_cases hreq : l.req = req
    · simp [hreq, honly l hl hreq]
    · simp [hreq]
  rw [State.holdLatch, List.filter_append, hold]
  simp

/-- The latches of another requester stay. -/
theorem State.holdLatch_filter_ne (s : State) {req req' : Requester} (first : Nat) (vals : List (Nat × Dword)) (hne : req' ≠ req) :
    (s.holdLatch req first vals).latches.filter (fun l => l.req == req') = s.latches.filter (fun l => l.req == req') := by
  simp only [State.holdLatch, State.dropLatch, List.filter_append, List.filter_filter]
  have hnew : ([{ req := req, first := first, vals := vals }] : List Latch).filter (fun l => l.req == req') = [] := by
    simp [Ne.symm hne]
  rw [hnew, List.append_nil]
  refine List.filter_congr fun l _ => ?_
  by_cases hreq : l.req = req'
  · simp [hreq, hne]
  · simp [hreq]

/-- A latch changes no live value. -/
theorem State.holdLatch_liveReg (s : State) (req : Requester) (first : Nat) (vals : List (Nat × Dword)) (b : Block) (o : Nat) :
    (s.holdLatch req first vals).liveReg b o = s.liveReg b o := by
  cases b <;> rfl

/-- Settles O11: the requester has the new latch alone, which lists every member, and no one else's latches change. -/
theorem latchedGroupReadsTogether : Obligations.LatchedGroupReadsTogether := by
  intro s req grp ha honly
  have hexec : exec (.snapshotLatch req grp) s = .next (s.holdLatch req (snapFirst grp)
      ((snapRegs grp).map fun r => (r.1.base + r.2, s.liveReg r.1 r.2))) := ((snapshotLatchAndRelease s req).1 grp ha).1
  refine ⟨_, hexec, fun u hu r hr => ?_, fun req' b o hne => ?_⟩
  · exact State.readReg_of_only_latch (hu ▸ State.holdLatch_filter_self _ honly) (lookup_map_of_nodup _ _ (snapRegs_nodup grp) hr)
  · rw [State.readReg, State.readReg, State.holdLatch_filter_ne s _ _ hne, State.holdLatch_liveReg]

end Sys2Proof.Machine
end

section
/-! PROOFS. A write of HDL_PROG_MAPn (13 R431) and a write of RUN = 1 (16 R509): sums and folds over the bits of a register. -/

namespace Sys2Proof.Machine

open Sys2Proof.Claims

/-! ## HDL_PROG_MAPn (R431) -/

/-- The sum of the powers of two that a test names below n: its bits, and its bound. -/
theorem testBit_foldl_two_pow (p : Nat → Bool) (n : Nat) :
    let v := (List.range n).foldl (fun (v : Nat) j => if p j then v + 2 ^ j else v) 0
    v < 2 ^ n ∧ ∀ i, v.testBit i = (decide (i < n) && p i) := by
  induction n with
  | zero => simp
  | succ n ih =>
    obtain ⟨hlt, hbit⟩ := ih
    simp only [List.range_succ, List.foldl_append, List.foldl_cons, List.foldl_nil]
    generalize (List.range n).foldl (fun (v : Nat) j => if p j then v + 2 ^ j else v) 0 = v at hlt hbit
    have hsum : (if p n = true then v + 2 ^ n else v) < 2 ^ (n + 1) := by split <;> omega
    refine ⟨hsum, fun i => ?_⟩
    obtain h | rfl | h := Nat.lt_trichotomy i n
    · have hsame : (if p n = true then v + 2 ^ n else v).testBit i = v.testBit i := by
        split
        · rw [Nat.add_comm, Nat.testBit_two_pow_add_gt h]
        · rfl
      rw [hsame, hbit, decide_eq_true h, decide_eq_true (h.trans n.lt_succ_self)]
    · rw [decide_eq_true i.lt_succ_self, Bool.true_and]
      by_cases hp : p i = true
      · rw [if_pos hp, Nat.add_comm, Nat.testBit_two_pow_add_eq, Nat.testBit_lt_two_pow hlt, hp]
        rfl
      · rw [if_neg hp, Nat.testBit_lt_two_pow hlt, Bool.eq_false_iff.2 hp]
    · rw [Nat.testBit_lt_two_pow (hsum.trans_le (Nat.pow_le_pow_right (by decide) h)), decide_eq_false (by omega), Bool.false_and]

/-- Settles O28: the value is the sum over the bits written whose cores work; outside IDLE nothing is written. -/
theorem programMapKeepsWorkingCores : Obligations.ProgramMapKeepsWorkingCores := by
  intro s m v ha
  have hexec : exec (.progMapWrite m v) s = .next (s.progMap m.val v) := rfl
  refine ⟨fun hidle => ⟨_, fun i hi => ?_, hexec.trans (congrArg _ (if_neg (by simp [ha, hidle])))⟩,
    fun hbusy => hexec.trans (congrArg _ (if_pos (by simp [hbusy])))⟩
  obtain ⟨_, hbit⟩ := testBit_foldl_two_pow (fun j => bit v j && s.works (BitVec.ofNat 8 (32 * m.val + j))) 32
  rw [BitVec.getLsbD_ofNat, hbit, decide_eq_true hi, Bool.true_and, Bool.and_assoc]
  rfl

/-! ## RUN = 1 (R509) -/

/-- A field of a register is below the power of two of its width. -/
theorem fld_lt {n : Nat} (v : BitVec n) (hi lo : Nat) : fld v hi lo < 2 ^ (hi + 1 - lo) := Nat.mod_lt _ (Nat.two_pow_pos _)

/-- The budget is at most the cycles of a period (R56), so that HDL_PICK_BUDGET holds it. -/
theorem State.budget_lt (s : State) : s.budget < 2 ^ 64 := by
  have htotal (p f r : Nat) (ssc : Bool) : (budgetOf p f ssc r).getD 0 ≤ p * f := by
    unfold budgetOf
    have hspread : (if ssc then p * f * 995 / 1000 else p * f) ≤ p * f := by split <;> omega
    generalize (if ssc then p * f * 995 / 1000 else p * f) = total at hspread
    by_cases hleft : 1024 + r + 1 ≤ total
    · rw [if_pos hleft]
      exact (Nat.sub_le _ _).trans ((Nat.sub_le _ _).trans hspread)
    · rw [if_neg hleft]
      exact Nat.zero_le _
  have hcycles : s.period * s.fcore ≤ 2 ^ 20 * 2 ^ 12 := Nat.mul_le_mul (fld_lt _ _ _).le (fld_lt _ _ _).le
  unfold State.budget
  split
  · decide
  · exact ((htotal _ _ _ _).trans hcycles).trans_lt (by decide)

/-- The conditions that hold are those of Table 16.5. -/
theorem State.mem_runRefusals (s : State) (b : Nat) : b ∈ s.runRefusals ↔ runCondition s b = true := by
  have hcode (c : Bool) (n : Nat) : b ∈ codeIf c n ↔ b = n ∧ c = true := by cases c <;> simp [codeIf]
  have hbudget : (s.budget == 0) = (s.liveReg .hdl 0x40 == 0) := by
    refine Bool.eq_iff_iff.2 ?_
    rw [beq_iff_eq, beq_iff_eq]
    have hlive : s.liveReg .hdl 0x40 = BitVec.ofNat 64 s.budget := rfl
    rw [hlive, ← BitVec.toNat_inj, BitVec.toNat_ofNat, Nat.mod_eq_of_lt s.budget_lt]
    rfl
  simp only [State.runRefusals, List.mem_append, hcode, hbudget]
  unfold runCondition
  split
  case h_10 => simp_all
  case h_4 =>
    have hcount : fld (s.getReg (hdl 0x100)) 20 10 = s.domainCount := rfl
    rw [hcount]
    simp
  all_goals simp [State.safe]

/-- The bits of a list set in a value. -/
theorem foldl_putBit_getLsbD (l : List Nat) (v : Dword) {i : Nat} (hi : i < 64) :
    (l.foldl (fun (v : Dword) b => putBit v b true) v).getLsbD i = (decide (i ∈ l) || v.getLsbD i) := by
  induction l generalizing v with
  | nil => simp
  | cons b l ih =>
    rw [List.foldl_cons, ih, putBit_getLsbD v b true hi]
    by_cases h : i = b
    · simp [h]
    · simp [h]

/-- Settles O29: the list of refusals is the conditions that hold; their flags are set, or RUN is where the list is empty. -/
theorem pickRunRefusals : Obligations.PickRunRefusals := by
  intro s ha hrun
  have hrefusals : s.runRefusals.filter (fun b => b != 0) = s.runRefusals :=
    List.filter_eq_self.2 fun b hb => bne_iff_ne.2 fun h0 => by
      rw [h0, State.mem_runRefusals] at hb
      exact Bool.false_ne_true hb
  have hexec : exec .pickRun s = .next (s.runWith 0) := congrArg Host.Outcome.next (if_pos ha)
  rw [hexec, State.runWith, hrun, if_neg (by decide), hrefusals]
  refine ⟨fun ⟨b, hb⟩ => ?_, fun hnone => ?_⟩
  · refine ⟨s.runRefusals.foldl (fun (v : Dword) b => putBit v b true) (s.getReg (hdl 0x24)), fun i hi => ?_, ?_⟩
    · have hflag : decide (i ∈ s.runRefusals) = runCondition s i :=
        Bool.eq_iff_iff.2 (decide_eq_true_iff.trans (s.mem_runRefusals i))
      rw [foldl_putBit_getLsbD _ _ hi, hflag]
    · split
      · next hnil => exact absurd ((s.mem_runRefusals b).2 hb) (hnil ▸ List.not_mem_nil)
      · rfl
  · have hnil : s.runRefusals = [] := List.eq_nil_iff_forall_not_mem.2 fun b hb =>
      Bool.false_ne_true ((hnone b).symm.trans ((s.mem_runRefusals b).1 hb))
    rw [hnil]
    rfl

end Sys2Proof.Machine
end

section
/-! PROOFS. The SMBus window (15 §15.6), the power and temperature limits (§15.8), pad slew (R498) and the TAP (R500). -/

namespace Sys2Proof.Machine

/-! ## The SMBus window (R490, R491) -/

/-- A window that answers gives the bytes. -/
theorem State.smbAnswer_of_live {s : State} (h : s.power.smbLive = true) (l : List Byte) :
    s.smbAnswer l = s.emit (.smbus (some l)) := if_pos h

/-- One that does not answer does what an address match does. -/
theorem State.smbAnswer_of_dead {s : State} (h : s.power.smbLive = false) (l : List Byte) : s.smbAnswer l = s.addressMatch :=
  if_neg (by simp [h])

/-- A write of a window that does not answer. -/
theorem State.smbWrite_of_dead {s : State} (h : s.power.smbLive = false) (pec : Bool) (f : State → State) :
    s.smbWrite pec f = s.addressMatch := if_pos (by simp [h])

/-- A write with a wrong PEC. -/
theorem State.smbWrite_of_bad_pec {s : State} (h : s.power.smbLive = true) (f : State → State) :
    s.smbWrite false f = s.emit (.smbus none) := (if_neg (by simp [h])).trans (if_pos rfl)

/-- A write with a right PEC is acknowledged and takes effect. -/
theorem State.smbWrite_of_good_pec {s : State} (h : s.power.smbLive = true) (f : State → State) :
    s.smbWrite true f = f (s.emit (.smbus (some []))) := (if_neg (by simp [h])).trans (if_neg (by decide))

/-- An address match at a window that does not answer. -/
theorem State.addressMatch_of_dead {s : State} (h : s.power.smbLive = false) :
    s.addressMatch = if bit s.temple.settings.wakeEn 0 && s.pwrState == 0 then (s.emit (.smbus none)).wakeUp 1
      else s.emit (.smbus none) := if_neg (by simp [h])

/-- Settles O59: the window that answers, and the one that does not. That ALERT is 0 and the samples none before any report is the
model's choice (log entry 6). -/
theorem smbusWindowAnswers : Obligations.SmbusWindowAnswers := by
  refine fun s => ⟨fun hlive => ⟨fun e he => ?reads, congrArg _ (if_pos hlive), fun val => ?writes⟩, fun hdead val pec c hc => ?dead⟩
  case reads =>
    simp only [List.mem_cons, List.not_mem_nil, or_false] at he
    obtain rfl | rfl | rfl | rfl | rfl | rfl := he <;> exact congrArg _ (State.smbAnswer_of_live hlive _)
  case writes =>
    have hreq : s.smbReq val true = _ := State.smbWrite_of_good_pec hlive _
    exact ⟨congrArg _ (State.smbWrite_of_bad_pec hlive _), congrArg _ (State.smbWrite_of_bad_pec hlive _),
      fun hother => congrArg _ (hreq.trans (if_pos hother)), fun htarget => congrArg _ (hreq.trans (if_neg (not_not.2 htarget))),
      congrArg _ (State.smbWrite_of_good_pec hlive _)⟩
  case dead =>
    have hmatch := congrArg (Host.Outcome.next (φ := Fault) (ρ := Refusal)) (State.addressMatch_of_dead hdead)
    have hanswer (l : List Byte) := (congrArg Host.Outcome.next (State.smbAnswer_of_dead hdead l)).trans hmatch
    have hwrite (f : State → State) := (congrArg Host.Outcome.next (State.smbWrite_of_dead hdead pec f)).trans hmatch
    simp only [List.mem_cons, List.not_mem_nil, or_false] at hc
    obtain rfl | rfl | rfl | rfl | rfl | rfl | rfl | rfl | rfl := hc
    · exact hmatch
    iterate 6 exact hanswer _
    iterate 2 exact hwrite _

/-! ## Limits (R496, R497) -/

section
variable {s : State}

/-- A power sample whose mean is within the limit. -/
theorem State.telemetry_of_within {watts : Nat} (hcore : s.power.enCore = true)
    (h : (((watts + fld (s.getReg (hdl 0x1130)) 27 16) :: s.power.samples).take 10).sum ≤ 10 * fld (s.getReg (hdl 0x1130)) 10 0) :
    s.telemetry watts = s.modPower fun p =>
      { p with samples := ((watts + fld (s.getReg (hdl 0x1130)) 27 16) :: s.power.samples).take 10, overCount := 0 } := by
  simp only [State.telemetry, hcore, Bool.not_true, Bool.false_eq_true, if_false, h.not_gt, Nat.zero_lt_succ, if_true]

/-- A power sample that raises the mean above the limit counts, and the third in a row asks for HOLD. -/
theorem State.telemetry_of_above {watts : Nat} (hcore : s.power.enCore = true)
    (h : 10 * fld (s.getReg (hdl 0x1130)) 10 0 < (((watts + fld (s.getReg (hdl 0x1130)) 27 16) :: s.power.samples).take 10).sum) :
    s.telemetry watts =
      (let s1 := s.modPower fun p =>
        { p with samples := ((watts + fld (s.getReg (hdl 0x1130)) 27 16) :: s.power.samples).take 10
                 overCount := s.power.overCount + 1 }
       if s.power.overCount + 1 < 3 then s1 else (s1.alert 3).askPower ⟨3, 3, 3⟩) := by
  simp only [State.telemetry, hcore, Bool.not_true, Bool.false_eq_true, if_false, h, if_true]

/-- A temperature report is kept; near the limit it alerts, at the limit it asks for OFF. -/
theorem State.thermal_of_runs (d : LogDie) (temp : BitVec 16) (hruns : s.weftRuns = true) :
    s.thermal d temp =
      (let s1 := s.modPower fun p => { p with temps := sins (serase p.temps d.val) d.val temp }
       let s2 := if (s.temple.settings.thermC : Int) - 10 ≤ temp.toInt then s1.alert 2 else s1
       if (s.temple.settings.thermC : Int) ≤ temp.toInt then s2.askPower ⟨3, 0, 4⟩ else s2) := if_neg (by simp [hruns])

/-! ## Settings with a range (R472, R496, R498) -/

/-- HDL_PWR_LIMIT takes a limit of its range, and no other. -/
theorem State.limitWrite_of_answers (val : Word) (ha : s.answers .hdl = true) :
    s.limitWrite val = if fld val 10 0 < 100 ∨ 1650 < fld val 10 0 then s
      else s.setReg (hdl 0x1130) (BitVec.ofNat 64 (fld val 10 0 + 2 ^ 16 * fld val 27 16)) := by
  simp only [State.limitWrite, ha, Bool.not_true, Bool.false_or, Bool.or_eq_true, decide_eq_true_eq]

/-- HDL_AVS_TMO takes a time of its range, and no other. -/
theorem State.tmoWrite_of_answers (val : Word) (ha : s.answers .hdl = true) :
    s.tmoWrite val = if fld val 12 0 < 50 ∨ 5000 < fld val 12 0 then s
      else s.setReg (hdl 0x1134) (BitVec.ofNat 64 (fld val 12 0)) := by
  simp only [State.tmoWrite, ha, Bool.not_true, Bool.false_or, Bool.or_eq_true, decide_eq_true_eq]

end

/-- One slew field of two bits, which keeps its value where 0b11 is written. -/
def putSlew (val : Word) (v : Dword) (i : Nat) : Dword :=
  if fld val (2 * i + 1) (2 * i) = 3 then v else putFld v (2 * i + 1) (2 * i) (fld val (2 * i + 1) (2 * i))

/-- The slew fields after the first n of them were written. -/
theorem fld_foldl_putSlew (val : Word) (v : Dword) {n i : Nat} (hn : n ≤ 32) (hi : i < 32) :
    fld ((List.range n).foldl (putSlew val) v) (2 * i + 1) (2 * i) =
      if i < n ∧ fld val (2 * i + 1) (2 * i) ≠ 3 then fld val (2 * i + 1) (2 * i) else fld v (2 * i + 1) (2 * i) := by
  induction n with
  | zero => simp
  | succ n ih =>
    have ih := ih (by omega)
    rw [List.range_succ, List.foldl_append, List.foldl_cons, List.foldl_nil, putSlew]
    by_cases hkeep : fld val (2 * n + 1) (2 * n) = 3
    · rw [if_pos hkeep, ih]
      by_cases hin : i = n
      · subst hin; simp [hkeep]
      · simp only [show i < n + 1 ↔ i < n by omega]
    · rw [if_neg hkeep]
      by_cases hin : i = n
      · subst hin
        rw [fld_putFld_self _ _ (by omega), Nat.mod_eq_of_lt (fld_lt _ _ _), if_pos ⟨i.lt_succ_self, hkeep⟩]
      · rw [fld_putFld_of_disjoint _ _ (by omega) (by omega), ih]
        simp only [show i < n + 1 ↔ i < n by omega]

/-- Settles O60: each sample, report and write by its law, and the instructions of the TAP. That a load releases TRST_N and that a
reset selects IDCODE is IEEE 1149.1's (log entry 7). -/
theorem limitsTemperatureAndJtag : Obligations.LimitsTemperatureAndJtag := by
  refine fun s => ⟨fun watts hcore => ⟨fun hin => congrArg _ (State.telemetry_of_within hcore hin), fun hover => ⟨fun hfew => ?_,
      fun hmany => ?_⟩⟩,
    fun d temp hruns => ?thermal, fun val ha => ⟨fun hlow hhigh => ?_, fun hout => ?_, fun hlow hhigh => ?_, fun hout => ?_, ?slew⟩,
    fun op => ?jtag, rfl⟩
  · exact congrArg _ ((State.telemetry_of_above hcore hover).trans (if_pos (by omega)))
  · exact congrArg _ ((State.telemetry_of_above hcore hover).trans (if_neg (by omega)))
  case thermal =>
    have hthermal := State.thermal_of_runs (s := s) d temp hruns
    exact ⟨fun hcool => congrArg _ (hthermal.trans ((if_neg (by omega)).trans (if_neg (by omega)))),
      fun hnear hbelow => congrArg _ (hthermal.trans ((if_neg (by omega)).trans (if_pos hnear))),
      fun hhot => congrArg _ (hthermal.trans ((if_pos hhot).trans (congrArg (State.askPower · _) (if_pos (by omega)))))⟩
  · exact congrArg _ ((State.limitWrite_of_answers val ha).trans (if_neg (by omega)))
  · exact congrArg _ ((State.limitWrite_of_answers val ha).trans (if_pos hout))
  · exact congrArg _ ((State.tmoWrite_of_answers val ha).trans (if_neg (by omega)))
  · exact congrArg _ ((State.tmoWrite_of_answers val ha).trans (if_pos hout))
  case slew =>
    refine ⟨(List.range 6).foldl (putSlew val) (s.getReg (hdl 0x113C)), congrArg _ (if_neg (by simp [ha])), fun i hi => ?_⟩
    rw [fld_foldl_putSlew val _ (by decide) (by omega)]
    by_cases hkeep : fld val (2 * i + 1) (2 * i) = 3 <;> simp [hkeep, hi]
  case jtag =>
    by_cases hpicks : s.active = true
    · simp [exec, execJtagInstruction, State.jtagLoad, hpicks]
    · cases op <;> simp [exec, execJtagInstruction, State.jtagLoad, hpicks]

end Sys2Proof.Machine
end

section
/-! PROOFS. Die islands (15 §15.5): HDL_PWR_DIE and the dies that go down and come up, island faults, and the wake sources (§15.6). -/

namespace Sys2Proof.Machine

/-! ## HDL_PWR_DIE (R487) -/

/-- The conditions under which a die may be powered down (R487). -/
structure DiesFree (s : State) : Prop where
  prog : s.progState = 0
  active : s.active = false
  bolts : ∀ d < 32, s.boltOnDie d = false

/-- What a write of HDL_PWR_DIE has done to the dies below n, on the way from `s` to `t`. -/
structure DiesWritten (val : Dword) (s : State) (n : Nat) (t : State) : Prop where
  free : DiesFree t
  bits : ∀ d < 36, bit (t.getReg (hdl 0x1128)) d = if d < n then bit val d else bit (s.getReg (hdl 0x1128)) d
  down : ∀ d < n, bit (s.getReg (hdl 0x1128)) d = true → bit val d = false → d ∈ t.power.dieDown
  downOld : ∀ d, n ≤ d → (d ∈ t.power.dieDown ↔ d ∈ s.power.dieDown)
  up : ∀ d < n, bit (s.getReg (hdl 0x1128)) d = false → bit val d = true → d ∉ s.power.dieDown → d ∈ t.power.dieUp

/-- A die marked as going down. -/
def Power.goDown (d : Nat) (p : Power) : Power :=
  { p with dieDown := addKey p.dieDown d, dieUp := p.dieUp.filter (· != d), dieQueue := p.dieQueue.filter (· != d) }

/-- A die marked as coming up, or queued where it is still going down. -/
def Power.comeUp (d : Nat) (p : Power) : Power :=
  if p.dieDown.contains d then { p with dieQueue := addKey p.dieQueue d } else { p with dieUp := addKey p.dieUp d }

/-- The marks after a die goes down: its own, and those of the other dies. -/
theorem Power.mem_goDown (p : Power) (d e : Nat) :
    (e ∈ (p.goDown d).dieDown ↔ e = d ∨ e ∈ p.dieDown) ∧ (e ∈ (p.goDown d).dieUp ↔ e ∈ p.dieUp ∧ e ≠ d) := by
  refine ⟨mem_addKey _ _ _, ?_⟩
  rw [Power.goDown, List.mem_filter, bne_iff_ne]

/-- A die that comes up changes no mark of a die going down. -/
theorem Power.comeUp_dieDown (p : Power) (d : Nat) : (p.comeUp d).dieDown = p.dieDown := by
  unfold Power.comeUp; split <;> rfl

/-- The mark of a die that comes up, unless it is still going down. -/
theorem Power.mem_comeUp_self {p : Power} {d : Nat} (h : d ∉ p.dieDown) : d ∈ (p.comeUp d).dieUp := by
  rw [Power.comeUp, if_neg (by simpa using h)]
  exact (mem_addKey _ _ _).2 (.inl rfl)

/-- The marks of the other dies coming up stay. -/
theorem Power.mem_comeUp {p : Power} (d : Nat) {e : Nat} (h : e ∈ p.dieUp) : e ∈ (p.comeUp d).dieUp := by
  unfold Power.comeUp
  split
  · exact h
  · exact (mem_addKey _ _ _).2 (.inr h)

/-- A register after a bit of HDL_PWR_DIE and the power logic were changed. -/
theorem State.dieBit_getReg (s : State) (d : Nat) (b : Bool) (f : Power → Power) (a : Nat) :
    ((s.dieBit d b).modPower f).getReg a = if a = hdl 0x1128 then putBit (s.getReg (hdl 0x1128)) d b else s.getReg a :=
  State.modReg_getReg s (hdl 0x1128) a fun v => putBit v d b

/-- A change of the power logic and of a bit of HDL_PWR_DIE leaves the conditions. -/
theorem DiesFree.dieBit {s : State} (h : DiesFree s) (d : Nat) (b : Bool) (f : Power → Power) :
    DiesFree ((s.dieBit d b).modPower f) := by
  obtain ⟨hprog, hactive, hbolts⟩ := h
  refine ⟨?_, ?_, hbolts⟩
  · rwa [State.progState, State.dieBit_getReg, if_neg (by decide)]
  · rwa [State.active, State.dieBit_getReg, if_neg (by decide)]

/-- A set bit marks its die coming up. -/
theorem State.dieWrite_true (s : State) (d : Nat) : s.dieWrite d true = (s.dieBit d true).modPower (Power.comeUp d) := rfl

/-- A cleared bit marks its die going down, where nothing forbids it. -/
theorem State.dieWrite_false {s : State} (h : DiesFree s) (d : Nat) :
    s.dieWrite d false = (s.dieBit d false).modPower (Power.goDown d) := by
  have hloom : ¬ ((decide (d < 32) && (s.progState != 0 || s.boltOnDie d)) = true) := by
    by_cases hd : d < 32
    · simp [h.prog, h.bolts d hd]
    · simp [hd]
  exact (if_neg (by decide)).trans ((if_neg hloom).trans (if_neg (by simp [h.active])))

/-- The next die of a write of HDL_PWR_DIE: its bit as it is, cleared, or set. -/
theorem DiesWritten.next {val : Dword} {s t : State} {n : Nat} (hn : n < 36) (h : DiesWritten val s n t) :
    DiesWritten val s (n + 1) (if bit val n == bit (t.getReg (hdl 0x1128)) n then t else t.dieWrite n (bit val n)) := by
  obtain ⟨hfree, hbits, hdown, hold, hup⟩ := h
  have hbit : bit (t.getReg (hdl 0x1128)) n = bit (s.getReg (hdl 0x1128)) n := (hbits n hn).trans (if_neg (Nat.lt_irrefl n))
  have hput (f : Power → Power) {b : Bool} (hb : bit val n = b) (d : Nat) (hd : d < 36) :
      bit (((t.dieBit n b).modPower f).getReg (hdl 0x1128)) d = if d < n + 1 then bit val d else bit (s.getReg (hdl 0x1128)) d := by
    rw [State.dieBit_getReg, if_pos rfl]
    by_cases hdn : d = n
    · rw [hdn, bit_putBit_self _ _ (by omega), if_pos n.lt_succ_self, hb]
    · rw [bit_putBit_ne _ _ (by omega) hdn, hbits d hd]
      simp only [show d < n + 1 ↔ d < n by omega]
  have hcase (d : Nat) (hd : d < n + 1) : d = n ∨ d < n := by omega
  rw [hbit]
  cases hv : bit val n <;> cases hs : bit (s.getReg (hdl 0x1128)) n
  case false.true =>
    rw [if_neg (by decide), State.dieWrite_false hfree]
    refine ⟨hfree.dieBit _ _ _, hput _ hv, fun d hd hsd hvd => ?_, fun d hd => ?_, fun d hd hsd hvd hnot => ?_⟩
    · exact (Power.mem_goDown _ _ _).1.2 ((hcase d hd).imp_right fun hlt => hdown d hlt hsd hvd)
    · exact (Power.mem_goDown _ _ _).1.trans ((or_iff_right (by omega)).trans (hold d (by omega)))
    · have hne : d ≠ n := fun e => by rw [e, hv] at hvd; cases hvd
      exact (Power.mem_goDown _ _ _).2.2 ⟨hup d ((hcase d hd).resolve_left hne) hsd hvd hnot, hne⟩
  case true.false =>
    rw [if_neg (by decide), State.dieWrite_true]
    have hmarks (d : Nat) : d ∈ ((t.dieBit n true).modPower (Power.comeUp n)).power.dieDown ↔ d ∈ t.power.dieDown :=
      (Power.comeUp_dieDown t.power n).symm ▸ Iff.rfl
    refine ⟨hfree.dieBit _ _ _, hput _ hv, fun d hd hsd hvd => ?_, fun d hd => ?_, fun d hd hsd hvd hnot => ?_⟩
    · have hne : d ≠ n := fun e => by rw [e, hv] at hvd; cases hvd
      exact (hmarks d).2 (hdown d ((hcase d hd).resolve_left hne) hsd hvd)
    · exact (hmarks d).trans (hold d (by omega))
    · obtain rfl | hlt := hcase d hd
      · exact Power.mem_comeUp_self fun hmem => hnot ((hold d le_rfl).1 hmem)
      · exact Power.mem_comeUp n (hup d hlt hsd hvd hnot)
  all_goals
    rw [if_pos (beq_self_eq_true _)]
    have hlast (d : Nat) (hd : d < n + 1) (hne : bit (s.getReg (hdl 0x1128)) d ≠ bit val d) : d < n :=
      (hcase d hd).resolve_left fun e => hne (by rw [e, hv, hs])
    refine ⟨hfree, fun d hd => ?_, fun d hd hsd hvd => hdown d (hlast d hd (by simp [hsd, hvd])) hsd hvd,
      fun d hd => hold d (by omega), fun d hd hsd hvd => hup d (hlast d hd (by simp [hsd, hvd])) hsd hvd⟩
    by_cases hdn : d = n
    · rw [hdn, hbit, if_pos n.lt_succ_self, hv, hs]
    · rw [hbits d hd]
      simp only [show d < n + 1 ↔ d < n by omega]

/-- A write of HDL_PWR_DIE in HOLD or RUN, with nothing against it, takes every bit and marks the dies. -/
theorem State.diePower_of_free {s : State} (val : Dword) (ha : s.answers .hdl = true) (hp : 3 ≤ s.pwrState) (h : DiesFree s) :
    DiesWritten val s 36 (s.diePower val) := by
  rw [State.diePower, if_neg (by simp [ha, hp])]
  suffices hfold : ∀ n ≤ 36, DiesWritten val s n ((List.range n).foldl (fun s d =>
      if bit val d == bit (s.getReg (hdl 0x1128)) d then s else s.dieWrite d (bit val d)) s) from hfold 36 le_rfl
  intro n hn
  induction n with
  | zero => exact ⟨h, by simp, by simp, by simp, by simp⟩
  | succ n ih =>
    rw [List.range_succ, List.foldl_append]
    exact (ih (by omega)).next (by omega)

/-! ## Dies that have gone down or come up (R487, R488) -/

/-- A die of which the reset was taken reads its reset values, and every other address what it read. -/
theorem State.dieReset_reads (s : State) (d a : Nat) :
    (s.dieReset d).getReg a = (if inDie d a then regReset a else s.getReg a) ∧
      (s.dieReset d).rawByte a = if inDie d a then memReset a else s.rawByte a :=
  ⟨sget_sdrop _ _ _ _, sget_sdrop _ _ _ _⟩

/-- A die that was going down is off. -/
theorem State.dieDone_of_down {s : State} {d : Nat} (h : d ∈ s.power.dieDown) :
    ∃ f : Power → Power, s.dieDone d = (s.dieReset d).modPower f ∧ (s.dieDone d).dieOn d = false := by
  have hdone : s.dieDone d = (s.dieReset d).modPower _ := if_pos (List.contains_iff_mem.2 h)
  refine ⟨_, hdone, ?_⟩
  rw [hdone, State.dieOn, Bool.not_eq_false']
  exact List.contains_iff_mem.2 ((mem_addKey _ _ _).2 (.inl rfl))

/-- A die that was coming up is on. -/
theorem State.dieDone_of_up {s : State} {d : Nat} (hdown : d ∉ s.power.dieDown) (hup : d ∈ s.power.dieUp) :
    (s.dieDone d).dieOn d = true := by
  have hdone : s.dieDone d = (s.dieReset d).modPower _ :=
    (if_neg (by simpa using hdown)).trans (if_pos (List.contains_iff_mem.2 hup))
  rw [hdone, State.dieOn, Bool.not_eq_true', State.modPower]
  simp

/-! ## Wake (R489) -/

/-- A wake source in SLUMBER at rest names itself and asks for HOLD. -/
theorem State.wakeUp_of_slumber {s : State} (src : Nat) (h : s.pwrState = 1) (hrest : s.power.seq = .none) :
    s.wakeUp src = (s.setReg (hdl 0x1138) (BitVec.ofNat 64 src)).askPower ⟨4, 3, 5⟩ := if_pos ⟨h, hrest⟩

/-- One in a state above SLUMBER does nothing. -/
theorem State.wakeUp_of_awake {s : State} (src : Nat) (h : 2 ≤ s.pwrState) : s.wakeUp src = s :=
  (if_neg (by omega)).trans ((if_neg (by omega)).trans (if_neg (by omega)))

/-- Settles O58: the bits die by die, the dies that are done, island faults, and each wake source. That an island fault stands in the
Heddle die's log is the model's reading (log entry 53). -/
theorem diesIslandsAndWakeSources : Obligations.DiesIslandsAndWakeSources := by
  refine fun s => ⟨fun val ha hp hprog hpicks hbolts => ?write, fun val hlow => congrArg _ (if_pos (by simp [hlow])),
    fun d hd => ?gone, fun d hd hup => ⟨_, rfl, State.dieDone_of_up hd hup⟩, fun g kind hfuse => ?core, fun d kind => rfl,
    ?wake, fun src => State.wakeUp_of_slumber src, fun src => State.wakeUp_of_awake src⟩
  case write =>
    obtain ⟨_, hbits, hdown, _, hup⟩ := State.diePower_of_free val ha hp ⟨hprog, hpicks, hbolts⟩
    exact ⟨_, rfl, fun d hd => (hbits d hd).trans (if_pos hd), hdown, hup⟩
  case gone =>
    obtain ⟨f, hdone, hoff⟩ := State.dieDone_of_down hd
    have hreads (a : Nat) := s.dieReset_reads d a
    refine ⟨_, rfl, hoff, fun a ha => ?_, fun a ha => ?_⟩
    · rw [hdone]; simpa [ha] using hreads a
    · rw [hdone]; simpa [ha] using hreads a
  case core =>
    have hisland : s.islandFault (.core g) kind = _ := if_neg (by simp [hfuse])
    have hfault := congrArg (Host.Outcome.next (φ := Fault) (ρ := Refusal)) hisland
    exact ⟨fun hrun => hfault.trans (by rw [if_pos hrun]; rfl), fun hrun => hfault.trans (by rw [if_neg (by simp [hrun])]; rfl)⟩
  case wake =>
    refine ⟨fun hon => congrArg _ (if_pos hon), fun hoff => congrArg _ (if_neg (by simp [State.wakeOn, hoff])),
      fun td => ⟨fun hlow hon => congrArg _ (if_pos (by simp [State.wakeOn, hlow, hon])), fun h => congrArg _ (if_neg ?_)⟩,
      fun rising => ⟨fun hon hedge => congrArg _ (if_pos (by simp [State.wakeOn, hon, hedge])), fun h => congrArg _ (if_neg ?_)⟩⟩
    · obtain h | h := h <;> simp [State.wakeOn, h]
    · obtain h | h := h <;> simp [State.wakeOn, h]

end Sys2Proof.Machine
end

section
/-! PROOFS. The Overseer (14 §14.1, §14.2): the comparator, faults and SAFE, the end of a resync, the self-test and halts. -/

namespace Sys2Proof.Machine

/-! ## The comparator (R446, R449, R453) -/

section
variable {s : State}

/-- A cycle outside resync compares what the delay registers release, unless their parity is bad. -/
theorem State.compare_of_live (oa ob : BitVec 256) (bad : Option Byte)
    (hlive : s.overseer.resync = false ∨ s.overseer.resyncEnded = true) :
    s.compare oa ob bad =
      (let s1 : State := { s with overseer := { s.overseer with delay := s.overseer.delay.drop 1 ++ [oa] } }
       let out := s.overseer.delay.headD 0
       match bad with
       | some r => s1.ovsFault 2 r.toNat
       | none => if out = ob then s1.ovsRelease out else s1.ovsFault 1 (lowBit (out ^^^ ob))) := by
  refine if_neg ?_
  obtain h | h := hlive <;> simp [h]

/-- A cycle in resync compares nothing. -/
theorem State.compare_of_resync (oa ob : BitVec 256) (bad : Option Byte) (hresync : s.overseer.resync = true)
    (hended : s.overseer.resyncEnded = false) :
    s.compare oa ob bad = { s with overseer := { s.overseer with delay := s.overseer.delay.drop 1 ++ [oa] } } :=
  if_pos (by simp [hresync, hended])

/-! ## Faults and SAFE (R450–R454) -/

/-- What a fault records leaves the pick generation as it was. -/
theorem State.ovsRecord_heddle (s : State) (kind b : Nat) : (s.ovsRecord kind b).heddle = s.heddle := by
  unfold State.ovsRecord
  dsimp only
  rw [State.logOvs_heddle]
  split_ifs <;> simp only [State.count_heddle, State.setReg_heddle, State.modReg_heddle]

/-- A fault in SAFE is only recorded. -/
theorem State.ovsFault_of_safe (kind b : Nat) (h : s.safe = true) : s.ovsFault kind b = s.ovsRecord kind b := if_pos h

/-- A fault outside SAFE marks the pick, begins a resync and counts the faulty picks, of which three make SAFE. A vote that was not yet
sent is not in question here. -/
theorem State.ovsFault_outside_safe (kind b : Nat) (h : s.safe = false) (hvote : s.heddle.phase ≠ .window ∨ s.heddle.vote ≠ .none) :
    s.ovsFault kind b =
      (let o := s.overseer
       let picks := true :: o.faultPicks.drop 1
       let n := picks.countP fun x => x
       let s3 := (({ s.ovsRecord kind b with overseer := ⟨o.delay, true, false, true, picks, o.testAt, []⟩ }.modReg (hdl 0x1000)
         fun v => putFld v 12 8 n).modReg (hdl 0x1000) fun v => putFld v 1 0 1)
       if 3 ≤ n then s3.enterSafe true else s3) := by
  have hnovote (t : State) (ht : t.heddle = s.heddle) :
      (if t.heddle.phase == .window && t.heddle.vote == .none then t.voteLate else t) = t := by
    rw [ht]
    refine if_neg ?_
    obtain hv | hv := hvote <;> simp [hv]
  exact (if_neg (by simp [h])).trans (congrArg (fun t : State => if 3 ≤ _ then t.enterSafe true else t)
    (hnovote _ (s.ovsRecord_heddle kind b)))

/-- SAFE entered while a pick is in progress: RUN falls, and STATE reads SAFE. -/
theorem State.enterSafe_in_pick (again : Bool) (h : s.safe = false) (hphase : s.heddle.phase = .issuing ∨ s.heddle.phase = .window) :
    s.enterSafe again =
      (let s1 := s.ovsState 2
       (if again then s1.logOvs 0x8804 0 (s1.getReg (hdl 0x1008)) else s1).setReg (hdl 0x20) 0) := by
  rw [State.enterSafe, if_neg (by simp [h])]
  obtain hphase | hphase := hphase <;> rw [hphase]

/-- The status that SAFE writes, whether or not it is logged. -/
theorem State.enterSafe_status (again : Bool) :
    (if again then (s.ovsState 2).logOvs 0x8804 0 ((s.ovsState 2).getReg (hdl 0x1008)) else s.ovsState 2).getReg (hdl 0x1000) =
      putFld (s.getReg (hdl 0x1000)) 1 0 2 := by
  have hstate : (s.ovsState 2).getReg (hdl 0x1000) = putFld (s.getReg (hdl 0x1000)) 1 0 2 := State.setReg_getReg_self _ _ _
  cases again
  · exact hstate
  · exact (State.logOvs_getReg _ _ _ _ _).trans hstate

/-- RUN reads 0 and the Overseer is in SAFE after SAFE was entered in a pick. -/
theorem State.enterSafe_reads (again : Bool) (h : s.safe = false)
    (hphase : s.heddle.phase = .issuing ∨ s.heddle.phase = .window) :
    (s.enterSafe again).getReg (hdl 0x20) = 0 ∧ (s.enterSafe again).safe = true := by
  rw [State.enterSafe_in_pick again h hphase]
  refine ⟨State.setReg_getReg_self _ _ _, ?_⟩
  rw [State.safe, State.setReg_getReg_ne _ _ (by decide), State.enterSafe_status, fld_putFld_self _ _ (by decide)]
  rfl

/-- The end of a resync whose pick is not left voted READY and undecided. -/
theorem State.resyncEnd_of_resync (bad : Bool) (hresync : s.overseer.resync = true) (hended : s.overseer.resyncEnded = false)
    (hvote : (s.curPick.isSome && s.heddle.vote == .ready && !s.heddle.decided) = false) :
    s.resyncEnd bad =
      (let s1 : State := { s with overseer := { s.overseer with resyncEnded := true } }
       if bad then s1.enterSafe true else s1) := by
  rw [State.resyncEnd, if_neg (by simp [hresync, hended])]
  simp only [hvote, Bool.false_eq_true, if_false]

/-! ## The self-test (R453) -/

/-- The bits of a bundle that has one alone. -/
theorem getLsbD_one_bit {k i : Nat} (hk : k < 256) : (BitVec.ofNat 256 (2 ^ k)).getLsbD i = decide (i = k) := by
  rw [BitVec.getLsbD_ofNat, Nat.testBit_two_pow]
  by_cases h : k = i
  · subst h; simp [hk]
  · simp [h, Ne.symm h]

/-- A self-test at its instant: the inverted bit is not reported, alone reported, or reported with others. -/
theorem State.selftest_at_instant (reported : BitVec 256) (hruns : s.weftRuns = true) (hat : s.weft % 1000000 = 0) :
    s.selftest reported =
      (let k := (s.getReg (hdl 0x1018)).toNat % 256
       let s1 := s.countWrap (hdl 0x1018) 1
       if !reported.getLsbD k then (s1.ovsRecord 3 k).enterSafe false
       else
         let more := reported &&& ~~~(BitVec.ofNat 256 (2 ^ k))
         if more = 0 then { s1 with overseer := { s1.overseer with testAt := some (s.getReg (hdl 0x00)) } }
         else s1.ovsFault 1 (lowBit more)) := if_neg (by simp [hruns, hat])

/-- The self-test that reports the inverted bit alone is counted, and its cycle noted. -/
theorem State.selftest_of_pass (hruns : s.weftRuns = true) (hat : s.weft % 1000000 = 0) :
    s.selftest (BitVec.ofNat 256 (2 ^ ((s.getReg (hdl 0x1018)).toNat % 256))) =
      (let s1 := s.countWrap (hdl 0x1018) 1
       { s1 with overseer := { s1.overseer with testAt := some (s.getReg (hdl 0x00)) } }) := by
  have hk : (s.getReg (hdl 0x1018)).toNat % 256 < 256 := Nat.mod_lt _ (by decide)
  rw [State.selftest_at_instant _ hruns hat]
  dsimp only
  rw [if_neg (by rw [getLsbD_one_bit hk, decide_eq_true rfl]; decide), if_pos (BitVec.and_not_self _)]

end

/-- Settles O52: the comparator's cycle, faults and SAFE, the end of a resync, the self-test, and OVS_HALT. -/
theorem overseerComparesHaltsAndResyncs : Obligations.OverseerComparesHaltsAndResyncs := by
  intro s oa ob
  dsimp only
  refine ⟨fun hlive heq htest => ?_, fun hlive heq htest => ?_, fun hlive hne => ?_, fun r hlive => ?_,
    fun bad hresync hended => congrArg _ (State.compare_of_resync oa ob bad hresync hended),
    fun kind b => State.ovsFault_of_safe kind b, fun kind b => State.ovsFault_outside_safe kind b,
    fun again => State.enterSafe_reads again, fun hresync hended hvote => ?_, fun reported hruns hat => ⟨fun hmissed => ?_, ?_⟩,
    fun val => ⟨fun ha hbit hworks hrun => ?_, fun hrun => ?_⟩⟩
  · exact congrArg _ ((State.compare_of_live oa ob none hlive).trans ((if_pos heq).trans (heq ▸ if_neg htest)))
  · exact congrArg _ ((State.compare_of_live oa ob none hlive).trans ((if_pos heq).trans (heq ▸ if_pos htest)))
  · exact congrArg _ ((State.compare_of_live oa ob none hlive).trans (if_neg hne))
  · exact congrArg _ (State.compare_of_live oa ob (some r) hlive)
  · exact ⟨congrArg _ (State.resyncEnd_of_resync false hresync hended hvote),
      congrArg _ (State.resyncEnd_of_resync true hresync hended hvote)⟩
  · exact congrArg _ ((State.selftest_at_instant reported hruns hat).trans (if_pos (by rw [hmissed]; rfl)))
  · rintro rfl
    exact congrArg _ (State.selftest_of_pass hruns hat)
  · exact congrArg _ (if_pos (by simp [ha, hbit, hworks, hrun]))
  · exact congrArg _ (if_neg (by simp [hrun]))

end Sys2Proof.Machine
end

section
/-! PROOFS. The event logs and HDL_ERR_STATUS (14 §14.3, R455–R458): the queue of a die, its ring, and the class bits. -/

namespace Sys2Proof.Machine

/-- The oldest event of a queue, 16 ns after the last entry and not in the ns of its detection, enters the ring. -/
theorem State.logWrite_of_due {s : State} {d : LogDie} {e : Event} {t : List Event} (hqueue : (s.log d).queue = e :: t)
    (hpace : ∀ w, (s.log d).lastWrite = some w → 16 ≤ s.since w) (hns : e.weft.toNat ≠ s.weft) :
    s.logWrite d =
      (let seq := (s.getReg (logReg d 0)).toNat
       let full := 1024 ≤ sub32 seq (s.getReg (logReg d 4)).toNat
       let s1 := s.setBytes ((logBlock d).base + 0x80000 + seq % 1024 * 32) (e.bytes seq)
       let s2 := (s1.count (logReg d 8) (if full then 1 else 0)).countWrap (logReg d 0) 1
       { s2.setLog d ⟨(s.log d).now, t, some (s.getReg (hdl 0x00))⟩ with statusDue := s2.statusDue ++ [e.code] }) := by
  have hsoon : ((match (s.log d).lastWrite with | some w => decide (s.since w < 16) | none => false) ||
      e.weft.toNat == s.weft) = false := by
    rw [Bool.or_eq_false_iff, beq_eq_false_iff_ne]
    refine ⟨?_, hns⟩
    split
    · next w hw => exact decide_eq_false (hpace w hw).not_gt
    · rfl
  simp only [State.logWrite, hqueue]
  exact if_neg (Bool.eq_false_iff.1 hsoon)

/-- The oldest code sets its class bit, and ALARM with bit 11; an alarm, or the first enabled bit, raises the interrupt. -/
theorem State.errorSet_of_due {s : State} {code : BitVec 16} {t : List (BitVec 16)} (hdue : s.statusDue = code :: t) :
    s.errorSet =
      (let s1 := ({ s with statusDue := t } : State).setReg (hdl 0x1020)
        (if bit code 11 then putBit (putBit (s.getReg (hdl 0x1020)) (fld code 15 12) true) 15 true
         else putBit (s.getReg (hdl 0x1020)) (fld code 15 12) true)
       if bit code 11 || (s.errPending == 0 && s1.errPending != 0) then s1.errorInterrupt else s1) := by
  rw [State.errorSet, hdue]
  rfl

/-- Settles O53: the events of a ns enter the queue, the oldest enters the ring, and its code HDL_ERR_STATUS. -/
theorem eventsReachTheLogsAndTheHost : Obligations.EventsReachTheLogsAndTheHost := by
  refine fun s d => ⟨rfl, fun e t hqueue hpace hns => congrArg _ (State.logWrite_of_due hqueue hpace hns), fun e n => ?_,
    fun code t hdue => ⟨fun h => ?_, fun hclass h => ?_⟩⟩
  · simp only [Event.bytes, List.length_append, leBytes_length]
  · refine congrArg _ ((State.errorSet_of_due hdue).trans (if_pos ?_))
    obtain halarm | ⟨hnone, hsome⟩ := h
    · rw [halarm, Bool.true_or]
    · rw [beq_iff_eq.2 hnone, bne_iff_ne.2 hsome, Bool.and_self, Bool.or_true]
  · refine congrArg _ ((State.errorSet_of_due hdue).trans (if_neg ?_))
    rw [Bool.or_eq_true, Bool.and_eq_true, beq_iff_eq, bne_iff_ne]
    rintro (halarm | ⟨hnone, hsome⟩)
    · exact Bool.false_ne_true (hclass.symm.trans halarm)
    · exact h.elim (absurd hnone) hsome

end Sys2Proof.Machine
end

section
/-! PROOFS. The flash of the Temple die (13 R441): the start of an operation, what a completed one does to the flash and to the buffer,
and REBOOT (13 R443, 15 R480). -/

namespace Sys2Proof.Machine

/-! ## The start of an operation -/

/-- What R441 and R513 refuse, of a read, a page program and an erase. -/
theorem State.flashRefused_iff (s : State) (op addr len : Nat) (hop : op = 1 ∨ op = 2 ∨ op = 3) :
    s.flashRefused op addr len = true ↔ s.shuttingDown = true ∨
      (if op = 1 then len = 0 ∨ 4096 < len
       else if op = 2 then (len = 0 ∨ 4096 < len) ∨ addr / 256 ≠ (addr + len - 1) / 256 ∨ s.touchesSelected addr len = true
       else addr % 0x10000 ≠ 0 ∨ s.touchesSelected addr 0x10000 = true) := by
  obtain rfl | rfl | rfl := hop <;> simp [State.flashRefused, or_assoc]

/-- A GO with no operation in progress. -/
theorem State.flashGo_of_rest {s : State} (op : Nat) (ha : s.answers .tpl = true) (hrest : bit (s.getReg (tpl 0x40C)) 0 = false) :
    s.flashGo op =
      (let addr := fld (s.getReg (tpl 0x404)) 23 0
       let len := fld (s.getReg (tpl 0x408)) 12 0
       if s.flashRefused op addr len then s.setReg (tpl 0x40C) (putBit (s.getReg (tpl 0x40C)) 1 true)
       else { s.setReg (tpl 0x40C) (putBit (s.getReg (tpl 0x40C)) 0 true) with
         temple := { s.temple with busy := some ⟨op, addr, len⟩ } }) := if_neg (by simp [ha, hrest])

/-- A GO while one is in progress. -/
theorem State.flashGo_of_busy {s : State} (op : Nat) (hbusy : bit (s.getReg (tpl 0x40C)) 0 = true) : s.flashGo op = s :=
  if_pos (by simp [hbusy])

/-! ## Changes of flash bytes and of the buffer -/

/-- A flash byte after a write of one. -/
theorem State.setFlash_flashByte (s : State) (a b : Nat) (v : Byte) :
    (s.setFlash a v).flashByte b = if b = a then v else s.flashByte b := sget_sset _ _ _ _ _

/-- Flash bytes after n of them from an address on were written, each with what a function of the state then names. -/
theorem flashByte_foldl_setFlash (f : State → Nat → Byte) (v : Nat → Byte) (a n : Nat) (s : State)
    (hf : ∀ (t : State) (i : Nat), (∃ l, t = { s with temple := { s.temple with flash := l } }) → f t i = v i) :
    let t := (List.range n).foldl (fun t i => t.setFlash (a + i) (f t i)) s
    (∃ l, t = { s with temple := { s.temple with flash := l } }) ∧
      ∀ b, t.flashByte b = if a ≤ b ∧ b < a + n then v (b - a) else s.flashByte b := by
  induction n with
  | zero => exact ⟨⟨_, rfl⟩, fun b => by rw [if_neg (by omega)]; rfl⟩
  | succ n ih =>
    obtain ⟨hstate, hbyte⟩ := ih
    simp only [List.range_succ, List.foldl_append, List.foldl_cons, List.foldl_nil]
    generalize (List.range n).foldl (fun t i => t.setFlash (a + i) (f t i)) s = t at hstate hbyte
    have hval := hf t n hstate
    refine ⟨?_, fun b => ?_⟩
    · obtain ⟨l, rfl⟩ := hstate
      exact ⟨_, rfl⟩
    · rw [State.setFlash_flashByte, hval, hbyte]
      by_cases hb : b = a + n
      · rw [if_pos hb, if_pos (by omega), hb, Nat.add_sub_cancel_left]
      · simp only [if_neg hb, show (a ≤ b ∧ b < a + (n + 1)) ↔ (a ≤ b ∧ b < a + n) by omega]

/-- A stored byte after a write of one, defined from then on. -/
theorem State.setByte_rawByte (s : State) (a b : Nat) (v : Byte) :
    (s.setByte a v).rawByte b = if b = a then v else s.rawByte b := by
  have hput := s.putByte_rawByte a b v
  unfold State.setByte
  dsimp only
  split <;> exact hput

/-- A write of a byte changes the memory and what is known to be undefined. -/
theorem State.setByte_eq (s : State) (a : Nat) (v : Byte) : ∃ m u, s.setByte a v = { s with mem := m, undefs := u } := by
  unfold State.setByte
  dsimp only
  split <;> exact ⟨_, _, rfl⟩

/-- Stored bytes after n of them from an address on were written, each with what a function of the state then names. -/
theorem rawByte_foldl_setByte (f : State → Nat → Byte) (v : Nat → Byte) (a n : Nat) (s : State)
    (hf : ∀ (t : State) (i : Nat), (∃ m u, t = { s with mem := m, undefs := u }) → f t i = v i) :
    let t := (List.range n).foldl (fun t i => t.setByte (a + i) (f t i)) s
    (∃ m u, t = { s with mem := m, undefs := u }) ∧ ∀ i < n, t.rawByte (a + i) = v i := by
  induction n with
  | zero => exact ⟨⟨_, _, rfl⟩, fun i hi => absurd hi i.not_lt_zero⟩
  | succ n ih =>
    obtain ⟨hstate, hbyte⟩ := ih
    simp only [List.range_succ, List.foldl_append, List.foldl_cons, List.foldl_nil]
    generalize (List.range n).foldl (fun t i => t.setByte (a + i) (f t i)) s = t at hstate hbyte
    have hval := hf t n hstate
    refine ⟨?_, fun i hi => ?_⟩
    · obtain ⟨m, u, rfl⟩ := hstate
      obtain ⟨m', u', h⟩ := State.setByte_eq { s with mem := m, undefs := u } (a + n) (f { s with mem := m, undefs := u } n)
      exact ⟨m', u', h⟩
    · rw [State.setByte_rawByte, hval]
      by_cases hin : i = n
      · rw [if_pos (by omega), hin]
      · rw [if_neg (by omega), hbyte i (by omega)]

/-! ## What a completed operation does -/

/-- A read fills the buffer with the flash bytes that the Temple die has, and changes neither the flash nor a register. -/
theorem State.flashEffect_read (s : State) {x : FlashOp} (fail : Bool) (hop : x.op = 1) :
    (∃ m u n, s.flashEffect x fail = { s with mem := m, undefs := u, free := n }) ∧
      ∀ i < x.len, x.addr + i < 0x1000000 → (s.flashEffect x fail).rawByte (flashBuf + i) = s.flashByte (x.addr + i) := by
  have hread := rawByte_foldl_setByte
    (fun t i => if x.addr + i < 0x1000000 then t.flashByte (x.addr + i) else BitVec.ofNat 8 (Config.freeValue (t.free + i)).toNat)
    (fun i => if x.addr + i < 0x1000000 then s.flashByte (x.addr + i) else BitVec.ofNat 8 (Config.freeValue (s.free + i)).toNat)
    flashBuf x.len s (by rintro t i ⟨m, u, rfl⟩; rfl)
  obtain ⟨⟨m, u, hstate⟩, hbyte⟩ := hread
  simp only [State.flashEffect, hop]
  refine ⟨?_, fun i hi hlow => ?_⟩
  · rw [hstate]; exact ⟨_, _, _, rfl⟩
  · exact (hbyte i hi).trans (if_pos hlow)

/-- Bytes that take free values: the flash alone changes, and in their range alone. -/
theorem State.freeFlash_frame (s : State) (a n : Nat) :
    (∃ l k, s.freeFlash a n = { s with temple := { s.temple with flash := l }, free := k }) ∧
      ∀ b, b < a ∨ a + n ≤ b → (s.freeFlash a n).flashByte b = s.flashByte b := by
  obtain ⟨⟨l, hstate⟩, hbyte⟩ := flashByte_foldl_setFlash (fun t i => BitVec.ofNat 8 (Config.freeValue (t.free + i)).toNat)
    (fun i => BitVec.ofNat 8 (Config.freeValue (s.free + i)).toNat) a n s (by rintro t i ⟨l, rfl⟩; rfl)
  refine ⟨⟨l, s.free + n, ?_⟩, fun b hb => ?_⟩
  · rw [State.freeFlash, hstate]
  · exact (hbyte b).trans (if_neg (by omega))

/-- A page program: the flash alone changes, in the page's range alone, which takes the bytes of the buffer if it did not fail. -/
theorem State.flashEffect_program (s : State) {x : FlashOp} (fail : Bool) (hop : x.op = 2) :
    (∃ l k, s.flashEffect x fail = { s with temple := { s.temple with flash := l }, free := k }) ∧
      (fail = false → ∀ i < x.len, (s.flashEffect x fail).flashByte (x.addr + i) = s.byte (flashBuf + i)) ∧
      ∀ b, b < x.addr ∨ x.addr + x.len ≤ b → (s.flashEffect x fail).flashByte b = s.flashByte b := by
  simp only [State.flashEffect, hop]
  cases fail
  · obtain ⟨⟨l, hstate⟩, hbyte⟩ := flashByte_foldl_setFlash (fun t i => t.byte (flashBuf + i)) (fun i => s.byte (flashBuf + i))
      x.addr x.len s (by rintro t i ⟨l, rfl⟩; rfl)
    refine ⟨⟨l, s.free, hstate⟩, fun _ i hi => ?_, fun b hb => (hbyte b).trans (if_neg (by omega))⟩
    exact (hbyte _).trans ((if_pos (by omega)).trans (by rw [Nat.add_sub_cancel_left]))
  · obtain ⟨hstate, hbyte⟩ := s.freeFlash_frame x.addr x.len
    exact ⟨hstate, fun h => absurd h (by decide), hbyte⟩

/-- An erase: the flash alone changes, in the block alone, which reads 0xFF if it did not fail. -/
theorem State.flashEffect_erase (s : State) {x : FlashOp} (fail : Bool) (hop : x.op ≠ 1 ∧ x.op ≠ 2) :
    (∃ l k, s.flashEffect x fail = { s with temple := { s.temple with flash := l }, free := k }) ∧
      (fail = false → ∀ i < 0x10000, (s.flashEffect x fail).flashByte (x.addr + i) = 0xFF) ∧
      ∀ b, b < x.addr ∨ x.addr + 0x10000 ≤ b → (s.flashEffect x fail).flashByte b = s.flashByte b := by
  have heffect : s.flashEffect x fail = if fail then s.freeFlash x.addr 0x10000 else
      { s with temple := { s.temple with flash := sdrop (fun a => x.addr ≤ a && a < x.addr + 0x10000) s.temple.flash } } := by
    unfold State.flashEffect
    split
    · next h => exact absurd h hop.1
    · next h => exact absurd h hop.2
    · rfl
  rw [heffect]
  cases fail
  · have hbyte (b : Nat) := sget_sdrop (fun _ => (0xFF : Byte)) (fun a => x.addr ≤ a && a < x.addr + 0x10000) s.temple.flash b
    refine ⟨⟨_, _, rfl⟩, fun _ i hi => (hbyte _).trans (if_pos ?_), fun b hb => (hbyte b).trans (if_neg ?_)⟩
    · rw [Bool.and_eq_true, decide_eq_true_eq, decide_eq_true_eq]; omega
    · rw [Bool.and_eq_true, decide_eq_true_eq, decide_eq_true_eq]; omega
  · obtain ⟨hstate, hbyte⟩ := s.freeFlash_frame x.addr 0x10000
    exact ⟨hstate, fun h => absurd h (by decide), hbyte⟩

/-- No operation changes a register or a log. -/
theorem State.flashEffect_frame (s : State) (x : FlashOp) (fail : Bool) :
    (s.flashEffect x fail).regs = s.regs ∧ (s.flashEffect x fail).logs = s.logs := by
  by_cases h1 : x.op = 1
  · obtain ⟨⟨m, u, n, h⟩, _⟩ := s.flashEffect_read fail h1
    rw [h]; exact ⟨rfl, rfl⟩
  · have hflash : ∃ l k, s.flashEffect x fail = { s with temple := { s.temple with flash := l }, free := k } := by
      by_cases h2 : x.op = 2
      · exact (s.flashEffect_program fail h2).1
      · exact (s.flashEffect_erase fail ⟨h1, h2⟩).1
    obtain ⟨l, k, h⟩ := hflash
    rw [h]; exact ⟨rfl, rfl⟩

/-- An operation that is done: its effect, the record of a failure, BUSY cleared. -/
theorem State.flashDone_of_busy {s : State} {x : FlashOp} (fail : Bool) (hbusy : s.temple.busy = some x) :
    s.flashDone fail =
      (let s1 := s.flashEffect x fail
       let s2 := (if fail && x.op != 1 then s1.flashErr else s1).modReg (tpl 0x40C) fun v => putBit v 0 false
       { s2 with temple := { s2.temple with busy := none } }) := by
  rw [State.flashDone, hbusy]

/-- The flash and the memory after an operation that is done are those of its effect, and BUSY reads 0. -/
theorem State.flashDone_reads {s : State} {x : FlashOp} (fail : Bool) (hbusy : s.temple.busy = some x) :
    (s.flashDone fail).temple.busy = none ∧ bit ((s.flashDone fail).getReg (tpl 0x40C)) 0 = false ∧
      (∀ a, (s.flashDone fail).flashByte a = (s.flashEffect x fail).flashByte a) ∧
      ∀ a, (s.flashDone fail).rawByte a = (s.flashEffect x fail).rawByte a := by
  rw [State.flashDone_of_busy fail hbusy]
  refine ⟨rfl, ?_, fun a => ?_, fun a => ?_⟩
  · have hreg (t : State) : (t.modReg (tpl 0x40C) fun v => putBit v 0 false).getReg (tpl 0x40C) =
        putBit (t.getReg (tpl 0x40C)) 0 false := State.setReg_getReg_self _ _ _
    exact (congrArg (bit · 0) (hreg _)).trans (bit_putBit_self _ _ (by decide))
  · show State.flashByte (if _ then _ else _ : State) a = _
    split <;> rfl
  · show State.rawByte (if _ then _ else _ : State) a = _
    split <;> rfl

/-- A failure sets ERR, and stands in the Temple die's log with the address of the operation. -/
theorem State.flashDone_of_failed {s : State} {x : FlashOp} (hbusy : s.temple.busy = some x) (hop : x.op ≠ 1) :
    bit ((s.flashDone true).getReg (tpl 0x40C)) 2 = true ∧ ((s.flashDone true).log 39).now = (s.log 39).now ++
      [⟨s.getReg (hdl 0x00), 0xA004, 0x10A, s.pickNum, s.pickEpoch, 0, s.getReg (tpl 0x404)⟩] := by
  obtain ⟨hregs, hlogs⟩ := s.flashEffect_frame x true
  have hfailed : (true && x.op != 1) = true := by simp [hop]
  rw [State.flashDone_of_busy true hbusy]
  dsimp only
  rw [if_pos hfailed]
  generalize s.flashEffect x true = t at hregs hlogs
  have hreg (a : Nat) : t.getReg a = s.getReg a := by rw [State.getReg, hregs, State.getReg]
  have hlog : t.log 39 = s.log 39 := by rw [State.log, hlogs, State.log]
  constructor
  · have herr : (t.flashErr.modReg (tpl 0x40C) fun v => putBit v 0 false).getReg (tpl 0x40C) =
        putBit (putBit (t.getReg (tpl 0x40C)) 2 true) 0 false := by
      rw [State.modReg_getReg, if_pos rfl, State.flashErr, State.logTpl_getReg, State.modReg_getReg, if_pos rfl]
    exact (congrArg (bit · 2) herr).trans ((bit_putBit_ne _ _ (by decide) (by decide)).trans (bit_putBit_self _ _ (by decide)))
  · have hnow : (t.flashErr.log 39).now = (t.log 39).now ++
        [⟨t.getReg (hdl 0x00), 0xA004, 0x10A, t.pickNum, t.pickEpoch, 0, t.getReg (tpl 0x404)⟩] := by
      rw [State.flashErr, State.logTpl, State.logEvent_log, if_pos rfl]
      simp only [State.pickNum, State.pickEpoch, State.modReg_getReg]
      rfl
    refine hnow.trans ?_
    rw [hlog, hreg, hreg, State.pickNum, State.pickEpoch, hreg, hreg]
    rfl

/-! ## REBOOT (R443, R480) -/

/-- HDL_PWR_STATE has the cause and the phase of the sequence that begins, and every other register what it had. -/
theorem State.beginSeq_getReg (s : State) (a : PwrAsk) (q : PwrSeq) (phase b : Nat) :
    (s.beginSeq a q phase).getReg b =
      if b = hdl 0x1104 then putFld (putFld (s.getReg (hdl 0x1104)) 15 12 a.cause) 9 8 phase else s.getReg b := by
  simp only [State.beginSeq, State.pwrField, State.modPower_getReg, State.modReg_getReg, if_true]
  by_cases hb : b = hdl 0x1104 <;> simp [hb]

/-- A shutdown that finds RUN at 0 and no program only begins Phase A. -/
theorem State.startShutdown_of_quiet {s : State} (a : PwrAsk) (hrun : bit (s.getReg (hdl 0x20)) 0 = false) (hprog : s.progState = 0) :
    s.startShutdown a = (s.beginSeq a (.phaseA a.target) 1).modPower fun p => { p with next := none } := by
  have hreg (b : Nat) (hb : b ≠ hdl 0x1104) : (s.beginSeq a (.phaseA a.target) 1).getReg b = s.getReg b :=
    (s.beginSeq_getReg _ _ _ _).trans (if_neg hb)
  have hdrop : (s.beginSeq a (.phaseA a.target) 1).dropRun = s.beginSeq a (.phaseA a.target) 1 :=
    if_pos (by rw [hreg _ (by decide), hrun]; rfl)
  have hstop : (s.beginSeq a (.phaseA a.target) 1).progStopNow = s.beginSeq a (.phaseA a.target) 1 := by
    have hidle : (s.beginSeq a (.phaseA a.target) 1).progState = 0 := by
      rw [State.progState, hreg _ (by decide)]
      exact hprog
    simp only [State.progStopNow, hidle]
  rw [State.startShutdown, hdrop, hstop]

/-- Settles O54: the start of each operation, what a completed one leaves, and REBOOT. What a failed operation leaves, and which host
a reboot names, are free values (log entries 3, 37). -/
theorem flashOperationsAndReboot : Obligations.FlashOperationsAndReboot := by
  intro s
  dsimp only
  refine ⟨fun e he => ?go, fun x fail hbusy => ⟨_, rfl, ?done⟩,
    fun ha hpicks hshut => congrArg _ (if_neg (by simp [ha, hpicks, hshut])),
    fun a hrun hprog => ?shutdown, fun hpicks => congrArg _ (if_pos (by simp [hpicks]))⟩
  case go =>
    have hexec : exec e.2 s = .next (s.flashGo e.1) ∧ (e.1 = 1 ∨ e.1 = 2 ∨ e.1 = 3) := by
      simp only [List.mem_cons, List.not_mem_nil, or_false] at he
      obtain rfl | rfl | rfl := he <;> exact ⟨rfl, by decide⟩
    obtain ⟨hexec, hop⟩ := hexec
    rw [hexec, ← s.flashRefused_iff _ _ _ hop]
    exact ⟨fun ha hrest => ⟨fun hrefused => congrArg _ ((State.flashGo_of_rest e.1 ha hrest).trans (if_pos hrefused)),
      fun hallowed => congrArg _ ((State.flashGo_of_rest e.1 ha hrest).trans (if_neg hallowed))⟩,
      fun hbusy => congrArg _ (State.flashGo_of_busy e.1 hbusy)⟩
  case done =>
    obtain ⟨hrest, hflag, hflash, hmem⟩ := State.flashDone_reads fail hbusy
    refine ⟨hrest, hflag, fun hfail hop => ?_, fun hop i hi hlow => ?_, fun hop a => ?_, fun hop hok i hi => ?_, fun hop hok i hi => ?_,
      fun hop a ha => ?_, fun hop a ha => ?_⟩
    · subst hfail
      exact State.flashDone_of_failed hbusy hop
    · exact (hmem _).trans ((s.flashEffect_read fail hop).2 i hi hlow)
    · obtain ⟨⟨m, u, n, hstate⟩, _⟩ := s.flashEffect_read fail hop
      exact (hflash a).trans (by rw [hstate]; rfl)
    · exact (hflash _).trans ((s.flashEffect_program fail hop).2.1 hok i hi)
    · exact (hflash _).trans ((s.flashEffect_erase fail (by omega)).2.1 hok i hi)
    · exact (hflash a).trans ((s.flashEffect_program fail hop).2.2 a ha)
    · exact (hflash a).trans ((s.flashEffect_erase fail (by omega)).2.2 a ha)
  case shutdown =>
    rw [State.startShutdown_of_quiet a hrun hprog]
    exact ⟨rfl, (s.beginSeq_getReg a (.phaseA a.target) 1 _).trans (if_pos rfl)⟩

end Sys2Proof.Machine
end

section
/-! PROOFS. The Tally channels of the Treadle dies (14 §14.6, R465, R467): compare, arm, restart, configuration, and the bytes of bolts. -/

namespace Sys2Proof.Machine

/-! ## The compare (R467) -/

section
variable {s : State}

/-- Equal values change nothing. -/
theorem State.tallyCompare_of_eq {base : Nat} (ev : State → Nat → Dword → State)
    (h : s.getReg (base + 0x18) = s.getReg (base + 0x10)) : s.tallyCompare base ev = s := if_pos h

/-- A mismatch sets its bit, raises MISS and is logged. -/
theorem State.tallyCompare_of_ne {base : Nat} (ev : State → Nat → Dword → State)
    (h : s.getReg (base + 0x18) ≠ s.getReg (base + 0x10)) :
    s.tallyCompare base ev =
      ev ((s.modReg (base + 0x28) fun x => putBit x 1 true).count (base + 0x2C) 1)
        (if bit (s.getReg base) 8 then 0x9801 else 0x9001) (s.getReg (base + 0x18)) := if_neg h

variable {td : Td} {n : TallyNo}

/-- A channel that is not armed, or has not its count, compares nothing. -/
theorem State.tallyCheck_of_early
    (h : bit (s.getReg (trdTally td n + 0x28)) 4 = false ∨ s.getReg (trdTally td n + 0x24) ≠ s.getReg (trdTally td n + 0x20)) :
    s.tallyCheck td n = s := by
  refine if_neg ?_
  obtain h | h := h <;> simp [h]

/-- An armed channel with its count is no longer armed, and compares. -/
theorem State.tallyCheck_of_due (harmed : bit (s.getReg (trdTally td n + 0x28)) 4 = true)
    (hcount : s.getReg (trdTally td n + 0x24) = s.getReg (trdTally td n + 0x20)) :
    s.tallyCheck td n = (s.modReg (trdTally td n + 0x28) fun x => putBit x 4 false).tallyCompare (trdTally td n)
      fun s c v => s.logTd td c n.val v := if_pos (by simp [harmed, hcount])

/-- STATUS after a compare that is due whose values are equal, and every other register. -/
theorem State.tallyCheck_of_match (harmed : bit (s.getReg (trdTally td n + 0x28)) 4 = true)
    (hcount : s.getReg (trdTally td n + 0x24) = s.getReg (trdTally td n + 0x20))
    (hvalue : s.getReg (trdTally td n + 0x18) = s.getReg (trdTally td n + 0x10)) :
    s.tallyCheck td n = s.modReg (trdTally td n + 0x28) fun x => putBit x 4 false := by
  rw [State.tallyCheck_of_due harmed hcount, State.tallyCompare_of_eq]
  rw [State.modReg_getReg, if_neg (by omega), State.modReg_getReg, if_neg (by omega), hvalue]

/-- One whose values differ: STATUS, MISS, the log of the die, and every other register. -/
theorem State.tallyCheck_of_mismatch (harmed : bit (s.getReg (trdTally td n + 0x28)) 4 = true)
    (hcount : s.getReg (trdTally td n + 0x24) = s.getReg (trdTally td n + 0x20))
    (hvalue : s.getReg (trdTally td n + 0x18) ≠ s.getReg (trdTally td n + 0x10)) :
    (s.tallyCheck td n).getReg (trdTally td n + 0x28) = putBit (putBit (s.getReg (trdTally td n + 0x28)) 4 false) 1 true ∧
      (s.tallyCheck td n).getReg (trdTally td n + 0x2C) = (s.count (trdTally td n + 0x2C) 1).getReg (trdTally td n + 0x2C) ∧
      ((s.tallyCheck td n).log (Fin.ofNat 40 (36 + td.val))).now.length = (s.log (Fin.ofNat 40 (36 + td.val))).now.length + 1 ∧
      ∀ a, a ≠ trdTally td n + 0x28 → a ≠ trdTally td n + 0x2C → (s.tallyCheck td n).getReg a = s.getReg a := by
  rw [State.tallyCheck_of_due harmed hcount, State.tallyCompare_of_ne]
  · simp only [State.logTd_getReg, State.count_getReg, State.modReg_getReg]
    refine ⟨?_, ?_, ?_, fun a h28 h2C => ?_⟩
    · simp
    · simp
    · simp [State.logTd, State.logEvent_log]
    · simp [h28, h2C]
  · rw [State.modReg_getReg, if_neg (by omega), State.modReg_getReg, if_neg (by omega)]
    exact hvalue

end

/-- What a check of a channel may change: its STATUS, its MISS and the log. -/
theorem State.tallyCheck_frame (s : State) (td : Td) (n : TallyNo) :
    (∀ e, (s.tallyCheck td n).td e = s.td e) ∧
      ∀ a, a ≠ trdTally td n + 0x28 → a ≠ trdTally td n + 0x2C → (s.tallyCheck td n).getReg a = s.getReg a := by
  unfold State.tallyCheck State.tallyCompare
  dsimp only
  split_ifs
  all_goals refine ⟨fun e => ?_, fun a h28 h2C => ?_⟩
  all_goals simp_all [State.count_getReg, State.modReg_getReg]

/-- A channel whose COUNT is UPTO is not armed after its check. -/
theorem State.tallyCheck_disarms {s : State} {td : Td} {n : TallyNo}
    (hcount : s.getReg (trdTally td n + 0x24) = s.getReg (trdTally td n + 0x20)) :
    bit ((s.tallyCheck td n).getReg (trdTally td n + 0x28)) 4 = false := by
  cases harmed : bit (s.getReg (trdTally td n + 0x28)) 4
  · rw [State.tallyCheck_of_early (.inl harmed), harmed]
  · by_cases hvalue : s.getReg (trdTally td n + 0x18) = s.getReg (trdTally td n + 0x10)
    · rw [State.tallyCheck_of_match harmed hcount hvalue, State.modReg_getReg, if_pos rfl, bit_putBit_self _ _ (by decide)]
    · rw [(State.tallyCheck_of_mismatch harmed hcount hvalue).1, bit_putBit_ne _ _ (by decide) (by decide),
        bit_putBit_self _ _ (by decide)]

/-! ## Arm, restart and configuration (R465) -/

section
variable {s : State} {td : Td} {n : TallyNo}

/-- A channel is armed, and compares at once where its COUNT is UPTO. -/
theorem State.tallyArm_of_answers (ha : s.answers (.trd td) = true) :
    s.tallyArm td n = (s.setReg (trdTally td n + 0x28) (putBit (s.getReg (trdTally td n + 0x28)) 4 true)).tallyCheck td n := if_pos ha

/-- The stream of a channel after it was set. -/
theorem State.setTallyStream_tallyStream (s : State) (td : Td) (n m : TallyNo) (x : TallyStream) :
    (s.setTallyStream td n x).tallyStream td m = if m = n then x else s.tallyStream td m := by
  rw [State.setTallyStream, State.tallyStream, State.setTd_td_self, sget_sset]
  simp only [Fin.val_inj]
  rfl

/-- The streams after a check are what they were. -/
theorem State.tallyCheck_tallyStream (s : State) (td : Td) (n m : TallyNo) :
    (s.tallyCheck td n).tallyStream td m = s.tallyStream td m := by
  rw [State.tallyStream, (s.tallyCheck_frame td n).1, State.tallyStream]

/-- The state of a restarted channel before its check. -/
def State.tallyCleared (s : State) (td : Td) (n : TallyNo) : State :=
  ((s.setTallyStream td n {}).setReg (trdTally td n + 0x18) (tallyCrc (fld (s.getReg (trdTally td n)) 1 0) [])).setReg
    (trdTally td n + 0x24) 0

/-- A restart clears the channel and checks it. -/
theorem State.tallyRestart_eq (s : State) (td : Td) (n : TallyNo) : s.tallyRestart td n = (s.tallyCleared td n).tallyCheck td n := rfl

/-- The registers of a cleared channel. -/
theorem State.tallyCleared_getReg (s : State) (td : Td) (n : TallyNo) (a : Nat) :
    (s.tallyCleared td n).getReg a = if a = trdTally td n + 0x24 then 0
      else if a = trdTally td n + 0x18 then tallyCrc (fld (s.getReg (trdTally td n)) 1 0) [] else s.getReg a := by
  rw [State.tallyCleared, State.setReg_getReg, State.setReg_getReg, State.setTallyStream, State.setTd_getReg]

/-- The stream, COUNT, VALUE and CFG of a restarted channel. -/
theorem State.tallyRestart_reads (s : State) (td : Td) (n : TallyNo) :
    ((s.tallyRestart td n).tallyStream td n).bytes = [] ∧ (s.tallyRestart td n).getReg (trdTally td n + 0x24) = 0 ∧
      (s.tallyRestart td n).getReg (trdTally td n + 0x18) = tallyCrc (fld (s.getReg (trdTally td n)) 1 0) [] ∧
      (s.tallyRestart td n).getReg (trdTally td n) = s.getReg (trdTally td n) := by
  have hframe := ((s.tallyCleared td n).tallyCheck_frame td n).2
  rw [State.tallyRestart_eq]
  refine ⟨?_, ?_, ?_, ?_⟩
  · rw [State.tallyCheck_tallyStream]
    exact congrArg TallyStream.bytes ((State.setTallyStream_tallyStream s td n n {}).trans (if_pos rfl))
  · rw [hframe _ (by omega) (by omega), State.tallyCleared_getReg, if_pos rfl]
  · rw [hframe _ (by omega) (by omega), State.tallyCleared_getReg, if_neg (by omega), if_pos rfl]
  · rw [hframe _ (by omega) (by omega), State.tallyCleared_getReg, if_neg (by omega), if_neg (by omega)]

/-- A restarted channel that is not armed, or has UPTO above 0, compares nothing. -/
theorem State.tallyRestart_of_early (h : bit (s.getReg (trdTally td n + 0x28)) 4 = false ∨ s.getReg (trdTally td n + 0x20) ≠ 0)
    (a : Nat) (h24 : a ≠ trdTally td n + 0x24) (h18 : a ≠ trdTally td n + 0x18) : (s.tallyRestart td n).getReg a = s.getReg a := by
  rw [State.tallyRestart_eq, State.tallyCheck_of_early, State.tallyCleared_getReg, if_neg h24, if_neg h18]
  simp only [State.tallyCleared_getReg]
  refine h.imp (fun h => ?_) (fun h => ?_)
  · rwa [if_neg (by omega), if_neg (by omega)]
  · rw [if_pos trivial, if_neg (by omega), if_neg (by omega)]
    exact h.symm

/-- One with UPTO = 0 is not armed afterwards. -/
theorem State.tallyRestart_disarms (h : s.getReg (trdTally td n + 0x20) = 0) :
    bit ((s.tallyRestart td n).getReg (trdTally td n + 0x28)) 4 = false := by
  rw [State.tallyRestart_eq, State.tallyCheck_disarms]
  rw [State.tallyCleared_getReg, if_pos rfl, State.tallyCleared_getReg, if_neg (by omega), if_neg (by omega), h]

end

/-! ## The bytes of bolts (R465) -/

/-- The bytes of a bolt join the stream of one channel, if it follows the spool. -/
def State.tallyJoin (td : Td) (sp : SpoolId) (mode : Nat) (l : List Byte) (s : State) (n : TallyNo) : State :=
  if fld (s.getReg (trdTally td n)) 5 4 = mode ∧ fld (s.getReg (trdTally td n)) 21 16 = sp.val then
    (((s.setTallyStream td n { bytes := (s.tallyStream td n).bytes ++ l }).setReg (trdTally td n + 0x18)
      (tallyCrc (fld (s.getReg (trdTally td n)) 1 0) ((s.tallyStream td n).bytes ++ l))).countWrap
        (trdTally td n + 0x24) 1).tallyCheck td n
  else s

/-- The bytes join channel by channel. -/
theorem State.tallyInclude_eq (s : State) (td : Td) (sp : SpoolId) (mode : Nat) (l : List Byte) :
    s.tallyInclude td sp mode l = ((List.range 16).map (Fin.ofNat 16)).foldl (State.tallyJoin td sp mode l) s := rfl

/-- The stream and the registers of a channel are the same in two states. -/
def SameChannel (td : Td) (n : TallyNo) (s t : State) : Prop :=
  t.tallyStream td n = s.tallyStream td n ∧ ∀ o < 0x40, t.getReg (trdTally td n + o) = s.getReg (trdTally td n + o)

/-- The bytes that join another channel leave this one. -/
theorem State.tallyJoin_of_ne (s : State) {td : Td} {n m : TallyNo} (sp : SpoolId) (mode : Nat) (l : List Byte) (hne : n ≠ m) :
    SameChannel td n s (s.tallyJoin td sp mode l m) := by
  unfold State.tallyJoin
  split
  · refine ⟨?_, fun o ho => ?_⟩
    · rw [State.tallyCheck_tallyStream]
      exact (State.setTallyStream_tallyStream s td m n _).trans (if_neg hne)
    · have hval : n.val ≠ m.val := fun h => hne (Fin.ext h)
      have hother (p : Nat) (hp : p < 0x40) : trdTally td n + o ≠ trdTally td m + p := by simp only [trdTally, trd]; omega
      rw [(State.tallyCheck_frame _ _ _).2 _ (hother _ (by decide)) (hother _ (by decide)), State.countWrap_getReg,
        if_neg (hother _ (by decide)), State.setReg_getReg, if_neg (hother _ (by decide)), State.setTallyStream, State.setTd_getReg]
  · exact ⟨rfl, fun _ _ => rfl⟩

/-- So do the bytes that join any other channels. -/
theorem State.foldl_tallyJoin_of_not_mem (s : State) {td : Td} {n : TallyNo} (sp : SpoolId) (mode : Nat) (l : List Byte)
    {ns : List TallyNo} (hn : n ∉ ns) : SameChannel td n s (ns.foldl (State.tallyJoin td sp mode l) s) := by
  induction ns generalizing s with
  | nil => exact ⟨rfl, fun _ _ => rfl⟩
  | cons m ns ih =>
    obtain ⟨hne, hrest⟩ := not_or.1 (mt List.mem_cons.2 hn)
    obtain ⟨hstream, hregs⟩ := s.tallyJoin_of_ne (td := td) sp mode l hne
    obtain ⟨hstream', hregs'⟩ := ih (s.tallyJoin td sp mode l m) hrest
    exact ⟨hstream'.trans hstream, fun o ho => (hregs' o ho).trans (hregs o ho)⟩

/-- The bytes that join a channel that follows their spool. -/
theorem State.tallyJoin_self {s : State} {td : Td} {n : TallyNo} {sp : SpoolId} {mode : Nat} (l : List Byte)
    (hmode : fld (s.getReg (trdTally td n)) 5 4 = mode) (hspool : fld (s.getReg (trdTally td n)) 21 16 = sp.val) :
    ((s.tallyJoin td sp mode l n).tallyStream td n).bytes = (s.tallyStream td n).bytes ++ l ∧
      (s.tallyJoin td sp mode l n).getReg (trdTally td n + 0x18) =
        tallyCrc (fld (s.getReg (trdTally td n)) 1 0) ((s.tallyStream td n).bytes ++ l) := by
  rw [State.tallyJoin, if_pos ⟨hmode, hspool⟩]
  refine ⟨?_, ?_⟩
  · rw [State.tallyCheck_tallyStream]
    exact congrArg TallyStream.bytes ((State.setTallyStream_tallyStream s td n n _).trans (if_pos rfl))
  · rw [(State.tallyCheck_frame _ _ _).2 _ (by omega) (by omega), State.countWrap_getReg, if_neg (by omega), State.setReg_getReg_self]

/-- The bytes of a bolt join the stream of every channel that follows its spool, once. -/
theorem State.tallyInclude_reads {s : State} {td : Td} {n : TallyNo} {sp : SpoolId} {mode : Nat} (l : List Byte)
    (hmode : fld (s.getReg (trdTally td n)) 5 4 = mode) (hspool : fld (s.getReg (trdTally td n)) 21 16 = sp.val) :
    ((s.tallyInclude td sp mode l).tallyStream td n).bytes = (s.tallyStream td n).bytes ++ l ∧
      (s.tallyInclude td sp mode l).getReg (trdTally td n + 0x18) =
        tallyCrc (fld (s.getReg (trdTally td n)) 1 0) ((s.tallyStream td n).bytes ++ l) := by
  have hall : ∀ m : TallyNo, m ∈ (List.range 16).map (Fin.ofNat 16) := by decide
  have hnodup : ((List.range 16).map (Fin.ofNat 16)).Nodup := by decide
  obtain ⟨before, after, hsplit⟩ := List.append_of_mem (hall n)
  rw [State.tallyInclude_eq, hsplit, List.foldl_append, List.foldl_cons]
  rw [hsplit, List.nodup_middle, List.nodup_cons, List.mem_append, not_or] at hnodup
  obtain ⟨⟨hbefore, hafter⟩, _⟩ := hnodup
  obtain ⟨hstream, hregs⟩ := s.foldl_tallyJoin_of_not_mem (td := td) sp mode l hbefore
  generalize before.foldl (State.tallyJoin td sp mode l) s = t at hstream hregs
  have hcfg : t.getReg (trdTally td n) = s.getReg (trdTally td n) := hregs 0 (by decide)
  obtain ⟨hjoined, hvalue⟩ := State.tallyJoin_self (s := t) l (hcfg ▸ hmode) (hcfg ▸ hspool)
  obtain ⟨hstream', hregs'⟩ := (t.tallyJoin td sp mode l n).foldl_tallyJoin_of_not_mem (td := td) sp mode l hafter
  refine ⟨?_, ?_⟩
  · rw [hstream', hjoined, hstream]
  · rw [hregs' _ (by decide), hvalue, hcfg, hstream]

end Sys2Proof.Machine
end

section
/-! PROOFS. The Tally channels of the Loom dies (14 §14.6, R464, R466, R467): the start of a pass, its reads, and its end. -/

namespace Sys2Proof.Machine

section
variable {s : State} {d : Die} {n : TallyNo}

/-! ## The start of a pass (R464, R466) -/

/-- A GO in ONCE mode with no pass: it waits for the next pick start where the core runs a deck. -/
theorem State.tallyGo_of_once (ha : s.answers (.ldie d) = true) (hmode : fld (s.getReg (loomTally d n)) 5 4 = 2)
    (hidle : (s.tally d n).busy = false) :
    s.tallyGo d n = if s.runs (s.tallyRange d n).1 then s.setTally d n { s.tally d n with pending := true } else s.tallyBegin d n :=
  if_neg (by simp [ha, hmode, hidle])

/-- The first granule of a range that is not carry, none where all are. -/
def State.shedGranule (s : State) (r : CoreId × Nat × Nat) : Option Nat :=
  ((List.range ((r.2.1 + r.2.2 - 1) / 65536 + 1)).filter fun i => r.2.1 / 65536 ≤ i).find? fun i => 127 ≤ i || !s.carryBit r.1 i

/-- No granule of a range is shed where each is below 127 and carry. -/
theorem State.shedGranule_of_carry {r : CoreId × Nat × Nat}
    (h : ∀ i, r.2.1 / 65536 ≤ i → i ≤ (r.2.1 + r.2.2 - 1) / 65536 → i < 127 ∧ s.carryBit r.1 i = true) : s.shedGranule r = none := by
  refine List.find?_eq_none.2 fun i hi => ?_
  obtain ⟨hlast, hfirst⟩ := List.mem_filter.1 hi
  obtain ⟨hlow, hcarry⟩ := h i (of_decide_eq_true hfirst) (Nat.lt_succ_iff.1 (List.mem_range.1 hlast))
  simp [hlow, hcarry]

/-- The first granule of a range, if it is not carry, is the one found. -/
theorem State.shedGranule_of_first {r : CoreId × Nat × Nat} (hlen : 0 < r.2.2)
    (h : 127 ≤ r.2.1 / 65536 ∨ s.carryBit r.1 (r.2.1 / 65536) = false) : s.shedGranule r = some (r.2.1 / 65536) := by
  rw [State.shedGranule, List.find?_filter, List.find?_range_eq_some]
  refine ⟨?_, List.mem_range.2 ?_, fun j hj => ?_⟩
  · simpa using h
  · have : r.2.1 / 65536 ≤ (r.2.1 + r.2.2 - 1) / 65536 := Nat.div_le_div_right (by omega)
    omega
  · simp [hj]

/-- A pass over a range of some bytes starts, or is refused with the granule that is not carry. -/
theorem State.tallyBegin_eq (hlen : 0 < (s.tallyRange d n).2.2) :
    s.tallyBegin d n = match s.shedGranule (s.tallyRange d n) with
      | some i => ((s.modReg (loomTally d n + 0x28) fun x => putBit x 3 true).logDie d 0x9003 n.val (BitVec.ofNat 64 i)).setTally d n {}
      | none => ((s.modReg (loomTally d n + 0x28) fun x => putBit x 0 true).setTally d n { busy := true }).tallyAsk d n := by
  rw [State.tallyBegin]
  simp only [if_neg hlen.ne']
  rfl

/-- A pass of a Loom die channel after it was set. -/
theorem State.setTally_tally_self (s : State) (d : Die) (n : TallyNo) (x : TallyPass) : (s.setTally d n x).tally d n = x :=
  sget_sset_self _ _ _ _

/-- The range of a channel is that of its CFG, BASE and LEN. -/
theorem State.tallyRange_congr {t : State} (h : ∀ o < 0x28, t.getReg (loomTally d n + o) = s.getReg (loomTally d n + o)) :
    t.tallyRange d n = s.tallyRange d n := by
  have hcfg : t.getReg (loomTally d n) = s.getReg (loomTally d n) := h 0 (by decide)
  simp only [State.tallyRange, hcfg, h 8 (by decide), h 0xC (by decide)]

/-- A pass that has bytes left to read asks for the next. -/
theorem State.tallyAsk_of_left (hbusy : (s.tally d n).busy = true) (hleft : (s.tally d n).got.length < (s.tallyRange d n).2.2) :
    s.tallyAsk d n = s.modCore (s.tallyRange d n).1 fun c => { c with svc := c.svc ++ [.tally d n] } := by
  have hnext : s.tallyNext d n = some _ := if_pos (by simp [hbusy, hleft])
  rw [State.tallyAsk, hnext]

/-- One that has read all asks for none. -/
theorem State.tallyAsk_of_all (hall : (s.tallyRange d n).2.2 ≤ (s.tally d n).got.length) : s.tallyAsk d n = s := by
  have hnext : s.tallyNext d n = none := if_neg (by simp [hall])
  rw [State.tallyAsk, hnext]

/-- A pass over a range that is carry starts, and asks for its first read. -/
theorem State.tallyBegin_of_carry (hlen : 0 < (s.tallyRange d n).2.2) (h : s.shedGranule (s.tallyRange d n) = none) :
    s.tallyBegin d n = ((s.setReg (loomTally d n + 0x28) (putBit (s.getReg (loomTally d n + 0x28)) 0 true)).setTally d n
      { busy := true }).modCore (s.tallyRange d n).1 fun c => { c with svc := c.svc ++ [.tally d n] } := by
  have hbegin := State.tallyBegin_eq (s := s) hlen
  rw [h] at hbegin
  have hrange : ((s.modReg (loomTally d n + 0x28) fun x => putBit x 0 true).setTally d n { busy := true }).tallyRange d n =
      s.tallyRange d n := State.tallyRange_congr fun o ho => by
        rw [State.setTally_getReg, State.modReg_getReg, if_neg (by omega)]
  refine hbegin.trans ((State.tallyAsk_of_left ?_ ?_).trans (by rw [hrange]; rfl))
  · rw [State.setTally_tally_self]
  · rw [State.setTally_tally_self, hrange]
    exact hlen

/-! ## The reads of a pass (R464) -/

/-- A line without an error joins the bytes of its pass, which asks for the next if one is left. -/
theorem State.tallyLine_of_good (g : CoreId) (data : List Byte) (hbusy : (s.tally d n).busy = true) :
    s.tallyLine g d n data [] =
      (let s1 := s.setTally d n { s.tally d n with got := (s.tally d n).got ++ data }
       if (s.tallyRange d n).2.2 ≤ (s.tally d n).got.length + data.length then s1
       else s1.modCore (s.tallyRange d n).1 fun c => { c with svc := c.svc ++ [.tally d n] }) := by
  have hline : s.tallyLine g d n data [] =
      (s.setTally d n { s.tally d n with got := (s.tally d n).got ++ data }).tallyAsk d n := rfl
  have hrange : (s.setTally d n { s.tally d n with got := (s.tally d n).got ++ data }).tallyRange d n = s.tallyRange d n := rfl
  have hgot : ((s.setTally d n { s.tally d n with got := (s.tally d n).got ++ data }).tally d n).got.length =
      (s.tally d n).got.length + data.length := by rw [State.setTally_tally_self, List.length_append]
  rw [hline]
  dsimp only
  by_cases hall : (s.tallyRange d n).2.2 ≤ (s.tally d n).got.length + data.length
  · rw [if_pos hall, State.tallyAsk_of_all (by rw [hrange, hgot]; exact hall)]
  · rw [if_neg hall, State.tallyAsk_of_left (by rw [State.setTally_tally_self]; exact hbusy)
      (by rw [hrange, hgot]; exact Nat.lt_of_not_le hall), hrange]

end

/-- Settles O55: the channels of the Treadle dies, then those of the Loom dies by their start, their reads and their end. -/
theorem tallyChannelsCheckCommittedData : Obligations.TallyChannelsCheckCommittedData := by
  refine fun s => ⟨fun td n ha => ⟨fun hearly => ?arm, fun hdue => ⟨_, rfl, ?armDue⟩, ⟨_, rfl, ?reset⟩, fun val => ⟨_, rfl, ?cfg⟩,
      fun l sp mode hmode hspool => State.tallyInclude_reads l hmode hspool⟩,
    fun d n ha hmode hidle => ?go,
    fun d n hbusy => ⟨fun hleft => ?wait, fun data => State.tallyLine_of_good _ data hbusy, fun hall => ?done⟩,
    fun base ev => ⟨State.tallyCompare_of_eq ev, State.tallyCompare_of_ne ev⟩⟩
  case arm =>
    refine congrArg _ ((State.tallyArm_of_answers ha).trans (State.tallyCheck_of_early (.inr ?_)))
    rwa [State.setReg_getReg_ne _ _ (by omega), State.setReg_getReg_ne _ _ (by omega)]
  case armDue =>
    rw [State.tallyArm_of_answers ha]
    have hreg (a : Nat) (h28 : a ≠ trdTally td n + 0x28) : (s.setReg (trdTally td n + 0x28)
        (putBit (s.getReg (trdTally td n + 0x28)) 4 true)).getReg a = s.getReg a := State.setReg_getReg_ne _ _ h28
    have hstatus := State.setReg_getReg_self s (trdTally td n + 0x28) (putBit (s.getReg (trdTally td n + 0x28)) 4 true)
    generalize hs1 : s.setReg (trdTally td n + 0x28) (putBit (s.getReg (trdTally td n + 0x28)) 4 true) = s1 at hreg hstatus
    have harmed : bit (s1.getReg (trdTally td n + 0x28)) 4 = true := by rw [hstatus, bit_putBit_self _ _ (by decide)]
    have hcount : s1.getReg (trdTally td n + 0x24) = s1.getReg (trdTally td n + 0x20) := by
      rw [hreg _ (by omega), hreg _ (by omega), hdue]
    refine ⟨State.tallyCheck_disarms hcount, fun heq => ?_, fun hne => ?_⟩
    · rw [State.tallyCheck_of_match harmed hcount (by rw [hreg _ (by omega), hreg _ (by omega), heq])]
      refine ⟨(State.modReg_getReg _ _ _ _).trans ((if_pos rfl).trans (by rw [hstatus])), fun a h28 => ?_⟩
      rw [State.modReg_getReg, if_neg h28, hreg a h28]
    · obtain ⟨hbits, hmiss, hlog, hframe⟩ := State.tallyCheck_of_mismatch harmed hcount
        (by rw [hreg _ (by omega), hreg _ (by omega)]; exact hne)
      refine ⟨?_, ?_, ?_, fun a h28 h2C => (hframe a h28 h2C).trans (hreg a h28)⟩
      · rw [hbits, bit_putBit_self _ _ (by decide)]
      · rw [hmiss, State.count_getReg, State.count_getReg, hreg _ (by omega)]
      · rw [hlog, ← hs1, State.setReg_log]
  case reset =>
    have hreset : s.tallyReset td n = s.tallyRestart td n := if_pos ha
    obtain ⟨hbytes, hcount, hvalue, hcfg⟩ := s.tallyRestart_reads td n
    rw [hreset]
    exact ⟨hbytes, hcount, hvalue, hcfg, fun hearly a => State.tallyRestart_of_early hearly a, State.tallyRestart_disarms⟩
  case cfg =>
    have hwrite : s.tallyCfg td n val = (s.setReg (trdTally td n) (BitVec.ofNat 64 val.toNat &&& 0x003F0133)).tallyRestart td n :=
      if_pos ha
    obtain ⟨hbytes, hcount, hvalue, hcfg⟩ :=
      (s.setReg (trdTally td n) (BitVec.ofNat 64 val.toNat &&& 0x003F0133)).tallyRestart_reads td n
    rw [State.setReg_getReg_self] at hvalue hcfg
    rw [hwrite]
    exact ⟨hcfg, hbytes, hcount, hvalue⟩
  case go =>
    have hgo := State.tallyGo_of_once ha hmode hidle
    have hstart (hrun : s.runs (s.tallyRange d n).1 = false) : s.tallyGo d n = s.tallyBegin d n :=
      hgo.trans (if_neg (by simp [hrun]))
    refine ⟨fun hrun => congrArg _ (hgo.trans (if_pos hrun)), fun hrun hlen hcarry => ?_, fun i hrun hlen hi hshed => ?_⟩
    · exact congrArg _ ((hstart hrun).trans (State.tallyBegin_of_carry hlen (State.shedGranule_of_carry hcarry)))
    · subst hi
      refine congrArg _ ((hstart hrun).trans ((State.tallyBegin_eq hlen).trans ?_))
      rw [State.shedGranule_of_first hlen hshed]
      rfl
  case wait =>
    exact ⟨congrArg _ (if_pos (by simp [State.tallyRange, hleft])), if_pos (by simp [State.tallyRange, hbusy, hleft])⟩
  case done =>
    have hread : ¬ (s.tally d n).got.length < (s.tallyRange d n).2.2 := hall.not_gt
    exact congrArg _ (if_neg (by simp [hbusy, hread]))

end Sys2Proof.Machine
end

section
/-! PROOFS. Clocks, voltages and power requests (15 §15.1, §15.2): HDL_CLK_CFG (R492), HDL_PWR_REQ (R475, R476), single steps (R474)
and the answers of the regulators (R472, R473). -/

namespace Sys2Proof.Machine

section
variable {s : State}

/-! ## HDL_CLK_CFG (R492) -/

/-- A frequency that Table 15.2 does not list is discarded. -/
theorem State.clkWrite_of_undefined {val : Word} (h : coreMillivolt (fld (val &&& 0x10FFF) 11 0) = none) : s.clkWrite val = s :=
  if_pos (by rw [h, Option.isNone_none, Bool.or_true])

/-- A frequency of Table 15.2 outside pick generation: deferred in DOZE and during a change, else a change begins. The deferral
during a change is the model's choice. -/
theorem State.clkWrite_of_defined {val : Word} {mv : Nat} (ha : s.answers .hdl = true) (hpicks : s.active = false)
    (h : coreMillivolt (fld (val &&& 0x10FFF) 11 0) = some mv) :
    s.clkWrite val = if (s.pwrState = 2 || s.heddle.clkChange) then s.modHeddle fun h => { h with clkDoze := some (val &&& 0x10FFF) }
      else s.clkChange (val &&& 0x10FFF) := if_neg (by rw [ha, hpicks, h, Option.isNone_some]; decide)

/-- A change at or below the present voltages is written at once; a higher one waits for its raise. -/
theorem State.clkChange_of_defined {v : Word} {mv : Nat} (h : coreMillivolt (fld v 11 0) = some mv) :
    s.clkChange v = if s.below mv then (s.modHeddle fun h => { h with clkChange := true, clkWanted := some v }).avsAll mv
      else (s.modHeddle fun h => { h with clkChange := true, clkWanted := none }).setReg (hdl 0x44) (BitVec.ofNat 64 v.toNat) := by
  simp only [State.clkChange, h]
  cases s.below mv <;> simp only [Bool.false_eq_true, if_false, if_true]

/-- A change whose PLLs have relocked, with none deferred, ends, and VDD_CORE may fall. -/
theorem State.clkDone_of_relocked (hrun : s.heddle.clkChange = true) (hraised : s.heddle.clkWanted = none)
    (hlast : s.heddle.clkDoze = none) :
    s.clkDone = (s.modHeddle fun h => { h with clkChange := false, clkDoze := none }).avsAll s.clkMillivolt := by
  simp only [State.clkDone, hrun, hraised, hlast, Bool.not_true, Option.isSome_none, Bool.or_self, Bool.false_eq_true, if_false]

/-! ## Requests (R475, R476) -/

/-- HDL_PWR_REQ with bit 31 asks for its target. -/
theorem State.powerRequest_of_answers {td : Td} {val : Word} (ha : s.answers .hdl = true) (hbit : bit val 31 = true) :
    s.powerRequest td val = s.askPower ⟨td.val, fld val 2 0, 1⟩ := if_pos (by simp [ha, hbit])

/-- A request with nothing under way is tested at once. -/
theorem State.askPower_of_rest {a : PwrAsk} (hrest : s.power.seq = .none) :
    s.askPower a = if 4 < a.target then s else s.askNow a := by
  rw [State.askPower, hrest]

/-- The settings speak for both hosts. -/
theorem State.denied_of_host (td : Td) (target cause : Nat) :
    s.denied ⟨td.val, target, cause⟩ = !bit s.temple.settings.policyHost target := by
  match td with
  | 0 => rfl
  | 1 => rfl

/-- A request of a host that the settings deny is refused with who 1. -/
theorem State.askNow_of_denied {a : PwrAsk} (h : s.denied a = true) : s.askNow a = s.refusePwr a 1 0 := if_pos h

section
variable {a : PwrAsk} (hallowed : s.denied a = false) (hrest : s.power.seq = .none)
include hallowed hrest

/-- One for the present state does nothing. -/
theorem State.askNow_of_there (h : a.target = s.pwrState) : s.askNow a = s :=
  (if_neg (by simp [hallowed])).trans (if_pos ⟨h, hrest⟩)

omit hrest in
/-- One for RUN in SAFE is refused with who 2. -/
theorem State.askNow_of_safe (h : a.target ≠ s.pwrState) (hrun : a.target = 4) (hsafe : s.safe = true) :
    s.askNow a = s.refusePwr a 2 0 :=
  (if_neg (by simp [hallowed])).trans ((if_neg fun hthere => h hthere.1).trans (if_pos (by simp [hrun, hsafe])))

/-- A host's request for another state, outside SAFE and outside pick generation, is carried out. -/
theorem State.askNow_of_host (h : a.target ≠ s.pwrState) (hsafe : s.safe = false) (hpicks : s.active = false)
    (hhost : a.requester ≤ 1) : s.askNow a = s.pursue a := by
  rw [State.askNow, if_neg (by simp [hallowed]), if_neg fun hthere => h hthere.1, if_neg (by simp [hsafe]), if_neg (by simp [hpicks]),
    if_neg (by omega), hrest]

end

/-- A request for a state of DOZE or above begins its first step. -/
theorem State.pursue_of_up {a : PwrAsk} (h : a.target ≠ s.pwrState) (hup : 2 ≤ a.target) : s.pursue a = s.beginStep a :=
  (if_neg h).trans (if_neg (by omega))

/-- A request for SLUMBER or OFF begins a shutdown, where one may begin. -/
theorem State.pursue_of_down {a : PwrAsk} (h : a.target ≠ s.pwrState) (hdown : a.target ≤ 1) (hmay : s.mayShut a.target = true) :
    s.pursue a = s.startShutdown a := (if_neg h).trans ((if_pos hdown).trans (if_pos hmay))

/-- Bit 31 of HDL_PWR_LAST says that it holds a refusal: the fields below it leave it alone. -/
theorem bit_refusal {requester target who index weft : Nat} (hr : requester < 16) (ht : target < 8) (hw : who < 8) (hi : index < 256) :
    bit (BitVec.ofNat 64 (requester + 2 ^ 4 * target + 2 ^ 8 * who + 2 ^ 12 * index + 2 ^ 31 + 2 ^ 32 * weft)) 31 = true := by
  rw [bit, BitVec.getLsbD_ofNat, Nat.testBit_eq_decide_div_mod_eq]
  have : (requester + 2 ^ 4 * target + 2 ^ 8 * who + 2 ^ 12 * index + 2 ^ 31 + 2 ^ 32 * weft) / 2 ^ 31 % 2 = 1 := by omega
  rw [this]
  rfl

/-- A bit of the SMBus alerts that is set. -/
theorem State.alert_power_alert (s : State) (i : Nat) : (s.alert i).power.alert = putBit s.power.alert i true := rfl

/-- A refusal sets its alert and HDL_PWR_LAST, and leaves HDL_PWR_STATE. -/
theorem State.refusePwr_reads (a : PwrAsk) {who : Nat} (index : Nat) (hw : who < 8) :
    (s.refusePwr a who index).power.alert = putBit s.power.alert 1 true ∧
      (s.refusePwr a who index).getReg (hdl 0x1104) = s.getReg (hdl 0x1104) ∧
      bit ((s.refusePwr a who index).getReg (hdl 0x1108)) 31 = true := by
  refine ⟨?_, ?_, ?_⟩
  · rw [State.refusePwr, State.alert_power_alert, State.logHdl_power, State.setReg_power, State.count_power]
  · rw [State.refusePwr, State.alert, State.modPower_getReg, State.logHdl_getReg, State.setReg_getReg_ne _ _ (by decide),
      State.count_getReg, if_neg (by simp only [hdl]; omega)]
  · rw [State.refusePwr, State.alert, State.modPower_getReg, State.logHdl_getReg, State.setReg_getReg_self]
    exact bit_refusal (Nat.mod_lt _ (by decide)) (Nat.mod_lt _ (by decide)) hw (Nat.mod_lt _ (by decide))

/-- STATE reads what it was set to, with its alert. -/
theorem State.setPwr_reads {n : Nat} (hn : n ≤ 4) :
    (s.setPwr n).pwrState = n ∧ (s.setPwr n).power.alert = putBit s.power.alert 0 true := by
  refine ⟨?_, ?_⟩
  · have hreg : (s.setPwr n).getReg (hdl 0x1104) = putFld (s.getReg (hdl 0x1104)) 2 0 n := by
      rw [State.setPwr, State.alert, State.modPower_getReg, State.logHdl_getReg]
      exact State.setReg_getReg_self _ _ _
    exact (congrArg (fld · 2 0) hreg).trans ((fld_putFld_self _ _ (by decide)).trans (Nat.mod_eq_of_lt (by omega)))
  · rw [State.setPwr, State.alert_power_alert, State.logHdl_power, State.pwrField, State.modReg_power]

/-- A single step that nothing holds ends: STATE takes its value, and the rest of the request goes on. -/
theorem State.transitionDone_of_step {n : Nat} (hstep : s.power.seq = .step n) (havs : s.avsBusy = false) (hpicks : s.active = false)
    (hclk : s.heddle.clkChange = false) (hvolts : (n ≠ 3 ∨ 3 ≤ s.pwrState) ∨ s.below s.holdMillivolt = false) :
    s.transitionDone = ((s.setPwr n).endSeq.arrive s.pwrState n).afterSeq := by
  have hready : ¬ ((decide (n = 3) && decide (s.pwrState < 3) && s.below s.holdMillivolt) = true) := by
    obtain (h | h) | h := hvolts
    · simp [h]
    · simp [Nat.not_lt.2 h]
    · simp [h]
  simp only [State.transitionDone, hstep]
  exact (if_neg (by simp [havs, hpicks, hclk])).trans (if_neg hready)

/-! ## The regulators (R472, R473) -/

section
variable {j : Fin 16} {r : AvsReq} (hreq : s.power.avs.lookup j.val = some r)
include hreq

/-- An acknowledgement records the voltage, and the request is over. -/
theorem State.avsAck_of_request (hwanted : s.heddle.clkWanted = none) :
    s.avsAck j = s.modPower fun p => { p with
      millivolt := sset (fun _ => 700) p.millivolt j.val r.millivolt
      avs := p.avs.filter fun e => e.1 != j.val } := by
  simp only [State.avsAck, hreq, State.clkRaised]
  split
  · next v hv => cases hwanted.symm.trans hv
  · rfl

/-- A request that is not answered in time is repeated once; then it is logged, and one that failed to lower is over. -/
theorem State.avsTimeout_of_request :
    s.avsTimeout j =
      if s.since r.sent < 1000 * fld (s.getReg (hdl 0x1134)) 12 0 then s
      else if !r.repeated then s.avsSend j r.millivolt r.raise true
      else
        let v : Dword := BitVec.ofNat 64 (r.millivolt % 2 ^ 16 + 2 ^ 16 * (s.millivolt j.val % 2 ^ 16) + (if r.raise then 2 ^ 32 else 0))
        let s1 := (s.avsDrop j.val).logHdl 0x7804 j.val v
        if r.raise then s1.raiseFailed j.val else s1 := by
  rw [State.avsTimeout, hreq]

/-- The second time, with a voltage that was to fall. -/
theorem State.avsTimeout_of_lowering (hlate : 1000 * fld (s.getReg (hdl 0x1134)) 12 0 ≤ s.since r.sent) (hagain : r.repeated = true)
    (hlower : r.raise = false) :
    s.avsTimeout j = (s.modPower fun p => { p with avs := p.avs.filter fun e => e.1 != j.val }).logHdl 0x7804 j.val
      (BitVec.ofNat 64 (r.millivolt % 2 ^ 16 + 2 ^ 16 * (s.millivolt j.val % 2 ^ 16) + 0)) := by
  rw [State.avsTimeout_of_request hreq, if_neg hlate.not_gt, if_neg (by simp [hagain])]
  simp only [hlower, Bool.false_eq_true, if_false, State.avsDrop]

end

end

/-- Settles O56: HDL_CLK_CFG and the end of its change, requests with their refusals, single steps, and the regulators. That the step
up from SLUMBER goes to HOLD is the model's choice (log entry 38), and so is the deferral of a clock write while a change runs. -/
theorem clocksVoltagesAndRequests : Obligations.ClocksVoltagesAndRequests := by
  refine fun s => ⟨fun val => ⟨fun h => congrArg Host.Outcome.next (State.clkWrite_of_undefined h), fun mv ha hpicks h => ?clock⟩,
    fun hrun hraised hlast => congrArg Host.Outcome.next (State.clkDone_of_relocked hrun hraised hlast),
    fun td val ha hbit hrest => ?request,
    fun a who index hw => State.refusePwr_reads a index hw, fun n hn => State.setPwr_reads hn,
    fun n hstep havs hpicks hclk hvolts => congrArg Host.Outcome.next (State.transitionDone_of_step hstep havs hpicks hclk hvolts),
    fun cur target _ _ _ _ => rfl, fun j r hreq => ?regulator⟩
  case clock =>
    have hwrite := State.clkWrite_of_defined ha hpicks h
    have hchange (hstate : s.pwrState ≠ 2) (hrest : s.heddle.clkChange = false) : s.clkWrite val = _ :=
      (hwrite.trans (if_neg (by simp [hstate, hrest]))).trans (State.clkChange_of_defined h)
    refine ⟨fun hdefer => congrArg Host.Outcome.next (hwrite.trans (if_pos ?_)),
      fun hstate hrest hlow => congrArg Host.Outcome.next ((hchange hstate hrest).trans (if_neg (by simp [hlow]))),
      fun hstate hrest hraise => congrArg Host.Outcome.next ((hchange hstate hrest).trans (if_pos hraise))⟩
    obtain hdefer | hdefer := hdefer <;> simp [hdefer]
  case request =>
    have hask := (State.powerRequest_of_answers (td := td) ha hbit).trans (State.askPower_of_rest hrest)
    have hnow (htarget : fld val 2 0 ≤ 4) : s.powerRequest td val = s.askNow ⟨td.val, fld val 2 0, 1⟩ :=
      hask.trans (if_neg htarget.not_gt)
    have hdenied := State.denied_of_host (s := s) td (fld val 2 0) 1
    refine ⟨fun hnone => congrArg Host.Outcome.next (hask.trans (if_pos hnone)), fun htarget hpolicy => ?_, fun htarget hpolicy => ?_⟩
    · exact congrArg Host.Outcome.next ((hnow htarget).trans (State.askNow_of_denied (by rw [hdenied, hpolicy]; rfl)))
    · have hallowed : s.denied ⟨td.val, fld val 2 0, 1⟩ = false := by rw [hdenied, hpolicy]; rfl
      refine ⟨fun hthere => congrArg Host.Outcome.next ((hnow htarget).trans (State.askNow_of_there hallowed hrest hthere)),
        fun hother hrun hsafe => congrArg Host.Outcome.next ((hnow htarget).trans (State.askNow_of_safe hallowed hother hrun hsafe)),
        fun hother hsafe hpicks => ?_⟩
      have hpursue := (hnow htarget).trans (State.askNow_of_host hallowed hrest hother hsafe hpicks (Nat.lt_succ_iff.1 td.isLt))
      exact ⟨fun hup => congrArg Host.Outcome.next (hpursue.trans (State.pursue_of_up hother hup)),
        fun hdown hmay => congrArg Host.Outcome.next (hpursue.trans (State.pursue_of_down hother hdown hmay))⟩
  case regulator =>
    have htimeout := State.avsTimeout_of_request hreq
    exact ⟨fun hwanted => congrArg Host.Outcome.next (State.avsAck_of_request hreq hwanted),
      fun hearly => congrArg Host.Outcome.next (htimeout.trans (if_pos hearly)),
      fun hlate hfirst => congrArg Host.Outcome.next (htimeout.trans ((if_neg hlate.not_gt).trans (if_pos (by rw [hfirst]; rfl)))),
      fun hlate hagain hlower => congrArg Host.Outcome.next (State.avsTimeout_of_lowering hreq hlate hagain hlower)⟩

end Sys2Proof.Machine
end

section
/-! PROOFS. The supplies, RESET_N and PWR_FAIL_N (15 §15.3, §15.4), the steps of a power-on (R478, R479, Table 15.5), and the two
phases of a shutdown (R480–R483). -/

namespace Sys2Proof.Machine

section
variable {s : State}

/-! ## Power-on (R478, R479) -/

/-- The state in which step 1 of a power-on begins: everything reset but what is retained, the SMBus window answering, the lock bit
set. -/
def State.powerOnStart (s : State) : State :=
  let p := s.power
  let s1 := (s.powerReset p.cold).modPower fun q => { q with cold := p.cold, smbLive := true }
  (if !(p.cold || p.supplyFail || p.reboot || p.wake) then s1.setPend none else s1).setReg (hdl 0x10) 1

/-- POWER_ON in OFF with its pins high begins step 1, if there is a reason for it. -/
theorem State.powerOn_of_ready (hrest : s.power.seq = .none) (hoff : s.pwrState = 0) (haux : s.pins.vddAux = true)
    (hreset : s.pins.resetN = true) (hfail : s.pins.pwrFailN = true) :
    s.powerOn = s.powerOnDue.elim s fun a => s.powerOnStart.beginSeq a (.powerOn 1) 3 := by
  have hready : ¬ (s.power.seq ≠ .none ∨ s.pwrState ≠ 0 ∨ (!(s.pins.vddAux && s.pins.resetN && s.pins.pwrFailN)) = true) := by
    rw [haux, hreset, hfail]
    simp [hrest, hoff]
  rw [State.powerOn, if_neg hready]
  cases s.powerOnDue <;> rfl

/-- What a beginning sequence has in the power logic and in HDL_PWR_STATE. -/
theorem State.beginSeq_reads (s : State) (a : PwrAsk) (q : PwrSeq) (phase : Nat) (hphase : phase < 4) :
    (s.beginSeq a q phase).power.seq = q ∧ (s.beginSeq a q phase).power.ask = a ∧
      (s.beginSeq a q phase).power.cold = s.power.cold ∧ (s.beginSeq a q phase).power.smbLive = s.power.smbLive ∧
      fld ((s.beginSeq a q phase).getReg (hdl 0x1104)) 9 8 = phase := by
  refine ⟨rfl, rfl, rfl, rfl, ?_⟩
  rw [State.beginSeq_getReg, if_pos rfl, fld_putFld_self _ _ (by decide)]
  exact Nat.mod_eq_of_lt hphase

/-- Why a power-on is due stays, and the window answers, at its start. -/
theorem State.powerOnStart_reads (s : State) :
    s.powerOnStart.power.cold = s.power.cold ∧ s.powerOnStart.power.smbLive = true ∧ s.powerOnStart.getReg (hdl 0x10) = 1 := by
  have hpend (t : State) (b : Bool) : (if b then t.setPend none else t).power.cold = t.power.cold ∧
      (if b then t.setPend none else t).power.smbLive = t.power.smbLive := by cases b <;> exact ⟨rfl, rfl⟩
  exact ⟨(hpend _ _).1, (hpend _ _).2, State.setReg_getReg_self _ _ _⟩

/-- POWER_ON with a reason begins step 1 of its request, with the lock bit set and the SMBus window answering. -/
theorem State.powerOn_of_due {a : PwrAsk} (hrest : s.power.seq = .none) (hoff : s.pwrState = 0) (haux : s.pins.vddAux = true)
    (hreset : s.pins.resetN = true) (hfail : s.pins.pwrFailN = true) (hdue : s.powerOnDue = some a) :
    s.powerOn.power.seq = .powerOn 1 ∧ s.powerOn.power.ask = a ∧ s.powerOn.power.cold = s.power.cold ∧
      s.powerOn.power.smbLive = true ∧ s.powerOn.getReg (hdl 0x10) = 1 ∧ fld (s.powerOn.getReg (hdl 0x1104)) 9 8 = 3 := by
  have hon : s.powerOn = s.powerOnStart.beginSeq a (.powerOn 1) 3 := by
    rw [State.powerOn_of_ready hrest hoff haux hreset hfail, hdue, Option.elim_some]
  obtain ⟨hcold, hsmb, hlock⟩ := s.powerOnStart_reads
  obtain ⟨hseq, hask, hcold', hsmb', hphase⟩ := s.powerOnStart.beginSeq_reads a (.powerOn 1) 3 (by decide)
  rw [hon]
  refine ⟨hseq, hask, hcold'.trans hcold, hsmb'.trans hsmb, ?_, hphase⟩
  rw [State.beginSeq_getReg, if_neg (by decide), hlock]

/-- What the end of each step of a power-on does (Table 15.5). -/
def State.powerOnNext (s : State) : Nat → State
  | 1 => s.seqAt (.powerOn 2)
  | 2 => (s.selectCopy.modPower fun p => { p with enIo := true }).seqAt (.powerOn 3)
  | 3 => (s.modPower fun p => { p with enSram := !s.power.recovery }).seqAt (.powerOn 4)
  | 4 =>
    let s1 := (s.modPower fun p => { p with enSerdes := true }).seqAt (.powerOn 5)
    if s.power.cold then s1 else s1.restore.resetPorts
  | 5 =>
    let s1 := s.seqAt (.powerOn 6)
    if s.power.recovery then s1 else (s1.modPower fun p => { p with enCore := true }).avsEvery s.clkMillivolt
  | 6 => if s.avsBusy then s else s.seqAt (.powerOn 7)
  | _ => s.powerOnEnd

/-- A step of a power-on ends as its number says. -/
theorem State.powerOnStep_of_step {n : Nat} (hstep : s.power.seq = .powerOn n) : s.powerOnStep = s.powerOnNext n := by
  simp only [State.powerOnStep, hstep]
  rfl

/-- A rail that was enabled at a step, without power-good for 10 ms, refuses the power-on. -/
theorem State.pgTimeout_of_late {n : Nat} (hstep : s.power.seq = .powerOn n) (hlate : 10000000 ≤ s.since s.power.stepAt)
    (hon : n = 3 ∧ s.power.enIo = true ∨ n = 4 ∧ s.power.enSram = true ∨ n = 5 ∧ s.power.enSerdes = true ∨
      n = 6 ∧ s.power.enCore = true) : s.pgTimeout = s.refusePowerOn 5 (n - 3) := by
  rw [State.pgTimeout, hstep]
  obtain ⟨rfl, hrail⟩ | ⟨rfl, hrail⟩ | ⟨rfl, hrail⟩ | ⟨rfl, hrail⟩ := hon <;>
    exact if_pos (by rw [hrail, decide_eq_true hlate]; rfl)

/-! ## PWR_FAIL_N (R480, R483) -/

/-- A fall of PWR_FAIL_N with no sequence under way: in DOZE or above a shutdown to OFF with cause 2, below it the pin alone. -/
theorem State.failFall_of_rest (hrest : s.power.seq = .none) :
    s.failFall =
      (let s1 : State := { s with pins := { s.pins with pwrFailN := false }, power := { s.power with failHighSince := none } }
       if 2 ≤ s.pwrState then
         (((s1.logHdl 0x7806 0 (BitVec.ofNat 64 (s.pwrState + 2 ^ 8 * fld (s.getReg (hdl 0x1104)) 9 8))).alert 4).modPower fun p =>
           { p with supplyFail := true }).startShutdown ⟨3, 0, 2⟩
       else s1) := by
  have hmay : s.mayShut 0 = decide (2 ≤ s.pwrState) := by rw [State.mayShut, hrest]
  simp only [State.failFall, hrest, hmay, Bool.false_and, Bool.or_false, Bool.false_eq_true, if_false, decide_eq_true_eq]

/-- 2 ms of good supply in Phase A of a supply failure call it off; before that nothing happens. -/
theorem State.supplyReturn_of_phaseA {t : Nat} {f : Dword} (hphase : s.power.seq = .phaseA t) (hrise : s.power.failHighSince = some f)
    (hfail : s.power.supplyFail = true) (hpin : s.pins.pwrFailN = true) :
    s.supplyReturn = if 2000000 ≤ s.since f then
      ((s.modReg (hdl 0x1104) fun v => putFld v 15 12 7).modPower fun p => { p with aborted := true }).phaseAHold else s := by
  simp only [State.supplyReturn, hphase, hrise, hfail, hpin, Bool.and_self, Bool.true_and, decide_eq_true_eq]
  rfl

/-! ## The phases of a shutdown (R481, R482) -/

/-- Phase A in HOLD with the pick over and no operation left ends, and Phase B begins. -/
theorem State.phaseADone_of_hold {t : Nat} (hphase : s.power.seq = .phaseA t) (hpicks : s.active = false) (hflash : s.temple.busy = none)
    (hfirst : s.power.aDone = false) (hhold : s.pwrState = 3) (hgoing : s.power.aborted = false) (hsupply : s.power.supplyFail = false) :
    s.phaseADone = (s.abortAll.issueTickets.flashStop).phaseB t := by
  have hstay : s.phaseAHold = s := by
    simp only [State.phaseAHold, hpicks, hhold, hgoing, Bool.false_eq_true, if_false, if_true]
  simp only [State.phaseADone, hphase, hpicks, hflash, hfirst, hstay, hsupply, Bool.or_self, Bool.false_and, Bool.false_eq_true, if_false]

/-- A step of Phase B is followed by the next; the sixth, or the fifth towards SLUMBER, is the last. -/
theorem State.phaseBStep_of_phaseB {t n : Nat} (hphase : s.power.seq = .phaseB t n) :
    s.phaseBStep = if n = 6 ∨ n = 5 ∧ t ≠ 0 then s.phaseBEnd t else s.phaseBEnter t (n + 1) := by
  simp only [State.phaseBStep, hphase, Bool.or_eq_true, Bool.and_eq_true, decide_eq_true_eq, bne_iff_ne]

end

/-- Settles O57: the supply and the two pins, a power-on by its steps, its refusal, and both phases of a shutdown. -/
theorem suppliesResetsAndSequences : Obligations.SuppliesResetsAndSequences := by
  refine fun s => ⟨⟨_, rfl, rfl, rfl, rfl, rfl, rfl, rfl, rfl, rfl, rfl⟩, ⟨_, rfl, rfl, rfl, rfl, rfl, rfl, rfl, rfl, rfl⟩,
    fun hlow => congrArg Host.Outcome.next (if_neg (by simp [hlow])),
    fun hrest hoff haux hreset hfail => ⟨fun hnone => ?_, fun a hdue => ?_⟩, fun n hstep => ?steps, fun hrest hup => ?_, fun hrest hdown => ?_, rfl,
    fun t f hphase hrise hfail hpin => ⟨fun hlong => ?_, fun hshort => ?_⟩,
    fun t hphase hpicks hflash hfirst hhold hgoing hsupply => ?_, fun t n hphase => ⟨fun hlast => ?_, fun hnext => ?_⟩⟩
  · exact congrArg Host.Outcome.next ((State.powerOn_of_ready hrest hoff haux hreset hfail).trans (by rw [hnone, Option.elim_none]))
  · exact ⟨_, rfl, State.powerOn_of_due hrest hoff haux hreset hfail hdue⟩
  case steps =>
    have hnext := congrArg (Host.Outcome.next (φ := Fault) (ρ := Refusal)) (State.powerOnStep_of_step hstep)
    refine ⟨?_, ?_, ?_, ?_, ?_, ?_, ?_, ?_, ?_, fun hlate hon => congrArg Host.Outcome.next (State.pgTimeout_of_late hstep hlate hon)⟩
    · rintro rfl; exact hnext
    · rintro rfl; exact hnext
    · rintro rfl; exact hnext
    · rintro rfl hcold; exact hnext.trans (congrArg Host.Outcome.next (if_pos hcold))
    · rintro rfl hnormal; exact hnext.trans (congrArg Host.Outcome.next (if_neg (by simp [hnormal])))
    · rintro rfl hrecovery; exact hnext.trans (congrArg Host.Outcome.next (if_pos hrecovery))
    · rintro rfl hanswered; exact hnext.trans (congrArg Host.Outcome.next (if_neg (by simp [hanswered])))
    · rintro rfl hbusy; exact hnext.trans (congrArg Host.Outcome.next (if_pos hbusy))
    · rintro rfl; exact hnext
  · exact congrArg Host.Outcome.next ((State.failFall_of_rest hrest).trans (if_pos hup))
  · exact congrArg Host.Outcome.next ((State.failFall_of_rest hrest).trans (if_neg (by omega)))
  · exact congrArg Host.Outcome.next ((State.supplyReturn_of_phaseA hphase hrise hfail hpin).trans (if_pos hlong))
  · exact congrArg Host.Outcome.next ((State.supplyReturn_of_phaseA hphase hrise hfail hpin).trans (if_neg hshort.not_ge))
  · exact congrArg Host.Outcome.next (State.phaseADone_of_hold hphase hpicks hflash hfirst hhold hgoing hsupply)
  · exact congrArg Host.Outcome.next ((State.phaseBStep_of_phaseB hphase).trans (if_pos hlast))
  · exact congrArg Host.Outcome.next ((State.phaseBStep_of_phaseB hphase).trans (if_neg (by omega)))

end Sys2Proof.Machine
end
